-- ==== Sys2Proof/Word.lean ====
section
/-! DEFINITION. The words and the small named types of the Stoljan S8: register indexes, guards, widths, scopes,
positions. Nothing here has an effect; spec/00 R4, spec/01 R11, spec/04 R86 to R98. -/

namespace Sys2Proof

abbrev Byte := BitVec 8
abbrev Word := BitVec 64
/-- A v register (R11). -/
abbrev VWord := BitVec 256
/-- A g, v, p, m register number as its field holds it (R90). -/
abbrev GIx := BitVec 6
abbrev VIx := BitVec 5
abbrev PIx := BitVec 3
abbrev MIx := BitVec 3

/-- The guard of an instruction (R93): predicate `p`, inverted when `neg`. -/
structure Guard where
  neg : Bool
  p   : PIx
  deriving DecidableEq, Repr

/-- Always (R93): `G` = 0 with `GN` = 0. -/
def Guard.always : Guard := ⟨false, 0⟩

/-- Operand B of an instruction that takes a register or, with a literal present, the literal (R89). -/
inductive OpB where
  | reg (b : GIx)
  | lit (w : Word)
  deriving DecidableEq, Repr

/-- The lane-mask fields of form 10 of a vector instruction (R97): `VM`, `VZ`. -/
structure VMask where
  vm : MIx
  vz : Bool
  deriving DecidableEq, Repr

/-- A memory operand (R99, R189): base, index, signed displacement. -/
structure MemA where
  a    : GIx
  b    : GIx
  disp : BitVec 32
  deriving DecidableEq, Repr

/-- `ATTR` of the memory class (R97): scope, element width, type select. -/
structure MemT where
  k     : Bool
  w     : BitVec 2
  scope : BitVec 3
  deriving DecidableEq, Repr

/-- A core position: die, column, row (R2, R19). -/
structure CoreId where
  die : BitVec 3
  x   : BitVec 5
  y   : BitVec 5
  deriving DecidableEq, Repr

/-- Position 32y + x (R350). -/
def CoreId.pos (c : CoreId) : Nat := 32 * c.y.toNat + c.x.toNat
/-- The cluster number (R19). -/
def CoreId.cluster (c : CoreId) : Nat := (c.y.toNat / 4) * 8 + c.x.toNat / 4
/-- A key that orders all core positions of the device. -/
def CoreId.key (c : CoreId) : Nat := 1024 * c.die.toNat + c.pos
/-- The position with a given key. -/
def CoreId.ofKey (n : Nat) : CoreId :=
  ⟨BitVec.ofNat 3 (n / 1024), BitVec.ofNat 5 (n % 32), BitVec.ofNat 5 (n / 32 % 32)⟩

/-- A run of the cassette (R152). -/
inductive LevelId where
  | cog0 (c : CoreId)
  | cog1 (die : BitVec 3) (cluster : BitVec 6)
  | cog2 (die : BitVec 3)
  deriving DecidableEq, Repr

/-- Scope codes (R97). -/
def scopeCore : BitVec 3 := 0
def scopeCluster : BitVec 3 := 1
def scopeDie : BitVec 3 := 2
def scopeDevice : BitVec 3 := 3
def scopeSystem : BitVec 3 := 4

/-- The row fields of a microinstruction (R260). -/
structure Micro where
  wm1  : BitVec 6
  drow : Byte
  arow : Byte
  brow : Byte
  crow : Byte
  od   : Bool
  oa   : Bool
  ob   : Bool
  imm  : BitVec 18
  deriving DecidableEq, Repr

/-- The sequencer's operations (R260). -/
inductive MicroOp where
  | mzero | mcopy | microMnot | microMand | microMor | microMxor | madd | msub | mcmp | msel | mshl | mshr | mfadd | mfmul
  | mloop | mend
  deriving DecidableEq, Repr

/-- A request to the root-of-trust core (R359): where it came from, spoke `sp` in CXL personality or fabric ID `fid` of an Avbaug
spoke, and its bytes, header first. On a CXL spoke they are what the request buffer of its BAR0 holds. -/
structure Request where
  cxl   : Bool
  sp    : BitVec 5
  fid   : BitVec 18
  bytes : List Byte
  deriving DecidableEq, Repr

/-- A repair (R349): the request, and the lines of its range whose storage fails again, which the part decides. -/
structure RepairOf where
  rq  : Request
  bad : List Nat
  deriving DecidableEq, Repr

/-- A unit that is to be fenced (R346): its number, and whether its training, or its retraining, has failed. -/
structure Failing where
  unit     : BitVec 5
  training : Bool
  deriving DecidableEq, Repr

/-- The bytes of a collective block (R342), and whether they came as poisoned (R337). -/
structure BlockData where
  bytes : List Byte
  pois  : Bool
  deriving DecidableEq, Repr

/-- A kind of register, as the taint fields code it (R97). -/
inductive RegKind where
  | g | p | v | m
  deriving DecidableEq, Repr

/-- Where an error was found (R344, R345). -/
inductive ErrSite where
  /-- An HBM or memory-side cache line, by its physical address. -/
  | line (pa : Nat)
  /-- An 8-byte unit of a core's scratchpad. -/
  | scratch (c : CoreId) (unit : Nat)
  /-- An 8-byte unit of a slab's bank groups. -/
  | slab (c : CoreId) (unit : Nat)
  /-- A word of a slab's microprogram store. -/
  | store (c : CoreId) (ix : BitVec 10)
  /-- A row of a tile. -/
  | tile (c : CoreId) (t : BitVec 5) (row : BitVec 4)
  /-- A register. -/
  | reg (c : CoreId) (k : BitVec 4) (kind : RegKind) (ix : BitVec 6)
  /-- The `n`-th record of a run, lowest key first, with its `KEY` readable and its `CTX` readable or not. -/
  | record (l : LevelId) (n : Nat) (keyOk ctxOk : Bool)
  /-- A TLB entry, by its place: those of a core's cluster, and after them those of its micro-TLB. -/
  | tlb (c : CoreId) (n : Nat)
  /-- The control state of a core, of a cluster, of a die. -/
  | core (c : CoreId)
  | cluster (die : BitVec 3) (cl : BitVec 6)
  | die (die : BitVec 3)
  deriving DecidableEq, Repr

end Sys2Proof
end

