-- ==== Sys2Proof/Machine/Numbers.lean ====
section
/-! DEFINITION. Number formats and arithmetic (spec/02): the formats of R34, exact values, `Round` of R48 and R49, the
stochastic generator of R50, the block formats of R53 and R54, and the exact sums, products, quotients and roots that the
instructions round. -/

namespace Sys2Proof.Machine

/-- Exception flags in the order of MXFLAGS bits 4:0 (R44). -/
abbrev FFlags := BitVec 5
def flagNX : FFlags := 1
def flagUF : FFlags := 2
def flagOF : FFlags := 4
def flagDZ : FFlags := 8
def flagNV : FFlags := 16

/-- The floating-point formats (R34). -/
inductive FFmt where
  | fp64 | fp32 | fp16 | bf16 | e5m2 | e4m3 | e3m2 | e2m3 | e2m1
  deriving DecidableEq, Repr

/-- Exponent bits (R34). -/
def FFmt.eb : FFmt → Nat
  | .fp64 => 11 | .fp32 => 8 | .fp16 => 5 | .bf16 => 8 | .e5m2 => 5 | .e4m3 => 4 | .e3m2 => 3 | .e2m3 => 2 | .e2m1 => 2
/-- Fraction bits (R34). -/
def FFmt.mb : FFmt → Nat
  | .fp64 => 52 | .fp32 => 23 | .fp16 => 10 | .bf16 => 7 | .e5m2 => 2 | .e4m3 => 3 | .e3m2 => 2 | .e2m3 => 3 | .e2m1 => 1
/-- Bias (R34). -/
def FFmt.bias : FFmt → Nat
  | .fp64 => 1023 | .fp32 => 127 | .fp16 => 15 | .bf16 => 127 | .e5m2 => 15 | .e4m3 => 7 | .e3m2 => 3 | .e2m3 => 1 | .e2m1 => 1
/-- Width in bits. -/
def FFmt.width (f : FFmt) : Nat := 1 + f.eb + f.mb
/-- The format has infinities, and NaNs of both kinds (R34, R36). -/
def FFmt.hasInf : FFmt → Bool
  | .fp64 => true | .fp32 => true | .fp16 => true | .bf16 => true | .e5m2 => true
  | .e4m3 => false | .e3m2 => false | .e2m3 => false | .e2m1 => false
/-- The format has a NaN (R34). -/
def FFmt.hasNaN : FFmt → Bool
  | .e3m2 => false | .e2m3 => false | .e2m1 => false
  | .fp64 => true | .fp32 => true | .fp16 => true | .bf16 => true | .e5m2 => true | .e4m3 => true
/-- `FZI` and `FZO` apply to the format (R40, R41). -/
def FFmt.flushes : FFmt → Bool
  | .fp64 => true | .fp32 => true | .fp16 => true | .bf16 => true
  | .e5m2 => false | .e4m3 => false | .e3m2 => false | .e2m3 => false | .e2m1 => false
/-- The canonical NaN (R36); 0 where the format has none. -/
def FFmt.cnan : FFmt → Nat
  | .fp64 => 0x7FF8000000000000 | .fp32 => 0x7FC00000 | .fp16 => 0x7E00 | .bf16 => 0x7FC0 | .e5m2 => 0x7E | .e4m3 => 0x7F
  | .e3m2 => 0 | .e2m3 => 0 | .e2m1 => 0
/-- The largest finite magnitude as an encoding (R34). -/
def FFmt.maxEnc : FFmt → Nat
  | .fp64 => 0x7FEFFFFFFFFFFFFF | .fp32 => 0x7F7FFFFF | .fp16 => 0x7BFF | .bf16 => 0x7F7F | .e5m2 => 0x7B | .e4m3 => 0x7E
  | .e3m2 => 0x1F | .e2m3 => 0x1F | .e2m1 => 0x07
/-- The floating type of a type code (R98); `fp64` for a code that is none. -/
def FFmt.ofCode (ty : BitVec 5) : FFmt :=
  match ty.toNat with
  | 9 => .fp32 | 10 => .fp16 | 11 => .bf16 | 12 => .e4m3 | 13 => .e5m2 | 14 => .e2m3 | 15 => .e3m2 | 16 => .e2m1
  | _ => .fp64

/-- An exact value. `num neg m e st` is ± m × 2^e; with `st` it lies strictly between m × 2^e and (m + 1) × 2^e in
magnitude. `nan true` is a signalling NaN. -/
inductive XVal where
  | nan (sig : Bool)
  | inf (neg : Bool)
  | num (neg : Bool) (m : Nat) (e : Int) (st : Bool)
  deriving DecidableEq, Repr

def XVal.zero (neg : Bool) : XVal := .num neg 0 0 false
def XVal.isNaN : XVal → Bool
  | .nan _ => true
  | .inf _ => false
  | .num _ _ _ _ => false
def XVal.isInf : XVal → Bool
  | .nan _ => false
  | .inf _ => true
  | .num _ _ _ _ => false
/-- The value is a zero of either sign. -/
def XVal.isZero : XVal → Bool
  | .num _ m _ st => decide (m = 0) && !st
  | .nan _ => false
  | .inf _ => false
def XVal.neg : XVal → Bool
  | .num n _ _ _ => n
  | .inf n => n
  | .nan _ => false
/-- The value with its sign turned. -/
def XVal.negate : XVal → XVal
  | .num n m e st => .num (!n) m e st
  | .inf n => .inf (!n)
  | .nan s => .nan s
/-- NV for a signalling NaN operand (R46). -/
def XVal.sigFlag : XVal → FFlags
  | .nan true => flagNV
  | .nan false => 0
  | .inf _ => 0
  | .num _ _ _ _ => 0

/-- `v × 2^k` for a natural `v`, rounded down for a negative `k`. -/
def shiftNat (v : Nat) (k : Int) : Nat :=
  match k with
  | .ofNat n => v <<< n
  | .negSucc n => v >>> (n + 1)

/-- The exact value of an encoding (R34, R36); under `fzi` a subnormal of a wide format reads as zero of its sign (R40). -/
def decodeF (f : FFmt) (fzi : Bool) (bits : Nat) : XVal :=
  let fr := bits % 2 ^ f.mb
  let e := bits / 2 ^ f.mb % 2 ^ f.eb
  let neg := decide (bits / 2 ^ (f.mb + f.eb) % 2 = 1)
  if f.hasInf && decide (e = 2 ^ f.eb - 1) then
    if fr = 0 then .inf neg else .nan (decide (fr / 2 ^ (f.mb - 1) = 0))
  else if decide (f = .e4m3) && decide (e = 15) && decide (fr = 7) then .nan false
  else if e = 0 then
    if fzi && f.flushes then .zero neg else .num neg fr (1 - (f.bias : Int) - f.mb) false
  else .num neg (2 ^ f.mb + fr) ((e : Int) - f.bias - f.mb) false

/-- Rounding modes (R42); `sr u` is the stochastic choice with the generator's 24 bits `u` (R51). -/
inductive RMode where
  | rne | rtz | rdn | rup | rna
  | sr (u : Nat)
  deriving DecidableEq, Repr

/-- The mode of an `RM` code; `rsr` is to nearest, ties to even, where nothing is converted (R42). -/
def RMode.ofCode (rm : Nat) : RMode :=
  match rm with
  | 1 => .rtz | 2 => .rdn | 3 => .rup | 4 => .rna
  | _ => .rne

/-- The choice of hi over lo (R48, R51): `rem` of `full` parts lie above lo, and something more with `st`. -/
def takesHi (mode : RMode) (neg odd : Bool) (rem full : Nat) (st : Bool) : Bool :=
  let gt := decide (full < 2 * rem) || (decide (2 * rem = full) && st)
  let tie := decide (2 * rem = full) && !st
  match mode with
  | .rne => gt || (tie && odd)
  | .rna => gt || tie
  | .rtz => false
  | .rdn => neg
  | .rup => !neg
  | .sr u => decide (u * full < rem * 2 ^ 24) || (decide (u * full = rem * 2 ^ 24) && st)

/-- An overflow goes to infinity where the format has one (R48). -/
def overflowsToInf (mode : RMode) (neg : Bool) : Bool :=
  match mode with
  | .rne => true | .rna => true | .sr _ => true
  | .rtz => false
  | .rdn => neg
  | .rup => !neg

/-- The encoding of a sign bit. -/
def signBits (f : FFmt) (neg : Bool) : Nat := if neg then 2 ^ (f.width - 1) else 0
/-- The encoding of an infinity. -/
def infBits (f : FFmt) (neg : Bool) : Nat := signBits f neg + (2 ^ f.eb - 1) * 2 ^ f.mb

/-- `floor(log2)` of a nonzero magnitude m × 2^e (R53, R54). -/
def log2Of (m : Nat) (e : Int) : Int := (m.log2 : Int) + e

/-- The number of `full`-sized parts that lie under m × 2^e at unit 2^q, what is left over, and how much a part is. -/
def splitAt (m : Nat) (e q : Int) : Nat × Nat × Nat :=
  match q - e with
  | .ofNat k => (m >>> k, m % 2 ^ k, 2 ^ k)
  | .negSucc k => (m <<< (k + 1), 0, 1)

/-- `Round(fmt, x, mode)` (R48): the encoding and the flags. `sat` makes an overflow give the largest finite value;
`fzo` is FPCR's, and applies to wide formats only (R41). -/
def roundF (f : FFmt) (mode : RMode) (sat fzo : Bool) (x : XVal) : Nat × FFlags :=
  match x with
  | .nan _ => if f.hasNaN then (f.cnan, 0) else (0, flagNV)
  | .inf n => if f.hasInf then (infBits f n, 0) else (signBits f n + f.maxEnc, flagNV)
  | .num n m e st =>
    if decide (m = 0) && !st then (signBits f n, 0)
    else
      let emin : Int := 1 - (f.bias : Int)
      let q : Int := max (log2Of m e - f.mb) (emin - f.mb)
      let (lo, rem, full) := splitAt m e q
      let inexact := decide (rem ≠ 0) || st
      let up := inexact && takesHi mode n (decide (lo % 2 = 1)) rem full st
      let y := if up then lo + 1 else lo
      let nx : FFlags := if inexact then flagNX else 0
      -- the encoding of y × 2^q, its exponent field unbounded
      let enc : Nat := ((q - (emin - f.mb)).toNat * 2 ^ f.mb) + y
      if f.maxEnc < enc then
        if f.hasInf && !sat && overflowsToInf mode n then (infBits f n, flagOF ||| flagNX)
        else (signBits f n + f.maxEnc, flagOF ||| flagNX)
      else if enc < 2 ^ f.mb then
        if fzo && f.flushes && decide (enc ≠ 0) then (signBits f n, flagUF ||| flagNX)
        else (signBits f n + enc, if inexact then flagUF ||| flagNX else 0)
      else (signBits f n + enc, nx)

/-- Rounds to an integer by R49's choice of lo or hi: the signed value, and whether it was inexact. -/
def roundToInt (mode : RMode) (n : Bool) (m : Nat) (e : Int) (st : Bool) : Int × Bool :=
  let (lo, rem, full) := splitAt m e 0
  let inexact := decide (rem ≠ 0) || st
  let y := if inexact && takesHi mode n (decide (lo % 2 = 1)) rem full st then lo + 1 else lo
  (if n then -(y : Int) else y, inexact)

/-- A value into a range of integers (R49): out of range gives the nearest bound and NV, a NaN gives 0 and NV. (log 67: DEDUCED) -/
def roundI (lo hi : Int) (mode : RMode) (x : XVal) : Int × FFlags :=
  match x with
  | .nan _ => (0, flagNV)
  | .inf n => (if n then lo else hi, flagNV)
  | .num n m e st =>
    let (y, inexact) := roundToInt mode n m e st
    if y < lo then (lo, flagNV) else if hi < y then (hi, flagNV) else (y, if inexact then flagNX else 0)

/-- The exact value of an integer. -/
def XVal.ofInt (v : Int) : XVal := .num (decide (v < 0)) v.natAbs 0 false

/-- The value of the low `w` bits of `v`, read as signed or natural (R32). -/
def intOf (signed : Bool) (w v : Nat) : Int :=
  let u := v % 2 ^ w
  if signed && decide (2 ^ (w - 1) ≤ u) then (u : Int) - 2 ^ w else u

/-- An integer modulo 2^w. -/
def wrap (w : Nat) (v : Int) : Nat := (v % (2 ^ w : Int)).toNat

-- exact arithmetic

/-- The signed multiple of 2^e0 that a finite value is, for e0 at most its exponent. -/
def XVal.scaled (e0 : Int) : XVal → Int
  | .num n m e _ => let v := m <<< (e - e0).toNat; if n then -(v : Int) else v
  | .nan _ => 0
  | .inf _ => 0

/-- The exponent of a finite value. -/
def XVal.exp : XVal → Int
  | .num _ _ e _ => e
  | .nan _ => 0
  | .inf _ => 0

/-- The exact sum of some values (R37, R59): a NaN operand gives NaN, opposite infinities give NaN with NV, and an exact
zero sum is −0 when every value is negative, or when both signs occur and the mode is `rdn`. -/
def xsum (rdn : Bool) (xs : List XVal) : XVal × FFlags :=
  if xs.any XVal.isNaN then
    (.nan false, if xs.contains (.inf true) && xs.contains (.inf false) then flagNV else 0)
  else if xs.contains (.inf true) then
    if xs.contains (.inf false) then (.nan false, flagNV) else (.inf true, 0)
  else if xs.contains (.inf false) then (.inf false, 0)
  else
    let e0 : Int := xs.foldl (fun a x => min a x.exp) 0
    let s : Int := xs.foldl (fun a x => a + x.scaled e0) 0
    if s = 0 then
      let anyNeg := xs.any XVal.neg
      let anyPos := xs.any fun x => !x.neg
      (.zero (anyNeg && (!anyPos || rdn)), 0)
    else (.num (decide (s < 0)) s.natAbs e0 false, 0)

/-- The exact sum of two values. -/
def xadd (rdn : Bool) (a b : XVal) : XVal × FFlags :=
  if a.isNaN || b.isNaN then (.nan false, 0) else xsum rdn [a, b]

/-- The exact product (R121): 0 × ∞ is NaN with NV. -/
def xmul (a b : XVal) : XVal × FFlags :=
  match a, b with
  | .nan _, _ => (.nan false, 0)
  | _, .nan _ => (.nan false, 0)
  | .inf n, y => if y.isZero then (.nan false, flagNV) else (.inf (n ^^ y.neg), 0)
  | x, .inf n => if x.isZero then (.nan false, flagNV) else (.inf (x.neg ^^ n), 0)
  | .num n m e st, .num n' m' e' st' => (.num (n ^^ n') (m * m') (e + e') (st || st'), 0)

/-- The exact quotient to more bits than any format keeps, with a mark when it goes on (R121). -/
def xdiv (a b : XVal) : XVal × FFlags :=
  match a, b with
  | .nan _, _ => (.nan false, 0)
  | _, .nan _ => (.nan false, 0)
  | .inf n, y => if y.isInf then (.nan false, flagNV) else (.inf (n ^^ y.neg), 0)
  | x, .inf n => (.zero (x.neg ^^ n), 0)
  | .num n m e _, .num n' m' e' _ =>
    if m' = 0 then
      if m = 0 then (.nan false, flagNV) else (.inf (n ^^ n'), flagDZ)
    else if m = 0 then (.zero (n ^^ n'), 0)
    else
      let num := m <<< 130
      (.num (n ^^ n') (num / m') (e - e' - 130) (decide (num % m' ≠ 0)), 0)

/-- The bits of an integer square root below 2^k, from the highest down. -/
def isqrtBits (n : Nat) : Nat → Nat → Nat
  | 0, r => r
  | k + 1, r => let c := r + 2 ^ k; isqrtBits n k (if c * c ≤ n then c else r)
/-- The integer square root of a number below 4^k. -/
def isqrt (k n : Nat) : Nat := isqrtBits n k 0

/-- The exact square root to more bits than any format keeps (R121). -/
def xsqrt (a : XVal) : XVal × FFlags :=
  match a with
  | .nan _ => (.nan false, 0)
  | .inf n => if n then (.nan false, flagNV) else (.inf false, 0)
  | .num n m e _ =>
    if m = 0 then (.zero n, 0)
    else if n then (.nan false, flagNV)
    else
      let odd := decide (e % 2 = 1)
      let v := (if odd then 2 * m else m) <<< 128
      let e' : Int := (if odd then e - 1 else e) / 2 - 64
      let r := isqrt 96 v
      (.num false r e' (decide (r * r ≠ v)), 0)

/-- The order of two values that are no NaN: −1, 0 or 1; zeros are equal (R123). -/
def xcmp (a b : XVal) : Int :=
  match a, b with
  | .inf n, .inf n' => if n = n' then 0 else if n then -1 else 1
  | .inf n, _ => if n then -1 else 1
  | _, .inf n => if n then 1 else -1
  | x, y =>
    let e0 := min x.exp y.exp
    let d := x.scaled e0 - y.scaled e0
    if d < 0 then -1 else if d = 0 then 0 else 1

/-- The order of R37: as `xcmp`, and −0 below +0. -/
def xcmpZ (a b : XVal) : Int :=
  if a.isZero && b.isZero then (if a.neg = b.neg then 0 else if a.neg then -1 else 1) else xcmp a b

/-- Minimum or maximum of two encodings (R37, R122): one operand's encoding, but a subnormal that reads as zero returns
zero of its sign, and two NaNs give the canonical NaN. `FZO` flushes no result of it, also in VMIN, VMAX, VREDMIN and VREDMAX: R122's 'encoding unchanged'
is for FMIN and FMAX, and R129 does not say which of the two holds there (log 93: DESIGN CHOICE). -/
def fminmax (isMax : Bool) (f : FFmt) (fzi : Bool) (a b : Nat) : Nat × FFlags :=
  let x := decodeF f fzi a
  let y := decodeF f fzi b
  let fl := x.sigFlag ||| y.sigFlag
  let enc (v : Nat) (z : XVal) : Nat := if z.isZero then signBits f z.neg else v
  if x.isNaN then if y.isNaN then (f.cnan, fl) else (enc b y, fl)
  else if y.isNaN then (enc a x, fl)
  else if isMax then (if xcmpZ x y < 0 then enc b y else enc a x, fl)
  else (if xcmpZ x y ≤ 0 then enc a x else enc b y, fl)

/-- FCMP's conditions (R102, R123): eq, ne, lt, le, gt, ge, un, ord. -/
def fcompare (cc : Nat) (x y : XVal) : Bool × FFlags :=
  let un := x.isNaN || y.isNaN
  let ordered : FFlags := if un then flagNV else 0
  let sig := x.sigFlag ||| y.sigFlag
  let c := xcmp x y
  match cc with
  | 0 => (!un && decide (c = 0), sig)
  | 1 => (un || decide (c ≠ 0), sig)
  | 2 => (!un && decide (c < 0), ordered)
  | 3 => (!un && decide (c ≤ 0), ordered)
  | 4 => (!un && decide (0 < c), ordered)
  | 5 => (!un && decide (0 ≤ c), ordered)
  | 6 => (un, sig)
  | _ => (!un, sig)

/-- FCLASS's bit number (R125). -/
def fclassBit (f : FFmt) (bits : Nat) : Nat :=
  match decodeF f false bits with
  | .inf n => if n then 0 else 7
  | .nan s => if s && f.hasInf then 8 else 9
  | .num n m _ _ =>
    if m = 0 then (if n then 3 else 4)
    else if m < 2 ^ f.mb then (if n then 2 else 5)
    else (if n then 1 else 6)

-- conversions between the types of R98

/-- The width of a type code's value (R98, R120): 6 bits for `e2m3` and `e3m2`, 4 for `e2m1`. -/
def codeBits (ty : BitVec 5) : Nat :=
  match ty.toNat with
  | 0 => 8 | 1 => 16 | 2 => 32 | 3 => 64 | 4 => 8 | 5 => 16 | 6 => 32 | 7 => 64
  | _ => (FFmt.ofCode ty).width

/-- A type code is an integer type, and a signed one (R98). -/
def codeIsInt (ty : BitVec 5) : Bool := decide (ty.toNat < 8)
def codeSigned (ty : BitVec 5) : Bool := decide (ty.toNat < 4)

/-- The exact value of a source of a type code (R124). -/
def decodeCode (ty : BitVec 5) (fzi : Bool) (v : Nat) : XVal :=
  if codeIsInt ty then .ofInt (intOf (codeSigned ty) (codeBits ty) v) else decodeF (FFmt.ofCode ty) fzi v

/-- A value into a type code (R124): the low bits of the result, and the flags. An integer result is reduced to its width; `SATF`
bears on conversions into 16 bits or fewer (R42, R48). -/
def encodeCode (ty : BitVec 5) (mode : RMode) (satf fzo : Bool) (x : XVal) : Nat × FFlags :=
  if codeIsInt ty then
    let w := codeBits ty
    let lo : Int := if codeSigned ty then -(2 ^ (w - 1)) else 0
    let hi : Int := if codeSigned ty then 2 ^ (w - 1) - 1 else 2 ^ w - 1
    let (y, fl) := roundI lo hi mode x
    (wrap w y, fl ||| x.sigFlag)
  else
    let f := FFmt.ofCode ty
    let (y, fl) := roundF f mode (satf && decide (f.width ≤ 16)) fzo x
    (y, fl ||| x.sigFlag)

-- stochastic rounding

/-- One step of the generator, seeded first if it is zero (R50). -/
def lfsrStep (seed s : BitVec 32) : BitVec 32 :=
  let s := if s = 0 then seed else s
  let fb := s.getLsbD 31 ^^ s.getLsbD 21 ^^ s.getLsbD 1 ^^ s.getLsbD 0
  (s <<< 1) ||| (if fb then 1 else 0)
/-- The 24 bits of a generator state (R51). -/
def lfsrDraw (s : BitVec 32) : Nat := s.toNat / 256

/-- How a run of conversions rounds: a mode, or the generator (R51). -/
structure Rounder where
  /-- The `RM` code in force. -/
  rm   : Nat
  /-- The generator is drawn from: `rsr`, and a destination of 16 bits or fewer (R42). -/
  sr   : Bool
  seed : BitVec 32
  s    : BitVec 32
  deriving DecidableEq, Repr

/-- The mode of the next element, and the rounder after it: one step an element (R51). -/
def Rounder.next (r : Rounder) : RMode × Rounder :=
  if r.sr then
    let s := lfsrStep r.seed r.s
    (.sr (lfsrDraw s), { r with s := s })
  else (.ofCode r.rm, r)

/-- Converts elements in order, one generator step each. -/
def convList (f : RMode → XVal → Nat × FFlags) : List XVal → Rounder → List Nat × FFlags × Rounder
  | [], r => ([], 0, r)
  | x :: xs, r =>
    let (mode, r) := r.next
    let (v, fl) := f mode x
    let (vs, fl', r) := convList f xs r
    (v :: vs, fl ||| fl', r)

/-- The greatest of some magnitudes, as m × 2^e; none when all are zero. -/
def greatest (xs : List XVal) : Option (Nat × Int) :=
  xs.foldl (fun a x =>
    match x with
    | .num _ m e _ =>
      if m = 0 then a
      else match a with
        | none => some (m, e)
        | some (m', e') => if xcmp (.num false m' e' false) (.num false m e false) < 0 then some (m, e) else a
    | .nan _ => a
    | .inf _ => a) none

/-- A value times 2^k, exactly. -/
def XVal.scale (k : Int) : XVal → XVal
  | .num n m e st => .num n m (e + k) st
  | .nan s => .nan s
  | .inf n => .inf n

/-- An MX group (R53): the scale, the element encodings, the flags, the rounder after them. -/
def mxEncode (elt : FFmt) (xs : List XVal) (r : Rounder) : Nat × List Nat × FFlags × Rounder :=
  if xs.any fun x => x.isNaN || x.isInf then
    let (vs, _, r) := convList (fun _ _ => (0, 0)) xs r
    (0xFF, vs, flagNV, r)
  else match greatest xs with
    | none =>
      let (vs, _, r) := convList (fun _ x => (signBits elt x.neg, 0)) xs r
      (0x7F, vs, 0, r)
    | some (m, e) =>
      let emax : Int := if elt = .e4m3 then 8 else 2
      let x := max (-127) (min 127 (log2Of m e - emax))
      let (vs, fl, r) := convList (fun mode v => roundF elt mode true false (v.scale (-x))) xs r
      ((x + 127).toNat, vs, fl, r)

/-- A magnitude m × 2^e is below 2^k. -/
def belowPow (m : Nat) (e k : Int) : Bool := decide (m = 0) || decide (log2Of m e < k)

/-- The sub-shift of a quad (R54 step 4): the largest that keeps it below 2^(E − 126 − s), 3 for zeros, 0 when none does. -/
def subShift (ex : Int) (q : List XVal) : Nat :=
  match greatest q with
  | none => 3
  | some (m, e) =>
    if belowPow m e (ex - 129) then 3
    else if belowPow m e (ex - 128) then 2
    else if belowPow m e (ex - 127) then 1
    else 0

/-- One SX element (R54 step 5): clamped to k + 1 bits; a clamp raises NX, a nonzero source that gives 0 raises UF. -/
def sxElement (k : Nat) (unit : Int) (mode : RMode) (x : XVal) : Nat × FFlags :=
  match x with
  | .num n m e st =>
    let (y, inexact) := roundToInt mode n m (e - unit) st
    let lo : Int := -(2 ^ k)
    let hi : Int := 2 ^ k - 1
    let c := max lo (min hi y)
    let nx : FFlags := if inexact || decide (c ≠ y) then flagNX else 0
    let uf : FFlags := if decide (m ≠ 0) && decide (y = 0) then flagUF else 0
    (wrap (k + 1) c, nx ||| uf)
  | .nan _ => (0, 0)
  | .inf _ => (0, 0)

/-- The elements of the quads of an SX block, in order, each quad under its own sub-shift. -/
def sxQuads (k : Nat) (ex : Int) : Nat → List XVal → Rounder → List Nat × List Nat × FFlags × Rounder
  | 0, _, r => ([], [], 0, r)
  | n + 1, xs, r =>
    let q := xs.take 4
    let s := subShift ex q
    let (vs, fl, r) := convList (sxElement k (ex - 127 - s - (k - 1))) q r
    let (ss, ws, fl', r) := sxQuads k ex n (xs.drop 4) r
    (s :: ss, vs ++ ws, fl ||| fl', r)

/-- Numbers of `w` bits packed from bit 0 up (R33). -/
def packBits (w : Nat) : List Nat → Nat
  | [] => 0
  | v :: vs => v % 2 ^ w + 2 ^ w * packBits w vs

/-- The `n` numbers of `w` bits that a packed value holds. -/
def unpackBits (w : Nat) : Nat → Nat → List Nat
  | 0, _ => []
  | n + 1, v => v % 2 ^ w :: unpackBits w n (v / 2 ^ w)

/-- A block of 16 elements into SX with element width k + 1 (R54), as the block's bits (R39). An exponent clamped from above raises OF, and NX
only where an element is inexact: R46's pairing of the two is read as one of a value that overflows (log 78: DEDUCED). -/
def sxEncode (k : Nat) (xs : List XVal) (r : Rounder) : Nat × FFlags × Rounder :=
  if xs.any fun x => x.isNaN || x.isInf then
    let (_, _, r) := convList (fun _ _ => (0, 0)) xs r
    (0xFF, flagNV, r)
  else match greatest xs with
    | none =>
      let (_, _, r) := convList (fun _ _ => (0, 0)) xs r
      (0, 0, r)
    | some (m, e) =>
      let ex0 := log2Of m e + 127
      let ex := max 0 (min 254 ex0)
      let (ss, vs, fl, r) := sxQuads k ex 4 xs r
      let ovf : FFlags := if 254 < ex0 then flagOF else 0
      (ex.toNat + 256 * packBits 2 ss + 65536 * packBits (k + 1) vs, fl ||| ovf, r)

/-- The sixteen values of an SX block (R39). -/
def sxDecode (k : Nat) (block : Nat) : List XVal :=
  let ex := block % 256
  let ss := unpackBits 2 4 (block / 256)
  let qs := unpackBits (k + 1) 16 (block / 65536)
  if ex = 0xFF then List.replicate 16 (.nan false)
  else (qs.zip (ss.flatMap fun s => List.replicate 4 s)).map fun (q, s) =>
    let v := intOf true (k + 1) q
    if v = 0 then .zero false else .num (decide (v < 0)) v.natAbs ((ex : Int) - 127 - s - (k - 1)) false

/-- The values of elements under an E8M0 scale (R35, R38). -/
def mxDecode (elt : FFmt) (scale : Nat) (vs : List Nat) : List XVal :=
  if scale = 0xFF then vs.map fun _ => .nan false
  else vs.map fun v => (decodeF elt false v).scale ((scale : Int) - 127)

/-- Parity of the number of one bits. -/
def parity : Nat → Nat → Bool
  | 0, _ => false
  | n + 1, v => decide (v % 2 = 1) ^^ parity n (v / 2)

/-- The unnormalised Hadamard transform of one run (R55): exact sums, with NV where opposite infinities meet. -/
def hadamard (rdn : Bool) (xs : List XVal) : List XVal × FFlags :=
  let ys := (List.range xs.length).map fun i =>
    xsum rdn (xs.zipIdx.map fun (x, j) => if parity 6 (Nat.land i j) then x.negate else x)
  (ys.map Prod.fst, ys.foldl (fun a y => a ||| y.2) 0)

/-- Runs of `n` in order. -/
def chunks {α : Type} (n : Nat) : Nat → List α → List (List α)
  | 0, _ => []
  | k + 1, xs => xs.take n :: chunks n k (xs.drop n)

end Sys2Proof.Machine
end

