-- ==== Sys2Proof/Config.lean ====
section
/-! DEFINITION. What is fixed for one device, and the free values: constants with no body, so that no proof can rest on what
they are. Each is named in the assumption log. -/

namespace Sys2Proof.Config

/-- A 64-bit value that the spec leaves open, fresh for each count (log 5: DESIGN CHOICE). -/
opaque freeWord : Nat → Word

/-- A key word of a peer device as it stands at a moment (R333): another device decides it (log 5: DESIGN CHOICE). -/
opaque peerWord : Nat → Nat → Word

/-- Whether a key word of a peer device reads as poisoned at a moment (R333): another device decides it (log 5: DESIGN CHOICE). -/
opaque peerPois : Nat → Nat → Bool

/-- The entry address that the hub firmware image names for boot state (R372): the spec gives no number (log 9: DESIGN CHOICE). -/
def bootEntry : Nat := 0xFFC1040000
/-- The parameter block of boot state (R372). -/
def bootParams : Nat := 0xFFC1020000

/-- SHAKE256 with 64 bytes of output (R358, R362): named by the spec and not defined there (log 10: DESIGN CHOICE). -/
opaque shake256 : List Byte → BitVec 512
/-- The Falcon-1024 public key, of 1,793 bytes, of the key pair that a seed gives (R366) (log 10: DESIGN CHOICE). -/
opaque falconPublic : BitVec 512 → BitVec 14344
/-- The signature, of 1,280 bytes, that the secret key of a public key gives of a digest (R358, R368) (log 10: DESIGN CHOICE). -/
opaque falconSign : BitVec 14344 → BitVec 512 → BitVec 10240
/-- Whether a signature verifies under a public key for a digest, where it is not the one above: a key has many (log 10: DESIGN CHOICE). -/
opaque falconAccepts : BitVec 14344 → BitVec 512 → BitVec 10240 → Bool
/-- A signature verifies. -/
def verifies (key : BitVec 14344) (digest : BitVec 512) (sig : BitVec 10240) : Bool :=
  decide (sig = falconSign key digest) || falconAccepts key digest sig
/-- The fuse block as bytes (R368): what it holds beside the fuse maps, the counters and the vendor key's hash, and how it is laid out, the spec
leaves open (log 10: DESIGN CHOICE). -/
opaque fuseBlock : List Byte → List Byte
/-- The check code `SEAL` over the other bytes of a saved block (R320) under the key of a boot (R367) (log 10: DESIGN CHOICE). -/
opaque sealCode : Nat → List Byte → Word
/-- What the board configuration image selects for spoke 0 of a die (R329): CXL or not, from the image's body (log 2: DESIGN CHOICE). -/
opaque boardCxl : List Byte → Nat → Bool
/-- The check code `CHK` of a record, from bits 163:0 (R167): the spec does not give its code (log 71: DESIGN CHOICE). -/
opaque recCheck : BitVec 164 → BitVec 28
/-- Whether the memory-side cache holds an HBM line at a moment (R160, R161): its replacement is not given (log 72: DESIGN CHOICE). -/
opaque cached : Nat → Nat → Bool
/-- The HBM line that an 8-byte unit of a bank group in cache mode holds at a moment, where it holds one (R161, R345): slab, unit, moment (log 72:
DESIGN CHOICE). -/
opaque cachedLine : Nat → Nat → Nat → Option Nat
/-- The row of an HBM line within the device, and the bank of a row (R351, R354): the spec gives no geometry (log 12: DESIGN CHOICE). -/
opaque rowOf : Nat → Nat
opaque bankOf : Nat → Nat
/-- The channel within its home die of an HBM line, cut to 0 to 31 (R346, R350) (log 12: DESIGN CHOICE). -/
opaque channelOf : Nat → Nat
/-- How many lines, less one, the snoop filter of a die holds (R338): the spec gives no number (log 83: DESIGN CHOICE). -/
opaque snoopCap : Nat
/-- A read of an HBM line at a moment opens its row and so counts an activate (R355): which ones do is not given (log 73: DESIGN CHOICE). -/
opaque activates : Nat → Nat → Bool

end Sys2Proof.Config
end

