-- ==== Sys2Proof/Syntax.lean ====
section
/-! DEFINITION. The instruction set and the machine's other steps: one constructor per row of spec/opcode_table.json.
Rows 0 to 233 are the instructions a core slot fetches (spec/04 R99), rows 262 to 277 the sequencer's microinstructions
(spec/12 R260), the others the steps of the hardware, the hub, the host and the root of trust (spec/95). A fetched
instruction's first argument is its guard (R93). An event's arguments name the unit that acts, and the choices that the
spec leaves to time or to the outside. -/

namespace Sys2Proof

/-- Every step of the machine: a fetched instruction, a microinstruction, or an event. -/
inductive Instr where
  /-- R109. -/
  | addReg (gd : Guard) (s : Bool) (d : GIx) (a : GIx) (b : GIx)
  /-- R109. -/
  | addImm (gd : Guard) (s : Bool) (d : GIx) (a : GIx) (imm : BitVec 6)
  /-- R109. -/
  | addLit (gd : Guard) (s : Bool) (d : GIx) (a : GIx) (w : Word)
  /-- R109. -/
  | subReg (gd : Guard) (s : Bool) (d : GIx) (a : GIx) (b : GIx)
  /-- R109. -/
  | subImm (gd : Guard) (s : Bool) (d : GIx) (a : GIx) (imm : BitVec 6)
  /-- R109. -/
  | subLit (gd : Guard) (s : Bool) (d : GIx) (a : GIx) (w : Word)
  /-- R109. -/
  | mulReg (gd : Guard) (s : Bool) (d : GIx) (a : GIx) (b : GIx)
  /-- R109. -/
  | mulImm (gd : Guard) (s : Bool) (d : GIx) (a : GIx) (imm : BitVec 6)
  /-- R109. -/
  | mulLit (gd : Guard) (s : Bool) (d : GIx) (a : GIx) (w : Word)
  /-- R109. -/
  | andReg (gd : Guard) (s : Bool) (d : GIx) (a : GIx) (b : GIx)
  /-- R109. -/
  | andImm (gd : Guard) (s : Bool) (d : GIx) (a : GIx) (imm : BitVec 6)
  /-- R109. -/
  | andLit (gd : Guard) (s : Bool) (d : GIx) (a : GIx) (w : Word)
  /-- R109. -/
  | orReg (gd : Guard) (s : Bool) (d : GIx) (a : GIx) (b : GIx)
  /-- R109. -/
  | orImm (gd : Guard) (s : Bool) (d : GIx) (a : GIx) (imm : BitVec 6)
  /-- R109. -/
  | orLit (gd : Guard) (s : Bool) (d : GIx) (a : GIx) (w : Word)
  /-- R109. -/
  | xorReg (gd : Guard) (s : Bool) (d : GIx) (a : GIx) (b : GIx)
  /-- R109. -/
  | xorImm (gd : Guard) (s : Bool) (d : GIx) (a : GIx) (imm : BitVec 6)
  /-- R109. -/
  | xorLit (gd : Guard) (s : Bool) (d : GIx) (a : GIx) (w : Word)
  /-- R109. -/
  | shlReg (gd : Guard) (s : Bool) (d : GIx) (a : GIx) (b : GIx)
  /-- R109. -/
  | shlImm (gd : Guard) (s : Bool) (d : GIx) (a : GIx) (imm : BitVec 6)
  /-- R109. -/
  | shlLit (gd : Guard) (s : Bool) (d : GIx) (a : GIx) (w : Word)
  /-- R109. -/
  | shrReg (gd : Guard) (s : Bool) (d : GIx) (a : GIx) (b : GIx)
  /-- R109. -/
  | shrImm (gd : Guard) (s : Bool) (d : GIx) (a : GIx) (imm : BitVec 6)
  /-- R109. -/
  | shrLit (gd : Guard) (s : Bool) (d : GIx) (a : GIx) (w : Word)
  /-- R109. -/
  | sraReg (gd : Guard) (s : Bool) (d : GIx) (a : GIx) (b : GIx)
  /-- R109. -/
  | sraImm (gd : Guard) (s : Bool) (d : GIx) (a : GIx) (imm : BitVec 6)
  /-- R109. -/
  | sraLit (gd : Guard) (s : Bool) (d : GIx) (a : GIx) (w : Word)
  /-- R109. -/
  | rolReg (gd : Guard) (s : Bool) (d : GIx) (a : GIx) (b : GIx)
  /-- R109. -/
  | rolImm (gd : Guard) (s : Bool) (d : GIx) (a : GIx) (imm : BitVec 6)
  /-- R109. -/
  | rolLit (gd : Guard) (s : Bool) (d : GIx) (a : GIx) (w : Word)
  /-- R109. -/
  | minReg (gd : Guard) (s : Bool) (d : GIx) (a : GIx) (b : GIx)
  /-- R109. -/
  | minImm (gd : Guard) (s : Bool) (d : GIx) (a : GIx) (imm : BitVec 6)
  /-- R109. -/
  | minLit (gd : Guard) (s : Bool) (d : GIx) (a : GIx) (w : Word)
  /-- R109. -/
  | maxReg (gd : Guard) (s : Bool) (d : GIx) (a : GIx) (b : GIx)
  /-- R109. -/
  | maxImm (gd : Guard) (s : Bool) (d : GIx) (a : GIx) (imm : BitVec 6)
  /-- R109. -/
  | maxLit (gd : Guard) (s : Bool) (d : GIx) (a : GIx) (w : Word)
  /-- R109. -/
  | minnReg (gd : Guard) (s : Bool) (d : GIx) (a : GIx) (b : GIx)
  /-- R109. -/
  | minnLit (gd : Guard) (s : Bool) (d : GIx) (a : GIx) (w : Word)
  /-- R109. -/
  | maxnReg (gd : Guard) (s : Bool) (d : GIx) (a : GIx) (b : GIx)
  /-- R109. -/
  | maxnLit (gd : Guard) (s : Bool) (d : GIx) (a : GIx) (w : Word)
  /-- R109. -/
  | andnReg (gd : Guard) (s : Bool) (d : GIx) (a : GIx) (b : GIx)
  /-- R109. -/
  | andnLit (gd : Guard) (s : Bool) (d : GIx) (a : GIx) (w : Word)
  /-- R109. -/
  | ornReg (gd : Guard) (s : Bool) (d : GIx) (a : GIx) (b : GIx)
  /-- R109. -/
  | ornLit (gd : Guard) (s : Bool) (d : GIx) (a : GIx) (w : Word)
  /-- R110. -/
  | mulh (gd : Guard) (s : Bool) (d : GIx) (a : GIx) (b : OpB)
  /-- R110. -/
  | mulhn (gd : Guard) (s : Bool) (d : GIx) (a : GIx) (b : OpB)
  /-- R110. -/
  | div (gd : Guard) (s : Bool) (d : GIx) (a : GIx) (b : OpB)
  /-- R110. -/
  | divn (gd : Guard) (s : Bool) (d : GIx) (a : GIx) (b : OpB)
  /-- R110. -/
  | rem (gd : Guard) (s : Bool) (d : GIx) (a : GIx) (b : OpB)
  /-- R110. -/
  | remn (gd : Guard) (s : Bool) (d : GIx) (a : GIx) (b : OpB)
  /-- R110. -/
  | mad (gd : Guard) (s : Bool) (d : GIx) (a : GIx) (b : OpB) (c : GIx)
  /-- R111. -/
  | clz (gd : Guard) (s : Bool) (d : GIx) (a : GIx)
  /-- R111. -/
  | ctz (gd : Guard) (s : Bool) (d : GIx) (a : GIx)
  /-- R111. -/
  | popc (gd : Guard) (s : Bool) (d : GIx) (a : GIx)
  /-- R111. -/
  | brev (gd : Guard) (s : Bool) (d : GIx) (a : GIx)
  /-- R111. -/
  | bswap (gd : Guard) (s : Bool) (d : GIx) (a : GIx)
  /-- R111. -/
  | abs (gd : Guard) (s : Bool) (d : GIx) (a : GIx)
  /-- R112. -/
  | bfx (gd : Guard) (s : Bool) (d : GIx) (a : GIx) (pos : BitVec 6) (wm : BitVec 6)
  /-- R112. -/
  | bfxs (gd : Guard) (s : Bool) (d : GIx) (a : GIx) (pos : BitVec 6) (wm : BitVec 6)
  /-- R112. -/
  | bfi (gd : Guard) (s : Bool) (d : GIx) (a : GIx) (pos : BitVec 6) (wm : BitVec 6)
  /-- R112. -/
  | sel (gd : Guard) (s : Bool) (d : GIx) (q : PIx) (a : GIx) (b : OpB)
  /-- R112. -/
  | lea (gd : Guard) (s : Bool) (d : GIx) (a : GIx) (b : OpB) (off : BitVec 32)
  /-- R112. -/
  | leaPcr (gd : Guard) (s : Bool) (d : GIx) (b : OpB) (off : BitVec 32)
  /-- R113. -/
  | cmpSignedReg (gd : Guard) (s : Bool) (cc : BitVec 3) (q : PIx) (a : GIx) (b : GIx)
  /-- R113. -/
  | cmpSignedImm (gd : Guard) (s : Bool) (cc : BitVec 3) (q : PIx) (a : GIx) (imm : BitVec 6)
  /-- R113. -/
  | cmpSignedLit (gd : Guard) (s : Bool) (cc : BitVec 3) (q : PIx) (a : GIx) (w : Word)
  /-- R113. -/
  | cmpNaturalReg (gd : Guard) (s : Bool) (cc : BitVec 3) (q : PIx) (a : GIx) (b : GIx)
  /-- R113. -/
  | cmpNaturalImm (gd : Guard) (s : Bool) (cc : BitVec 3) (q : PIx) (a : GIx) (imm : BitVec 6)
  /-- R113. -/
  | cmpNaturalLit (gd : Guard) (s : Bool) (cc : BitVec 3) (q : PIx) (a : GIx) (w : Word)
  /-- R113. -/
  | pand (gd : Guard) (s : Bool) (d : PIx) (a : PIx) (b : PIx)
  /-- R113. -/
  | por (gd : Guard) (s : Bool) (d : PIx) (a : PIx) (b : PIx)
  /-- R113. -/
  | pxor (gd : Guard) (s : Bool) (d : PIx) (a : PIx) (b : PIx)
  /-- R113. -/
  | pmov (gd : Guard) (s : Bool) (d : PIx) (a : PIx)
  /-- R114. -/
  | bra (gd : Guard) (ob : BitVec 6) (oa : BitVec 6) (od : BitVec 6)
  /-- R114. -/
  | call (gd : Guard) (ob : BitVec 6) (oa : BitVec 6) (od : BitVec 6)
  /-- R114. -/
  | brx (gd : Guard) (a : GIx)
  /-- R114. -/
  | callx (gd : Guard) (a : GIx)
  /-- R114. -/
  | ret (gd : Guard)
  /-- R114. -/
  | btag (gd : Guard) (tag : Byte) (off : BitVec 32)
  /-- R115. -/
  | loopImm (gd : Guard) (n : BitVec 32) (endo : BitVec 16)
  /-- R115. -/
  | loopReg (gd : Guard) (a : GIx) (endo : BitVec 16)
  /-- R117. -/
  | lexit (gd : Guard)
  /-- R118. -/
  | tclr (gd : Guard) (dc : BitVec 2) (d : BitVec 6) (mask : Byte)
  /-- R118. -/
  | tdep (gd : Guard) (dc : BitVec 2) (d : BitVec 6) (ac : BitVec 2) (a : BitVec 6)
  /-- R118. -/
  | twait (gd : Guard) (mask : Byte)
  /-- R119. -/
  | tget (gd : Guard) (d : GIx) (ac : BitVec 2) (a : BitVec 6)
  /-- R121. -/
  | fadd (gd : Guard) (s : Bool) (d : GIx) (a : GIx) (b : GIx)
  /-- R121. -/
  | faddLit (gd : Guard) (s : Bool) (d : GIx) (a : GIx) (w : Word)
  /-- R121. -/
  | faddExt (gd : Guard) (ft : BitVec 2) (rmo : BitVec 3) (d : GIx) (a : GIx) (b : OpB)
  /-- R121. -/
  | fsub (gd : Guard) (s : Bool) (d : GIx) (a : GIx) (b : GIx)
  /-- R121. -/
  | fsubLit (gd : Guard) (s : Bool) (d : GIx) (a : GIx) (w : Word)
  /-- R121. -/
  | fsubExt (gd : Guard) (ft : BitVec 2) (rmo : BitVec 3) (d : GIx) (a : GIx) (b : OpB)
  /-- R121. -/
  | fmul (gd : Guard) (s : Bool) (d : GIx) (a : GIx) (b : GIx)
  /-- R121. -/
  | fmulLit (gd : Guard) (s : Bool) (d : GIx) (a : GIx) (w : Word)
  /-- R121. -/
  | fmulExt (gd : Guard) (ft : BitVec 2) (rmo : BitVec 3) (d : GIx) (a : GIx) (b : OpB)
  /-- R121. -/
  | fdiv (gd : Guard) (s : Bool) (d : GIx) (a : GIx) (b : GIx)
  /-- R121. -/
  | fdivLit (gd : Guard) (s : Bool) (d : GIx) (a : GIx) (w : Word)
  /-- R121. -/
  | fdivExt (gd : Guard) (ft : BitVec 2) (rmo : BitVec 3) (d : GIx) (a : GIx) (b : OpB)
  /-- R121. -/
  | ffma (gd : Guard) (ft : BitVec 2) (rmo : BitVec 3) (d : GIx) (a : GIx) (b : OpB) (c : GIx)
  /-- R121. -/
  | fsqrt (gd : Guard) (ft : BitVec 2) (rmo : BitVec 3) (d : GIx) (a : OpB)
  /-- R122. -/
  | fmin (gd : Guard) (s : Bool) (d : GIx) (a : GIx) (b : GIx)
  /-- R122. -/
  | fminLit (gd : Guard) (s : Bool) (d : GIx) (a : GIx) (w : Word)
  /-- R122. -/
  | fminExt (gd : Guard) (ft : BitVec 2) (rmo : BitVec 3) (d : GIx) (a : GIx) (b : OpB)
  /-- R122. -/
  | fmax (gd : Guard) (ft : BitVec 2) (rmo : BitVec 3) (d : GIx) (a : GIx) (b : OpB)
  /-- R123. -/
  | fcmp (gd : Guard) (s : Bool) (cc : BitVec 3) (q : PIx) (a : GIx) (b : GIx)
  /-- R123. -/
  | fcmpLit (gd : Guard) (s : Bool) (cc : BitVec 3) (q : PIx) (a : GIx) (w : Word)
  /-- R123. -/
  | fcmpExt (gd : Guard) (ft : BitVec 2) (rmo : BitVec 3) (cc : BitVec 3) (q : PIx) (a : GIx) (b : OpB)
  /-- R124. -/
  | fcvt (gd : Guard) (rmo : BitVec 3) (dst : BitVec 5) (src : BitVec 5) (d : GIx) (a : GIx)
  /-- R125. -/
  | fclass (gd : Guard) (ty : BitVec 5) (d : GIx) (a : GIx)
  /-- R126. -/
  | rds (gd : Guard) (d : GIx) (h : BitVec 4) (l : BitVec 6)
  /-- R126. -/
  | wrs (gd : Guard) (h : BitVec 4) (l : BitVec 6) (a : GIx)
  /-- R130. -/
  | vadd (gd : Guard) (d : VIx) (a : VIx) (b : VIx)
  /-- R130. -/
  | vaddExt (gd : Guard) (x : VMask) (rmo : BitVec 3) (d : VIx) (a : VIx) (b : VIx)
  /-- R130. -/
  | vsub (gd : Guard) (d : VIx) (a : VIx) (b : VIx)
  /-- R130. -/
  | vsubExt (gd : Guard) (x : VMask) (rmo : BitVec 3) (d : VIx) (a : VIx) (b : VIx)
  /-- R130. -/
  | vmul (gd : Guard) (d : VIx) (a : VIx) (b : VIx)
  /-- R130. -/
  | vmulExt (gd : Guard) (x : VMask) (rmo : BitVec 3) (d : VIx) (a : VIx) (b : VIx)
  /-- R130. -/
  | vmin (gd : Guard) (d : VIx) (a : VIx) (b : VIx)
  /-- R130. -/
  | vminExt (gd : Guard) (x : VMask) (rmo : BitVec 3) (d : VIx) (a : VIx) (b : VIx)
  /-- R130. -/
  | vmax (gd : Guard) (d : VIx) (a : VIx) (b : VIx)
  /-- R130. -/
  | vmaxExt (gd : Guard) (x : VMask) (rmo : BitVec 3) (d : VIx) (a : VIx) (b : VIx)
  /-- R130. -/
  | vfma (gd : Guard) (x : VMask) (rmo : BitVec 3) (d : VIx) (a : VIx) (b : VIx) (c : VIx)
  /-- R130. -/
  | vabs (gd : Guard) (d : VIx) (a : VIx)
  /-- R130. -/
  | vabsExt (gd : Guard) (x : VMask) (d : VIx) (a : VIx)
  /-- R130. -/
  | vmov (gd : Guard) (d : VIx) (a : VIx)
  /-- R130. -/
  | vmovExt (gd : Guard) (x : VMask) (d : VIx) (a : VIx)
  /-- R131. -/
  | vand (gd : Guard) (d : VIx) (a : VIx) (b : VIx)
  /-- R131. -/
  | vandExt (gd : Guard) (x : VMask) (d : VIx) (a : VIx) (b : VIx)
  /-- R131. -/
  | vor (gd : Guard) (d : VIx) (a : VIx) (b : VIx)
  /-- R131. -/
  | vorExt (gd : Guard) (x : VMask) (d : VIx) (a : VIx) (b : VIx)
  /-- R131. -/
  | vxor (gd : Guard) (d : VIx) (a : VIx) (b : VIx)
  /-- R131. -/
  | vxorExt (gd : Guard) (x : VMask) (d : VIx) (a : VIx) (b : VIx)
  /-- R131. -/
  | vshlReg (gd : Guard) (d : VIx) (a : VIx) (b : VIx)
  /-- R131. -/
  | vshlImm (gd : Guard) (d : VIx) (a : VIx) (imm : BitVec 6)
  /-- R131. -/
  | vshlExt (gd : Guard) (x : VMask) (s : Bool) (d : VIx) (a : VIx) (b : BitVec 6)
  /-- R131. -/
  | vshrReg (gd : Guard) (d : VIx) (a : VIx) (b : VIx)
  /-- R131. -/
  | vshrImm (gd : Guard) (d : VIx) (a : VIx) (imm : BitVec 6)
  /-- R131. -/
  | vshrExt (gd : Guard) (x : VMask) (s : Bool) (d : VIx) (a : VIx) (b : BitVec 6)
  /-- R131. -/
  | vsraReg (gd : Guard) (d : VIx) (a : VIx) (b : VIx)
  /-- R131. -/
  | vsraImm (gd : Guard) (d : VIx) (a : VIx) (imm : BitVec 6)
  /-- R131. -/
  | vsraExt (gd : Guard) (x : VMask) (s : Bool) (d : VIx) (a : VIx) (b : BitVec 6)
  /-- R132. -/
  | vcmp (gd : Guard) (cc : BitVec 3) (q : MIx) (a : VIx) (b : VIx)
  /-- R132. -/
  | vcmpExt (gd : Guard) (x : VMask) (cc : BitVec 3) (q : MIx) (a : VIx) (b : VIx)
  /-- R133. -/
  | vsel (gd : Guard) (x : VMask) (d : VIx) (q : MIx) (a : VIx) (b : VIx)
  /-- R134. -/
  | vbcast (gd : Guard) (d : VIx) (a : GIx)
  /-- R134. -/
  | vbcastExt (gd : Guard) (x : VMask) (d : VIx) (a : GIx)
  /-- R134. -/
  | vins (gd : Guard) (d : VIx) (a : GIx) (lane : BitVec 6)
  /-- R134. -/
  | vinsExt (gd : Guard) (d : VIx) (a : GIx) (lane : BitVec 6)
  /-- R134. -/
  | vext (gd : Guard) (d : GIx) (a : VIx) (lane : BitVec 6)
  /-- R134. -/
  | vextExt (gd : Guard) (d : GIx) (a : VIx) (lane : BitVec 6)
  /-- R134. -/
  | vshuf (gd : Guard) (d : VIx) (a : VIx) (b : VIx)
  /-- R134. -/
  | vshufExt (gd : Guard) (x : VMask) (d : VIx) (a : VIx) (b : VIx)
  /-- R134. -/
  | vslideUp (gd : Guard) (d : VIx) (a : VIx) (n : BitVec 5)
  /-- R134. -/
  | vslideUpExt (gd : Guard) (x : VMask) (d : VIx) (a : VIx) (n : BitVec 5)
  /-- R134. -/
  | vslideDown (gd : Guard) (d : VIx) (a : VIx) (n : BitVec 5)
  /-- R134. -/
  | vslideDownExt (gd : Guard) (x : VMask) (d : VIx) (a : VIx) (n : BitVec 5)
  /-- R135. -/
  | vredadd (gd : Guard) (d : GIx) (a : VIx)
  /-- R135. -/
  | vredaddExt (gd : Guard) (vm : MIx) (rmo : BitVec 3) (d : GIx) (a : VIx)
  /-- R135. -/
  | vredmin (gd : Guard) (d : GIx) (a : VIx)
  /-- R135. -/
  | vredminExt (gd : Guard) (vm : MIx) (rmo : BitVec 3) (d : GIx) (a : VIx)
  /-- R135. -/
  | vredmax (gd : Guard) (d : GIx) (a : VIx)
  /-- R135. -/
  | vredmaxExt (gd : Guard) (vm : MIx) (rmo : BitVec 3) (d : GIx) (a : VIx)
  /-- R136. -/
  | vdot (gd : Guard) (x : VMask) (rmo : BitVec 3) (d : VIx) (a : VIx) (b : VIx)
  /-- R137. -/
  | vsfu (gd : Guard) (x : VMask) (fn : BitVec 4) (d : VIx) (a : VIx)
  /-- R138. -/
  | vcvt (gd : Guard) (x : VMask) (rmo : BitVec 3) (part : BitVec 4) (dst : BitVec 5) (src : BitVec 5) (d : VIx) (a : VIx)
  /-- R141. -/
  | vqnt (gd : Guard) (rmo : BitVec 3) (fmt : BitVec 4) (d : VIx) (a : VIx) (c : GIx)
  /-- R141. -/
  | vdqnt (gd : Guard) (fmt : BitVec 4) (d : VIx) (a : VIx) (c : GIx)
  /-- R142. -/
  | vhad (gd : Guard) (h32 : Bool) (d : VIx) (a : VIx)
  /-- R143. -/
  | vbaddq (gd : Guard) (rmo : BitVec 3) (fmt : BitVec 4) (d : VIx) (a : VIx) (b : VIx) (c : VIx)
  /-- R144. -/
  | mand (gd : Guard) (d : MIx) (a : MIx) (b : MIx)
  /-- R144. -/
  | mor (gd : Guard) (d : MIx) (a : MIx) (b : MIx)
  /-- R144. -/
  | mxor (gd : Guard) (d : MIx) (a : MIx) (b : MIx)
  /-- R144. -/
  | mnot (gd : Guard) (d : MIx) (a : MIx)
  /-- R144. -/
  | mpop (gd : Guard) (d : GIx) (a : MIx)
  /-- R144. -/
  | gtom (gd : Guard) (d : MIx) (a : GIx)
  /-- R144. -/
  | mtog (gd : Guard) (d : MIx) (a : GIx)
  /-- R192. -/
  | ld (gd : Guard) (t : MemT) (d : GIx) (ea : MemA)
  /-- R192. -/
  | ldro (gd : Guard) (t : MemT) (d : GIx) (ea : MemA)
  /-- R192. -/
  | ldx (gd : Guard) (t : MemT) (d : GIx) (ea : MemA)
  /-- R192. -/
  | ldv (gd : Guard) (t : MemT) (d : VIx) (ea : MemA)
  /-- R210. -/
  | ldvGather (gd : Guard) (t : MemT) (d : VIx) (va : VIx) (b : GIx) (disp : BitVec 32)
  /-- R206. -/
  | lds (gd : Guard) (t : MemT) (d : GIx) (ea : MemA)
  /-- R206. -/
  | ldsv (gd : Guard) (d : VIx) (ea : MemA)
  /-- R206. -/
  | sts (gd : Guard) (t : MemT) (d : GIx) (ea : MemA)
  /-- R206. -/
  | stsv (gd : Guard) (d : VIx) (ea : MemA)
  /-- R207. -/
  | ldd (gd : Guard) (t : MemT) (d : GIx) (ea : MemA)
  /-- R207. -/
  | std (gd : Guard) (t : MemT) (d : GIx) (ea : MemA)
  /-- R198. -/
  | upd (gd : Guard) (op : BitVec 4) (t : MemT) (d : GIx) (ea : MemA)
  /-- R197. -/
  | updx (gd : Guard) (op : BitVec 4) (t : MemT) (d : GIx) (ea : MemA)
  /-- R197. -/
  | updv (gd : Guard) (op : BitVec 4) (t : MemT) (d : VIx) (ea : MemA)
  /-- R210. -/
  | updvScatter (gd : Guard) (op : BitVec 4) (t : MemT) (d : VIx) (va : VIx) (b : GIx) (disp : BitVec 32)
  /-- R200. -/
  | atom (gd : Guard) (op : BitVec 4) (t : MemT) (d : GIx) (ea : MemA) (c : GIx)
  /-- R200. -/
  | cas (gd : Guard) (t : MemT) (d : GIx) (a : GIx) (disp : BitVec 32) (b : GIx) (c : GIx)
  /-- R203. -/
  | drain (gd : Guard) (scope : BitVec 3) (a : GIx) (b : GIx)
  /-- R204. -/
  | inval (gd : Guard) (scope : BitVec 3) (a : GIx) (b : GIx)
  /-- R205. -/
  | fence (gd : Guard) (scope : BitVec 3) (eng : Bool)
  /-- R208. -/
  | syncinit (gd : Guard) (a : GIx) (disp : BitVec 32) (b : GIx)
  /-- R208. -/
  | syncadd (gd : Guard) (a : GIx) (disp : BitVec 32) (b : GIx)
  /-- R209. -/
  | syncwait (gd : Guard) (a : GIx) (disp : BitVec 32)
  /-- R209. -/
  | syncget (gd : Guard) (d : GIx) (a : GIx) (disp : BitVec 32)
  /-- R232. -/
  | tdset (gd : Guard) (dd : BitVec 6) (a : GIx) (disp : BitVec 32)
  /-- R233. -/
  | tdget (gd : Guard) (a : GIx) (disp : BitVec 32) (dd : BitVec 6)
  /-- R234. -/
  | ringcfg (gd : Guard) (q : BitVec 3) (a : GIx) (disp : BitVec 32)
  /-- R236. -/
  | ringstat (gd : Guard) (d : GIx) (q : BitVec 3)
  /-- R236. -/
  | ringdrop (gd : Guard) (q : BitVec 3) (count : BitVec 16)
  /-- R238. -/
  | tilecfg (gd : Guard) (a : GIx)
  /-- R238. -/
  | tilerel (gd : Guard)
  /-- R238. -/
  | tzero (gd : Guard) (ta : BitVec 5)
  /-- R240. -/
  | tld (gd : Guard) (ta : BitVec 5) (a : GIx) (disp : BitVec 32)
  /-- R240. -/
  | tsts (gd : Guard) (a : GIx) (disp : BitVec 32) (ta : BitVec 5)
  /-- R240. -/
  | tupd (gd : Guard) (op : BitVec 4) (t : MemT) (ea : MemA) (ta : BitVec 5)
  /-- R241. -/
  | mma (gd : Guard) (ta : BitVec 5) (qa : BitVec 3) (qb : BitVec 3)
  /-- R244. -/
  | tcvt (gd : Guard) (q : BitVec 3) (ta : BitVec 5)
  /-- R250. -/
  | cpy (gd : Guard) (d : GIx) (a : GIx) (disp : BitVec 32)
  /-- R254. -/
  | cpystat (gd : Guard) (d : GIx) (a : GIx)
  /-- R254. -/
  | cpyres (gd : Guard) (a : GIx)
  /-- R255. -/
  | dsmode (gd : Guard) (mode : BitVec 2) (a : GIx)
  /-- R257. -/
  | bsld (gd : Guard) (idx : BitVec 10) (a : GIx) (disp : BitVec 32) (b : GIx)
  /-- R258. -/
  | bsrun (gd : Guard) (a : GIx) (b : GIx)
  /-- R259. -/
  | bsres (gd : Guard)
  /-- R256. -/
  | bsstat (gd : Guard) (d : GIx)
  /-- R263. -/
  | barcfg (gd : Guard) (bb : BitVec 2) (a : GIx)
  /-- R265. -/
  | bararr (gd : Guard) (bb : BitVec 2)
  /-- R265. -/
  | barwait (gd : Guard) (bb : BitVec 2)
  /-- R267. -/
  | send (gd : Guard) (tag : Byte) (nw : BitVec 4) (a : GIx) (disp : BitVec 32)
  /-- R269. -/
  | inpop (gd : Guard) (d : GIx)
  /-- R271. -/
  | gqtake (gd : Guard) (d : GIx)
  /-- R271. -/
  | gqput (gd : Guard) (a : GIx)
  /-- R313. -/
  | trap (gd : Guard) (code : BitVec 16)
  /-- R314. -/
  | tret (gd : Guard)
  /-- R315. -/
  | exit (gd : Guard)
  /-- R313. -/
  | brk (gd : Guard) (code : BitVec 16)
  /-- R316. -/
  | hubcall (gd : Guard) (code : BitVec 16) (d : GIx) (a : GIx)
  /-- R317. -/
  | chkpt (gd : Guard) (a : GIx)
  /-- R310. -/
  | pendingTrapDelivery (c : CoreId) (k : BitVec 4)
  /-- R107. -/
  | longResultWrite (c : CoreId) (k : BitVec 4) (n : Nat)
  /-- R22. -/
  | loadReturn (c : CoreId) (k : BitVec 4) (tag : BitVec 3) (elem : BitVec 3)
  /-- R25. -/
  | perform (c : CoreId) (k : BitVec 4) (tag : BitVec 3)
  /-- R25. -/
  | heldAccessProceed (c : CoreId) (k : BitVec 4)
  /-- R157. -/
  | l1SnapshotDrop (c : CoreId) (line : Nat)
  /-- R231. -/
  | imageReadReturn (c : CoreId) (k : BitVec 4) (n : Nat)
  /-- R240. -/
  | tldTileWrite (c : CoreId) (k : BitVec 4) (n : Nat)
  /-- R178. -/
  | updateInsertResume (c : CoreId) (k : BitVec 4)
  /-- R180. -/
  | atomicStep (c : CoreId) (k : BitVec 4) (tag : BitVec 3)
  /-- R199. -/
  | releaseProceed (c : CoreId) (k : BitVec 4)
  /-- R214. -/
  | releaseComplete (c : CoreId) (k : BitVec 4)
  /-- R205. -/
  | fenceApplyComplete (c : CoreId) (k : BitVec 4)
  /-- R177. -/
  | watermarkPassStart (l : LevelId)
  /-- R177. -/
  | idlePassStart (l : LevelId)
  /-- R177. -/
  | derailleurMove (l : LevelId)
  /-- R195. -/
  | recordAccept (n : Nat)
  /-- R186. -/
  | applyToBase (die : BitVec 3)
  /-- R250. -/
  | copySlotReserve (c : CoreId) (k : BitVec 4)
  /-- R251. -/
  | copyUnitDeliver (c : CoreId) (cmd : BitVec 3)
  /-- R252. -/
  | copyTranslationFault (c : CoreId) (cmd : BitVec 3)
  /-- R252. -/
  | engineFaultTrap (c : CoreId) (k : BitVec 4)
  /-- R241. -/
  | mmaStart (c : CoreId)
  /-- R241. -/
  | mmaRetire (c : CoreId)
  /-- R243. -/
  | governorWindow (die : BitVec 3)
  /-- R244. -/
  | tcvtStart (c : CoreId)
  /-- R244. -/
  | tcvtRetire (c : CoreId)
  /-- R255. -/
  | dsmodeGroupChangeDone (c : CoreId) (grp : BitVec 4)
  /-- R260. -/
  | mzero (u : Micro)
  /-- R260. -/
  | mcopy (u : Micro)
  /-- R260. -/
  | microMnot (u : Micro)
  /-- R260. -/
  | microMand (u : Micro)
  /-- R260. -/
  | microMor (u : Micro)
  /-- R260. -/
  | microMxor (u : Micro)
  /-- R260. -/
  | madd (u : Micro)
  /-- R260. -/
  | msub (u : Micro)
  /-- R260. -/
  | mcmp (u : Micro)
  /-- R260. -/
  | msel (u : Micro)
  /-- R260. -/
  | mshl (u : Micro)
  /-- R260. -/
  | mshr (u : Micro)
  /-- R260. -/
  | mfadd (u : Micro)
  /-- R260. -/
  | mfmul (u : Micro)
  /-- R261. -/
  | mloop (u : Micro)
  /-- R259. -/
  | mend (u : Micro)
  /-- R259. -/
  | sequencerMessageAccept (c : CoreId)
  /-- R259. -/
  | bitSerialStopTrap (c : CoreId) (k : BitVec 4)
  /-- R264. -/
  | barrierDoneSignal (c : CoreId) (bb : BitVec 2) (col : Bool)
  /-- R264. -/
  | barrierRelease (c : CoreId) (bb : BitVec 2)
  /-- R268. -/
  | messageAccept (n : Nat)
  /-- R342. -/
  | collectiveBlock (sp : BitVec 5) (coll : BitVec 16) (idx : BitVec 32) (fin : Bool) (pa : Nat) (data : BlockData)
  /-- R342. -/
  | gatewayQueueAppend (sp : BitVec 5)
  /-- R282. -/
  | kick (sp : BitVec 5) (fid : BitVec 18) (q : Byte) (n : Nat)
  /-- R284. -/
  | launchRecordRead (q : Byte)
  /-- R287. -/
  | bindRecordCommit (c : CoreId) (r : BitVec 512)
  /-- R288. -/
  | bindRecordWithdraw (c : CoreId) (n : Nat)
  /-- R291. -/
  | blockComplete (c : CoreId) (n : Nat)
  /-- R291. -/
  | launchComplete (q : Byte)
  /-- R284. -/
  | refusedLaunchComplete (q : Byte)
  /-- R306. -/
  | microTlbFill (c : CoreId) (n : Nat)
  /-- R307. -/
  | pageWalkStart (die : BitVec 3) (n : Nat)
  /-- R306. -/
  | pageWalkComplete (die : BitVec 3) (n : Nat)
  /-- R312. -/
  | faultRecordWrite (ctx : BitVec 6)
  /-- R316. -/
  | hubcallReply (c : CoreId) (k : BitVec 4) (full : Bool)
  /-- R318. -/
  | saveRequest (c : CoreId) (n : Nat) (pa : Nat)
  /-- R318. -/
  | preemptStop (c : CoreId) (k : BitVec 4)
  /-- R319. -/
  | blockSave (c : CoreId) (n : Nat)
  /-- R331. -/
  | flitReplay (sp : BitVec 5)
  /-- R346: after 64 replays in a row, or a failed retraining. -/
  | spokeFence (sp : Failing)
  /-- R331. -/
  | routeChange (die : BitVec 3)
  /-- R337. -/
  | hostRead (pa : Nat) (n : Nat)
  /-- R337: `data` has none for a byte that is not enabled. -/
  | hostWrite (sp : BitVec 5) (pa : Nat) (data : List (Option Byte)) (pois : Bool)
  /-- R336. -/
  | hostAgentApply (die : BitVec 3)
  /-- R333. -/
  | remoteReadTimeout (c : CoreId) (k : BitVec 4) (tag : BitVec 3)
  /-- R347. -/
  | recordUndeliverable (n : Nat)
  /-- R358. -/
  | claim (rq : Request)
  /-- R368. -/
  | attest (rq : Request)
  /-- R360. -/
  | status (rq : Request)
  /-- R299. -/
  | createContext (rq : Request)
  /-- R301. -/
  | endContext (rq : Request)
  /-- R299. -/
  | setSplit (rq : Request)
  /-- R280. -/
  | createQueue (rq : Request)
  /-- R332. -/
  | setWindow (rq : Request)
  /-- R308. -/
  | invalidateTranslations (rq : Request)
  /-- R312. -/
  | faultAnswer (rq : Request)
  /-- R349: with the lines of the range whose storage fails again. -/
  | repair (rq : RepairOf)
  /-- R370. -/
  | runtimeDisable (rq : Request)
  /-- R295. -/
  | raceRing (rq : Request)
  /-- R364. -/
  | extendMeasurement (rq : Request)
  /-- R365. -/
  | raiseRollbackCounter (rq : Request)
  /-- R344. -/
  | correctedError (e : ErrSite)
  /-- R345. -/
  | uncorrectableError (e : ErrSite)
  /-- R346: after a failed training, or errors in too many rows. -/
  | hbmChannelFence (die : BitVec 3) (ch : Failing)
  /-- R346. -/
  | bankGroupFence (c : CoreId) (grp : BitVec 4)
  /-- R351. -/
  | patrolScrubRead (e : ErrSite) (err : BitVec 2)
  /-- R352. -/
  | scrubWriteback (line : Nat)
  /-- R351. -/
  | hotListExpiry (row : Nat)
  /-- R353. -/
  | retirementScoreDecay (row : Nat)
  /-- R354. -/
  | rowRetire (row : Nat)
  /-- R355. -/
  | powerBudgetUpdate (budgets : List Byte) (actlims : List Nat)
  /-- R355. -/
  | actlimWindow (die : BitVec 3) (stack : Bool)
  /-- R355. -/
  | dieClockStop (die : BitVec 3)
  /-- R355. -/
  | dieClockRestart (die : BitVec 3)
  /-- R165. -/
  | tjSample (die : BitVec 3) (tj : Nat)
  /-- R356. -/
  | computeDieThermal (die : BitVec 3) (tj : Nat)
  /-- R356. -/
  | thermalTrip (die : BitVec 3) (tj : Nat)
  /-- R356. -/
  | coolantLoss (die : BitVec 3)
  /-- R369. -/
  | deviceReset (bundle : BitVec 1)
  /-- R374. -/
  | bootStateEnd (die : BitVec 3)
  /-- R317. -/
  | yieldRequestSet (c : CoreId) (n : Nat)
  /-- R338. -/
  | birspi (die : BitVec 3) (line : Nat) (dirty : Option (List Byte))
  /-- R336. -/
  | globalObservationResponse (die : BitVec 3)
  deriving DecidableEq, Repr

end Sys2Proof
end

