-- ==== Sys2Proof/Machine/State.lean ====
section
/-! DEFINITION. The machine's state as plain data: every piece of state that the spec names, and the few fields the model adds
to say who moves next. Spec/01 R11 and R14 (slots and cores), spec/07 (storage), spec/08 (records and runs), spec/11 and
spec/12 (engines), spec/17 and spec/18 (blocks and contexts), spec/20 to spec/22 (host, errors, root of trust). Numbers in
a docstring are rules of the spec; `log n` is notes/assumptions/n.md. -/

namespace Sys2Proof.Machine

-- sparse tables

/-- A table by number, in rising order of its keys; what it does not list has the default value. -/
abbrev Sparse (α : Type) := List (Nat × α)

/-- The entry at a number. -/
def Sparse.get {α : Type} (d : α) : Sparse α → Nat → α
  | [], _ => d
  | (k, v) :: r, n => if k = n then v else Sparse.get d r n

/-- The table with an entry replaced. -/
def Sparse.set {α : Type} : Sparse α → Nat → α → Sparse α
  | [], n, v => [(n, v)]
  | (k, w) :: r, n, v =>
    if n < k then (n, v) :: (k, w) :: r
    else if n = k then (n, v) :: r
    else (k, w) :: Sparse.set r n v

-- registers

/-- A register with its taint mask, poison bit and pending mark (R9, R11). -/
structure Reg (w : Nat) where
  val   : BitVec w := 0
  taint : Byte := 0
  pois  : Bool := false
  pend  : Bool := false
  deriving DecidableEq, Repr

/-- The name of a register of a slot (R11). -/
inductive RegId where
  | g (i : GIx)
  | p (i : PIx)
  | v (i : VIx)
  | m (i : MIx)
  deriving DecidableEq, Repr

-- the cassette

/-- A record (R167). `CHK` is a function of the rest and is not kept (`Rec.bits`). `skind` is the source kind of R187. The model's own:
`srcs`, the slots whose accesses are in the record (R214), `movers`, the slots whose releases moved it or whose engine commands
wrote it (R205), `eng`, for an engine's write (R219), and `unit`, the number of the engine write that it is a part of, 0 for none (R338). -/
structure Rec where
  key   : Nat
  value : Word
  op    : BitVec 4
  w     : BitVec 2
  k     : Bool
  mask  : Byte
  ctx   : BitVec 6
  pois  : Bool
  sdie  : BitVec 3
  score : BitVec 10
  skind : BitVec 2 := 0
  srcs  : List Nat := []
  movers : List Nat := []
  eng   : Bool := false
  unit  : Nat := 0
  deriving DecidableEq, Repr

/-- A pass of a derailleur (R177): the merge cursor (R174), its name, what it selects (none: every record; else a context's records
in a range, given as pieces of physical addresses or as every key), and for a drain the slots whose releases ask for it. -/
structure Pass where
  cursor : Nat := 0
  id     : Nat := 0
  sel    : Option (BitVec 6 × Option (List (Nat × Nat))) := none
  who    : List Nat := []
  deriving DecidableEq, Repr

/-- A run and its derailleur (R152, R170, R177, R294): the records by rising key, the pass that runs, the cycle of the last insertion, how
many records the pass has moved in the cycle of its last move, the cycle after the last load lookup against a pass, and the cycle
of the pass's last yield with how many it has yielded in a row. -/
structure Run where
  recs    : List Rec := []
  pass    : Option Pass := none
  lastIns : Nat := 0
  lastMove : Nat := 0
  moves   : Nat := 0
  looked  : Nat := 0
  yieldAt : Nat := 0
  yields  : Nat := 0
  deriving DecidableEq, Repr

/-- An L1 snapshot of a 64-byte line (R157): its bytes, the poison of its eight key words, the moment at which the read that
filled it left the core (R213), and the first cycle in which it serves (R160). -/
structure Snapshot where
  line  : Nat
  bytes : List Byte
  pois  : Byte
  left  : Nat
  ready : Nat := 0
  deriving DecidableEq, Repr

-- accesses in flight

/-- What a tagged load does (R21). -/
inductive LoadKind where
  | ld | ldro | gather
  /-- ATOM with its record (R200). -/
  | atom (r : Rec)
  /-- CAS with the compare value and the record of the new value (R200). -/
  | cas (cmp : Word) (r : Rec)
  deriving DecidableEq, Repr

/-- One contiguous piece that a load reads: where, how many bytes, and once it has been read its value and poison. -/
structure Elem where
  pa   : Nat
  size : Nat
  got  : Option (Nat × Bool) := none
  /-- No answer came, so the read moves no horizon (R213, R333). -/
  lost : Bool := false
  deriving DecidableEq, Repr

/-- Where a load stands (R22, R23, R28). -/
inductive LoadSt where
  | held | going | returned
  deriving DecidableEq, Repr

/-- A load with a tag (R21 to R25). `taint` is what R24 joins to the tag; `left` the moment at which its read left the core;
`issued` the cycle of its issue or release; `fresh` bars snapshots (R194); `horizon` is the slot's read horizon at issue;
`valid` lists the lines served from snapshots whose validation it awaits; `moves` counts the levels at which an atomic's evictions
moved a record (R201). -/
structure Load where
  id     : Nat := 0
  kind   : LoadKind
  dst    : List RegId
  elems  : List Elem
  scope  : BitVec 3
  w      : BitVec 2
  sext   : Bool
  taint  : Byte
  issued : Nat
  left   : Nat
  fresh  : Bool := false
  horizon : Nat := 0
  valid  : List Nat := []
  moves  : Nat := 0
  st     : LoadSt := .going
  deriving DecidableEq, Repr

/-- How far a `Drain` has come (R177): not begun; at a level, with the pass it has started there; past every level, so that step 3 of
R199 waits for what it moved. -/
inductive DrainSt where
  | todo
  | level (n : Nat) (pass : Option Nat)
  | sent
  deriving DecidableEq, Repr

/-- What an entry of the hold queue does when it is released (R28, R198, R199). -/
inductive HeldOp where
  | load (tag : BitVec 3)
  /-- An update: the records still to insert, its release scope (0 for a plain update), and how far its drain has come. -/
  | upd (recs : List Rec) (scope : BitVec 3) (ph : DrainSt)
  deriving DecidableEq, Repr

/-- An entry of the hold queue (R28). `keys` are the key words it covers, `loads` the tags of the loads issued before it that
have not performed (R199 step 1), `after` those of them that it overlaps, or that an entry it overlaps waits for (R212, log 31: DEDUCED),
`since` the moment at which its insertion found cog 0 full (R178, R294). -/
structure Held where
  id    : Nat := 0
  mask  : Byte
  loads : Byte
  after : Byte := 0
  keys  : List Nat
  since : Option Nat := none
  op    : HeldOp
  deriving DecidableEq, Repr

/-- A long result on its way (R9, R107); `ldd` marks an LDD's (R207, R255). -/
structure LongRes where
  dst   : RegId
  val   : VWord
  taint : Byte
  pois  : Bool
  due   : Nat
  ldd   : Bool := false
  deriving DecidableEq, Repr

/-- An entry of the loop stack (R11, R115). -/
structure LoopEntry where
  start : BitVec 48
  fin   : BitVec 48
  count : BitVec 32
  deriving DecidableEq, Repr

/-- A word of a message with its poison (R12). -/
structure MsgWord where
  val  : Word
  pois : Bool := false
  deriving DecidableEq, Repr

/-- A message in an inbox: its source, its tag, how many words it came with, and the words not yet read (R269). -/
structure InMsg where
  kind  : BitVec 2
  sdie  : BitVec 3
  score : BitVec 10
  sslot : BitVec 4
  tag   : Byte
  nw    : BitVec 5
  words : List MsgWord
  deriving DecidableEq, Repr

/-- What an image read is for (R231, R257). -/
inductive ImageFor where
  | tdset (d : BitVec 6)
  | ringcfg (q : BitVec 3)
  | cpy (d : GIx)
  | bsld (ix : BitVec 10)
  deriving DecidableEq, Repr

/-- A key word that is read at its own instant (R231, R240, R257). -/
structure WordRead where
  pa  : Nat
  got : Option (Word × Bool) := none
  deriving DecidableEq, Repr

/-- An instruction that has issued and holds its slot (R380). Each is 12 bytes long; `mask` is the taint it waits for (R231, R240). -/
inductive Busy where
  /-- DRAIN, or step 1 of FENCE (R203, R205): the range as page pieces (none for every key), for a FENCE its `ENG`, how far the drain
  has come, and a number for the moment of its issue (R308). -/
  | drain (scope : BitVec 3) (range : Option (List (Nat × Nat))) (fence : Option Bool) (ph : DrainSt) (id : Nat)
  /-- Step 3 of a FENCE with `ENG` = 1 (R205). -/
  | fenceApply
  | tld (tile : Nat) (mask : Byte) (issued : Nat) (words : List WordRead) (left : Nat)
  | image (what : ImageFor) (mask : Byte) (issued : Nat) (words : List WordRead) (left : Nat)
  /-- BSLD with its words read, waiting for the sequencer (R257). -/
  | bsld (ix : BitVec 10) (vals : List MsgWord)
  /-- CPY at step 6 of R250: the destination, the image and the progress record's address, in order of `since`. -/
  | cpy (d : GIx) (image : BitVec 512) (prec : Nat) (since : Nat)
  /-- DSMODE with the groups it has selected (R255). -/
  | dsmode (grps : BitVec 12)
  deriving DecidableEq, Repr

/-- The state of a slot (R10). -/
inductive SlotSt where
  | unbound | running | suspended | exited
  deriving DecidableEq, Repr

/-- A slot (R11). -/
structure Slot where
  st      : SlotSt := .unbound
  pc      : BitVec 48 := 0
  g       : Vector (Reg 64) 64 := Vector.replicate 64 {}
  p       : Vector (Reg 1) 8 := Vector.replicate 8 {}
  v       : Vector (Reg 256) 32 := Vector.replicate 32 {}
  m       : Vector (Reg 32) 8 := Vector.replicate 8 {}
  ctaint  : Byte := 0
  /-- The load tags (R11): the busy ones with their loads. -/
  tags    : Sparse Load := []
  hold    : List Held := []
  /-- The loop stack, innermost entry first. -/
  loops   : List LoopEntry := []
  inbox   : List InMsg := []
  fpcr    : Word := 0
  vfmt    : Word := 0
  mdest   : Word := 0
  trapvec : Word := 0
  trappc  : Word := 0
  trapcause : Word := 0
  trapaddr : Word := 0
  /-- The TRAPADDR value kept aside for a pending trap (R310, R321). -/
  trapkeep : Word := 0
  thr     : BitVec 4 := 0
  gen     : BitVec 16 := 0
  /-- Captured barrier phases by block-relative register (R265). -/
  caps    : Sparse (BitVec 16) := []
  /-- The read horizon (R213). -/
  horizon : Nat := 0
  longs   : List LongRes := []
  busy    : Option Busy := none
  /-- Pending HUBCALLs, oldest first: the destination, the service, the argument, the guard's taint (R316). -/
  hubcalls : List (GIx × BitVec 16 × Word × Byte) := []
  /-- Engine faults and bit-serial stops that wait for the slot's next turn: cause and TRAPADDR (R252, R259). -/
  epend   : List (Byte × Word) := []
  /-- A failed fault answer's trap: cause, TRAPADDR and TRAPPC (R115, R312). -/
  ftrap   : Option (Byte × Word × BitVec 48) := none
  /-- The pages of a range that its DRAIN or INVAL has translated so far, at the pc of that instruction: first virtual page, pages, and
  the first physical page, none for pages that are not present (R191, R202). -/
  ranged  : List (Nat × Nat × Option Nat) := []
  rangedAt : BitVec 48 := 0
  /-- The moment since which an MMA or TCVT waits for a queue entry (R294). -/
  mxSince : Option Nat := none
  /-- The block of the slot, by its number in the core's table (R286). -/
  blk     : Option Nat := none
  /-- The slot must stop at its next turn (R318 step 1), of those from a cycle on (R326), and has stopped. -/
  stop    : Bool := false
  stopAt  : Nat := 0
  stopped : Bool := false
  /-- Names under which the slot's releases moved records before its block was saved (R205 step 3). -/
  moved   : List Nat := []
  deriving DecidableEq, Repr

-- per-core state

/-- An aligned 8-byte unit of SRAM with its poison bit (R148). -/
structure Unit8 where
  val  : Word := 0
  pois : Bool := false
  deriving DecidableEq, Repr

/-- An accumulator tile (R237): element (i, j) in bits 32(16i + j) and up, a poison bit for each row, the busy count. -/
structure Tile where
  val  : BitVec 8192 := 0
  pois : BitVec 16 := 0
  busy : Nat := 0
  deriving DecidableEq, Repr

/-- A ring (R234 to R236); `desc` is the physical descriptor. -/
structure Ring where
  cfg   : Bool := false
  slots : BitVec 18 := 0
  depth : BitVec 7 := 0
  desc  : BitVec 6 := 0
  head  : BitVec 12 := 0
  tail  : BitVec 12 := 0
  resv  : BitVec 12 := 0
  cons  : BitVec 12 := 0
  iseg  : BitVec 5 := 0
  deriving DecidableEq, Repr

/-- A tensor descriptor (R228). -/
structure Desc where
  image : BitVec 256 := 0
  valid : Bool := false
  deriving DecidableEq, Repr

/-- A barrier register and the signals of its position (R263, R264). -/
structure Barrier where
  ctx   : BitVec 6 := 0
  x0    : BitVec 5 := 0
  y0    : BitVec 5 := 0
  x1    : BitVec 5 := 0
  y1    : BitVec 5 := 0
  narr  : BitVec 4 := 0
  count : BitVec 5 := 0
  phase : BitVec 16 := 0
  /-- The position east of it, and the position below it, have signalled in this phase. -/
  east  : Bool := false
  below : Bool := false
  /-- This position has sent its row-done and its column-done signal in this phase. -/
  rowOut : Bool := false
  colOut : Bool := false
  /-- The release has reached the position's router and has still to be passed on and taken. -/
  rel   : Bool := false
  deriving DecidableEq, Repr

/-- The state of a copy command (R250 to R254, R318). -/
inductive CmdSt where
  | running
  | faulted (cause : Byte) (va : Word)
  | paused
  deriving DecidableEq, Repr

/-- A piece of at most 64 bytes of a copy command's unit, still to be written (R250, R294): bytes of the scratchpad or of the slab from a place up,
bits of rows of consecutive lanes with the elements whose bits they are, or key words of one line of global memory. -/
inductive Piece where
  | bytes (deep : Bool) (place : Nat) (bs : List (Byte × Bool))
  | rows (first lane row : Nat) (bits : List Nat) (vs : List (Nat × Bool))
  | words (ws : List (Nat × Byte × Word × Bool))
  deriving DecidableEq, Repr

/-- A copy command (R247 to R254). `blk`, `slot` and `ctx` are the issuer's, `base` its first reserved ring slot count, `done`
the units delivered, `gsr` the engine generator, `out` the records of the unit in hand that are not yet applied, `sent` that the unit
in hand is being written, `unit` the moment at which that began, `pieces` those of its pieces that are not yet written, `upto` the cycle from
which the write into SRAM is over, `closing` that the progress record has been sent; `left` is the moment of issue, `reading` the cycle in which the
reads of the unit in hand began, where one of them may get no answer (R347). -/
structure Cmd where
  blk    : Nat
  slot   : BitVec 4
  ctx    : BitVec 6
  image  : BitVec 512
  prec   : Nat
  gen    : BitVec 16
  fpcr   : Word
  seed   : BitVec 32
  gsr    : BitVec 32
  sdesc  : BitVec 256
  ddesc  : BitVec 256
  base   : BitVec 12
  done   : Nat := 0
  out    : List Nat := []
  sent   : Bool := false
  unit   : Nat := 0
  pieces : List Piece := []
  upto   : Nat := 0
  left   : Nat := 0
  closing : Bool := false
  st     : CmdSt := .running
  issued : Nat := 0
  reading : Option Nat := none
  deriving DecidableEq, Repr

/-- An operation of the matrix engine (R241, R244). `da`, `db` are the captured descriptors, `ca`, `cb` the claimed counts; for a
TCVT `qa` is the destination ring with `ca` its slot count and `seg` its segment. -/
structure MxOp where
  tcvt  : Bool
  blk   : Nat
  ctx   : BitVec 6
  tile  : Nat
  qa    : Nat
  qb    : Nat
  ca    : BitVec 12
  cb    : BitVec 12
  da    : BitVec 256
  db    : BitVec 256
  seg   : BitVec 5 := 0
  fpcr  : Word
  gsr   : BitVec 32 := 0
  issued : Nat
  started : Option Nat := none
  deriving DecidableEq, Repr

/-- A message on its way (R267, R268). `boot` marks a message of boot state, which carries no context (R372); `arrived` is the moment
since which it waits at its destination for room (R294). -/
structure Msg where
  src   : CoreId
  sslot : BitVec 4
  score : BitVec 10
  ctx   : BitVec 6
  boot  : Bool
  ddie  : BitVec 3
  dcore : BitVec 10
  dslot : BitVec 4
  gen   : BitVec 16
  tag   : Byte
  words : List MsgWord
  sent  : Nat
  arrived : Option Nat := none
  deriving DecidableEq, Repr

/-- A block bound to a core: a slot-table entry (R286 to R288, R317, R318). `boot` is the block of boot state (R372). -/
structure Block where
  rec0    : BitVec 512
  boot    : Bool := false
  /-- The record is held for a whole launch that has not started (R288). -/
  held    : Bool := false
  cwm     : BitVec 7 := 48
  nalloc  : Nat := 0
  chkv    : Word := 0
  yieldReq : Bool := false
  /-- The save request with its address (R318). -/
  saveReq : Option Nat := none
  /-- The block is being closed without a save: the cause (R311). -/
  closing : Option Byte := none
  /-- How far the drain of step 6 of the stop, or of the completion, has come. -/
  ph      : DrainSt := .todo
  /-- Unstarted matrix operations that step 4 of the stop has taken from the queue. -/
  undone  : List MxOp := []
  deriving DecidableEq, Repr

/-- A micro-TLB or cluster-TLB entry (R306): context, first virtual page, pages, physical page, permissions `X`, `W`, `R`. -/
structure TlbEntry where
  ctx   : BitVec 6
  vpn   : Nat
  pages : Nat
  ppn   : Nat
  x     : Bool
  w     : Bool
  r     : Bool
  deriving DecidableEq, Repr

/-- A miss that waits for its translation (R306, R307): who waits, slot k as k with the pc of its instruction, or command slot n of the
copy engine as 16 + n; and the fault its walk ended in. -/
structure Miss where
  core  : CoreId
  who   : Nat := 0
  pc    : BitVec 48 := 0
  ctx   : BitVec 6
  vpn   : Nat
  since : Nat
  fault : Option Byte := none
  deriving DecidableEq, Repr

/-- A core (R14). -/
structure Core where
  slots   : Vector Slot 16 := Vector.replicate 16 {}
  /-- The slot table (R286): blocks by number. -/
  table   : Sparse Block := []
  scratch : Sparse Unit8 := []
  tiles   : Sparse Tile := []
  rings   : Sparse Ring := []
  descs   : Sparse Desc := []
  bars    : Sparse Barrier := []
  cmds    : Sparse Cmd := []
  /-- Round-robin: the command slot that delivered last (R294), and the first cycle in which the engine may write SRAM (R250). -/
  lastCmd : Nat := 7
  cpyFree : Nat := 0
  l1      : List Snapshot := []
  cog0    : Run := {}
  utlb    : List TlbEntry := []
  mx      : List MxOp := []
  mxFree  : Nat := 0
  budget  : Byte := 0
  /-- A new `BUDGET` that takes effect at the next window (R355). -/
  budgetNext : Option Byte := none
  used    : Byte := 0
  stalls  : BitVec 32 := 0
  deadletter : Word := 0
  outq    : List Msg := []
  /-- Units of 64 bytes that a TSTS or the copy engine has still to write: the cycle, whether in the slab or in the
  scratchpad, the place, the bytes with their poison (R147, R240, R250). -/
  stores  : List (Nat × Bool × Nat × List (Byte × Bool)) := []
  lnum    : BitVec 10 := 0
  fenced  : Bool := false
  /-- The first cycle in which the core has not yet given its turn (the model's own). -/
  turned  : Nat := 0
  deriving DecidableEq, Repr

/-- The sequencer's run state (R256). -/
inductive SeqSt where
  | idle | running | stopped
  deriving DecidableEq, Repr

/-- A two-word message that a sequencer offers (R259): the owner's slot, its GEN and context, the words; `arrived` is the moment since
which it waits at the inbox for room (R294). -/
structure SeqMsg where
  slot : BitVec 4
  gen  : BitVec 16
  ctx  : BitVec 6
  w0   : MsgWord
  w1   : MsgWord
  arrived : Option Nat := none
  deriving DecidableEq, Repr

/-- A slab's sequencer (R256); `ppois` is the poison of its parameter; `msgs` are the messages it offers, oldest first (R259); `due`
the cycle from which its next microinstruction may run, `wr` the units that the one before it writes until then, `src` the rows that it has
read, as starts and widths (R260, R262; log 88: DESIGN CHOICE), and `last` that it is the one at 1,023, so that the run stops then. -/
structure Sequencer where
  store  : Sparse Word := []
  storePois : List Nat := []
  st     : SeqSt := .idle
  owner  : BitVec 4 := 0
  pc     : BitVec 10 := 0
  ofs    : Byte := 0
  lact   : Bool := false
  lidx   : BitVec 10 := 0
  lc     : Byte := 0
  param  : Word := 0
  ppois  : Bool := false
  scause : BitVec 4 := 0
  ctx    : BitVec 6 := 0
  msgs   : List SeqMsg := []
  due    : Nat := 0
  wr     : Sparse Unit8 := []
  src    : List (Nat × Nat) := []
  last   : Bool := false
  deriving DecidableEq, Repr

/-- A slab (R161, R162): bank groups that are not in cache mode with their mode, their 8-byte units by group × 8,192 + offset / 8,
the groups that change under a DSMODE with the mode they change to, fenced groups, and the uncorrectable units of late by group and
cycle (R346). -/
structure Slab where
  modes    : Sparse (BitVec 2) := []
  units    : Sparse Unit8 := []
  changing : Sparse (BitVec 2) := []
  fenced   : List Nat := []
  badUnits : List (Nat × Nat) := []
  seq      : Sequencer := {}
  deriving DecidableEq, Repr

/-- A cluster (R152, R306). -/
structure Cluster where
  cog1   : Run := {}
  tlb    : List TlbEntry := []
  fenced : Bool := false
  deriving DecidableEq, Repr

/-- A record that has been accepted at its home die and not yet applied (R195). -/
structure Accepted where
  id : Nat
  r  : Rec
  deriving DecidableEq, Repr

/-- A record on the way to its home (R378), from a die or through a spoke of it, since a cycle of that die; `arrived` when it waits at its home for
a grant (R294). `src` is its source in R294's round: the number of a die, 8 more than that of a spoke, or 40 for the host. `after` lists the
records that must have been accepted before it. -/
structure Transit where
  id  : Nat
  die : BitVec 3
  r   : Rec
  since : Nat := 0
  arrived : Bool := false
  src : Nat := die.toNat
  after : List Nat := []
  deriving DecidableEq, Repr

/-- A page walk (R307). -/
structure Walk where
  ctx   : BitVec 6
  vpn   : Nat
  since : Nat
  deriving DecidableEq, Repr

-- logs, faults, queues

/-- A race trace ring (R295): `cons` is `CONSR` as last read. -/
structure Race where
  ctx  : BitVec 6
  base : Nat
  len  : Nat
  prod : Nat := 0
  drop : Nat := 0
  cons : Nat := 0
  deriving DecidableEq, Repr

/-- A log ring of a die (R350): entries written and dropped. -/
structure Log where
  prod : Nat := 0
  drop : Nat := 0
  deriving DecidableEq, Repr

/-- A fault of a context in replayable mode, or a breakpoint (R312, R313): its record's fields; whether the record is written;
the saved block and rank that now hold the slot, and the answer kept for it. `seq` is `FSEQ`; `tpc` the TRAPPC of its trap (R115). -/
structure FaultRec where
  seq    : Nat
  kind   : BitVec 4
  cause  : Byte
  va     : Word
  pc     : Word
  core   : CoreId
  slot   : BitVec 4
  score  : BitVec 10
  cmd    : BitVec 3
  gen    : BitVec 16
  clock  : Nat
  tpc    : BitVec 48 := 0
  written : Bool := false
  saved  : Option (Nat × Nat) := none
  answer : Option Bool := none
  deriving DecidableEq, Repr

/-- A launch that the monitor has read (R283 to R285, R291): its number, its record, the cause of its refusal or of its end, whether
a whole launch has started, how many blocks have completed, the names of its blocks' slots whose records it waits for, and once its
status word is on its way the records of that (R291). -/
structure Launch where
  n       : Nat
  rec0    : BitVec 512
  refused : Option Byte := none
  ended   : Option Byte := none
  started : Bool := false
  blocks  : Nat := 0
  names   : List Nat := []
  csw     : Option (List Nat) := none
  deriving DecidableEq, Repr

/-- A queue (R280, R281): `target` is the producer count up to which the monitor reads. -/
structure Queue where
  ctx    : BitVec 6
  pri    : BitVec 2
  qbase  : Nat
  qlen   : Nat
  ksrc   : BitVec 18
  target : Nat := 0
  taken  : Nat := 0
  fin    : Nat := 0
  launches : List Launch := []
  deriving DecidableEq, Repr

/-- A saved block (R319 to R322): where it is written, and beside the bytes in memory what they say. `pend` lists the fault answers
that wait for it. -/
structure Saved where
  pa     : Nat
  size   : Nat
  blk    : Block
  slots  : List Slot
  tiles  : List Tile
  rings  : List Ring
  descs  : List Desc
  bars   : List Barrier
  cmds   : Sparse Cmd
  mx     : List MxOp
  seq    : Option Sequencer
  scratch : Sparse Unit8
  hold   : Bool
  modes  : List (BitVec 2)
  deep   : Sparse Unit8
  deriving DecidableEq, Repr

-- per-die state

/-- A die (R2). `fuse` is its fuse map (R370; log 3: DESIGN CHOICE); `accLast` the source whose record was accepted last and `accAt` the cycle after
that (R294); `actlim`, none before the first
division of the budget, and `actNext` are by stack (R355), `snoop` a list of lines (R338); `hostq` and `hostGo` are the host agent's records, accepted and written
back (R336). -/
structure Die where
  fuse    : BitVec 13328 := BitVec.ofNat 13328 (2 ^ 13316 - 1)
  clock   : Nat := 0
  cog2    : Run := {}
  acceptq : List Accepted := []
  accLast : Nat := 0
  accAt   : Nat := 0
  misses  : List Miss := []
  walks   : List Walk := []
  tj      : Byte := 0
  therm   : Bool := false
  /-- The hub's share of the power budget (R355). -/
  share   : Byte := 0
  /-- The compute die is over 105 degrees: its `BUDGET` is halved (R356). -/
  hotDie  : Bool := false
  held    : Bool := false
  stopped : Bool := false
  boot    : Bool := false
  events  : Log := {}
  merges  : Log := {}
  race    : Option Race := none
  /-- Races still to be written to the ring, oldest first: the two records, the level, the cycle (R182). -/
  raced   : List (Rec × Rec × Nat × Nat) := []
  actlim  : Vector (Option Nat) 2 := Vector.replicate 2 none
  actNext : Vector (Option Nat) 2 := Vector.replicate 2 none
  actUsed : Vector Nat 2 := Vector.replicate 2 0
  /-- Windows of the governor and of ACTLIM by stack that have begun (R243, R355). -/
  govWin  : Nat := 0
  actWin  : Vector Nat 2 := Vector.replicate 2 0
  badChannels : List Nat := []
  /-- The HBM rows with an uncorrectable error of late: channel, row, cycle (R346). -/
  badRows : List (Nat × Nat × Nat) := []
  snoop   : List Nat := []
  /-- Lines whose BISnpInv is out, its BIRspI not yet in (R338). -/
  snooped : List Nat := []
  /-- Engine writes of which a record has been applied and another has not (R338). -/
  begun   : List Nat := []
  hostq   : List Accepted := []
  hostGo  : List Accepted := []
  /-- Kick or bind record pending while the clocks are stopped (R355). -/
  wake    : Bool := false
  /-- The spokes of the die that its routes to peers choose from (R331), and a change of them that waits for the old route. -/
  routes  : BitVec 4 := 0
  routing : Option (BitVec 4) := none
  deriving DecidableEq, Repr

/-- A collective block that waits in its spoke (R342): the records still to be applied. -/
structure Coll where
  coll : BitVec 16
  idx  : BitVec 32
  fin  : Bool
  ids  : List Nat
  deriving DecidableEq, Repr

/-- A spoke (R329, R341, R346, R270, R359): personality, fence, replays in a row, gateway cores, the gateway queue by entry and the cycle of
its append, the cycle in which entries were last taken and how many (R8), waiting blocks, and the mailbox buffers of BAR0. -/
structure Spoke where
  cxl    : Bool := false
  fenced : Bool := false
  replays : Nat := 0
  gates  : List CoreId := []
  gq     : List (Word × Nat) := []
  gqTook : Nat × Nat := (0, 0)
  colls  : List Coll := []
  reqBuf : List Byte := []
  replyBuf : List Byte := []
  deriving DecidableEq, Repr

/-- A context (R298): its table entry, its flags (R44) and those of them that were raised in this cycle (R45), its fault queue (R312). -/
structure Ctx where
  ent     : BitVec 256 := 0
  mxflags : Word := 0
  mxnew   : Word := 0
  fseq    : Nat := 0
  fprod   : Nat := 0
  faults  : List FaultRec := []
  deriving DecidableEq, Repr

-- the root-of-trust core

/-- A request that is being served and not yet answered (R359): the held accesses and copy-engine records it waits for, or for a repair the lines
whose storage fails again (R349). -/
structure Serving where
  rq   : Request
  wait : List Nat := []
  deriving DecidableEq, Repr

/-- A reply (R359): where it goes, and its bytes. -/
structure Reply where
  cxl   : Bool
  sp    : BitVec 5
  fid   : BitVec 18
  bytes : List Byte
  deriving DecidableEq, Repr

/-- The root-of-trust core (R357 to R370): claim, owner key with its hash, sequence number, measurement registers, anti-rollback counters,
the fused hash of the vendor key, the unique device secret with whether it can still be read, the identity public key (R366), the boot
flash with its images by 3 × bundle + type − 1 and the runtime disable list, the list as applied at this boot, what the checks of the
images found for the board management controller (bundle, type, check; R363), the dies whose failure in boot state it has reported over
MIPI I3C, oldest first (R372), whether the spokes have trained at this boot (R369 step 6), the window table, the number of the boot (which stands
for the `SEAL` key), the request that is served and the last reply (log 11: DESIGN CHOICE). -/
structure Root where
  claimed : Bool := false
  owner   : BitVec 512 := 0
  ownerKey : BitVec 14344 := 0
  seq     : Word := 0
  meas    : Vector (BitVec 512) 8 := Vector.replicate 8 0
  counters : Vector Nat 3 := Vector.replicate 3 0
  vkh     : BitVec 512 := 0
  uds     : BitVec 256 := 0
  udsOpen : Bool := true
  identity : BitVec 14344 := 0
  bundle  : BitVec 1 := 0
  recovery : Bool := false
  fails   : List (Nat × Nat × Nat) := []
  reports : List Nat := []
  trained : Bool := false
  ready   : Bool := false
  ndone   : BitVec 32 := 0
  flash   : Vector (List Byte) 6 := Vector.replicate 6 []
  disable : List Word := []
  applied : List Word := []
  windows : Sparse Word := []
  boots   : Nat := 0
  serving : Option Serving := none
  reply   : Option Reply := none
  deriving DecidableEq, Repr

-- the machine

/-- What the model does next (the model's own): a slot's turn, a sequencer's next microinstruction, a step of the table that is
no instruction, or one core cycle; and what the spec describes and the table has no row for. -/
inductive Action where
  | turn (c : CoreId) (k : BitVec 4)
  | seq (c : CoreId)
  | event (i : Instr)
  /-- The root-of-trust core goes on with the request it serves (R359). -/
  | serve
  /-- A peer applies the oldest record that it has accepted (R221, R333). -/
  | peerApply
  /-- A peer's record for this device is accepted, as a spoke's (R186, R333, R371). -/
  | peerRecord (sp : BitVec 5) (r : Rec)
  /-- The host stores a byte into its own memory (R332, R339). -/
  | hostStore (pa : Nat) (b : Byte)
  /-- A CXL host writes bytes into the request buffer of a spoke's BAR0, or reads the mailbox there (R359). -/
  | barWrite (sp : BitVec 5) (off : Nat) (data : List Byte)
  | barRead (sp : BitVec 5) (off n : Nat)
  /-- The oldest race of a die that waits is written to the race trace ring (R182, R295). -/
  | race (d : BitVec 3)
  | tick
  deriving DecidableEq, Repr

/-- Why a run stops. -/
inductive Fault where
  /-- Raised by a host read, a host write or a repair of an address that no memory of the device, peer window or host window
  holds (R154, R332, R337). Safe: the hardware's answer to such an access is not given, and the model gives none. -/
  | addressOutsideSpace
  deriving DecidableEq, Repr

/-- Why the model gives a step no meaning. -/
inductive Refusal where
  /-- Raised by the arm of an instruction that has no meaning yet, by its name. Safe: nothing is claimed of it. -/
  | notModelled (mnemonic : String)
  deriving DecidableEq, Repr

/-- The machine. `cores`, `slabs` and `clusters` are by the number of the position or of the cluster; one that is not listed is
as at reset. -/
structure State where
  /-- Mesh width and height of a die's core positions (R372). -/
  meshW    : Nat := 32
  meshH    : Nat := 32
  cores    : Sparse Core := []
  slabs    : Sparse Slab := []
  clusters : Sparse Cluster := []
  dies     : Vector Die 8 := Vector.replicate 8 {}
  ctxs     : Vector Ctx 64 := Vector.replicate 64 {}
  spokes   : Vector Spoke 32 := Vector.replicate 32 {}
  queues   : Sparse Queue := []
  saves    : List Saved := []
  root     : Root := {}
  /-- The host's notification queue (R316). -/
  notes    : List Word := []
  /-- The gateway cores that the hubs have reported, by spoke, die, position (R341). -/
  gateReport : List (Nat × List CoreId) := []
  /-- What the last host read returned, and whether it was poisoned (R337). -/
  readOut  : List Byte := []
  readPois : Bool := false
  /-- HBM rows (R351 to R354): those on the hot list with the cycle of their last error, retirement scores, the day of their last loss,
the line of a row's last error, rows for which no spare was left, spares used by bank, write-sequence counters by line, and scrub
  reads that wait to write back with the counter they took. -/
  hot      : Sparse Nat := []
  scores   : Sparse Nat := []
  decays   : Sparse Nat := []
  rowPages : Sparse Nat := []
  noSpare  : List Nat := []
  spares   : Sparse Nat := []
  wseq     : Sparse Nat := []
  scrubs   : List (Nat × Nat) := []
  /-- The base image (R152) and host memory (R332), bytes by physical address, rising, no entry equal to 0 (log 4: DESIGN CHOICE). -/
  mem      : List Host.Cell := []
  /-- Poisoned lines and poisoned keys (R186), rising. -/
  poisLines : List Nat := []
  poisKeys : List Nat := []
  /-- Records on their way to a home die (R378), oldest first, and those that a peer has accepted and not yet applied (R333). -/
  transit  : List Transit := []
  peerq    : List Accepted := []
  /-- Messages on their way (R268), oldest first. -/
  msgs     : List Msg := []
  /-- The core and slot whose turn it is, or the core whose slab's sequencer steps (the model's own). -/
  cur      : CoreId × BitVec 4 := (⟨0, 0, 0⟩, 0)
  /-- The steps chosen next (the model's own, log 6: DESIGN CHOICE). -/
  agenda   : List Action := []
  /-- The next number for a record, a block or a moment (the model's own). -/
  seqno    : Nat := 1
  /-- The count of free values drawn (the model's own, log 5: DESIGN CHOICE). -/
  fresh    : Nat := 0
  deriving DecidableEq, Repr

/-- The machine right after reset (log 1: DESIGN CHOICE names what the spec leaves open). -/
def State.reset : State := {}

end Sys2Proof.Machine
end

