-- ==== Sys2Proof/Machine/Ops.lean ====
section
/-! DEFINITION. The named operations over the state: cores, slots and registers; memory bytes; the issue of an instruction with the
checks of spec/04 R95 in their order; taking a trap (spec/18 R310) and returning from one (R314). -/

namespace Sys2Proof.Machine

abbrev Out := Host.Outcome State Fault Refusal

-- where things stand

def State.core (s : State) (c : CoreId) : Core := Sparse.get {} s.cores c.key
def State.setCore (s : State) (c : CoreId) (x : Core) : State := { s with cores := Sparse.set s.cores c.key x }
def State.slot (s : State) (c : CoreId) (k : BitVec 4) : Slot := (s.core c).slots[k.toNat]
def Core.setSlot (x : Core) (k : BitVec 4) (y : Slot) : Core := { x with slots := x.slots.set k.toNat y }
def State.setSlot (s : State) (c : CoreId) (k : BitVec 4) (y : Slot) : State := s.setCore c ((s.core c).setSlot k y)
def State.die (s : State) (d : BitVec 3) : Die := s.dies[d.toNat]
def State.setDie (s : State) (d : BitVec 3) (x : Die) : State := { s with dies := s.dies.set d.toNat x }
def State.ctx (s : State) (n : BitVec 6) : Ctx := s.ctxs[n.toNat]
def State.setCtx (s : State) (n : BitVec 6) (x : Ctx) : State := { s with ctxs := s.ctxs.set n.toNat x }
def State.slab (s : State) (c : CoreId) : Slab := Sparse.get {} s.slabs c.key
def State.setSlab (s : State) (c : CoreId) (x : Slab) : State := { s with slabs := Sparse.set s.slabs c.key x }
/-- The number of a cluster of the device. -/
def clusterKey (d : BitVec 3) (cl : Nat) : Nat := 64 * d.toNat + cl
def State.cluster (s : State) (n : Nat) : Cluster := Sparse.get {} s.clusters n
def State.setCluster (s : State) (n : Nat) (x : Cluster) : State := { s with clusters := Sparse.set s.clusters n x }
/-- The cluster of a core (R19). -/
def CoreId.clusterKey (c : CoreId) : Nat := Machine.clusterKey c.die c.cluster

/-- The core whose turn it is, and its slot. -/
def State.cc (s : State) : CoreId := s.cur.1
def State.cs (s : State) : Slot := s.slot s.cur.1 s.cur.2
def State.setCs (s : State) (x : Slot) : State := s.setSlot s.cur.1 s.cur.2 x
/-- The engines of a core work (R346, R355). -/
def State.coreRuns (s : State) (c : CoreId) : Bool :=
  let d := s.die c.die
  !d.held && !d.stopped && !(s.core c).fenced
/-- The CLOCK of the core's die (R18). -/
def State.clock (s : State) (c : CoreId) : Nat := (s.die c.die).clock
/-- The end of the present cycle, at which the events of the cycle take place (log 81: DEDUCED). -/
def State.instant (s : State) (c : CoreId) : Nat := s.clock c + 1
/-- The entry at a number, if it is listed. -/
def Sparse.find {α : Type} : Sparse α → Nat → Option α
  | [], _ => none
  | (k, v) :: r, n => if k = n then some v else Sparse.find r n
/-- The table without an entry. -/
def Sparse.del {α : Type} (t : Sparse α) (n : Nat) : Sparse α := t.filter fun e => decide (e.1 ≠ n)
/-- The block of a slot (R286). -/
def State.blockOf (s : State) (c : CoreId) (x : Slot) : Option Block :=
  match x.blk with
  | none => none
  | some n => Sparse.find (s.core c).table n
/-- The table number of the current slot's block. -/
def State.curBlk (s : State) : Nat := s.cs.blk.getD 0
/-- The current slot's block; an empty record where it has none. -/
def State.block (s : State) : Block := (s.blockOf s.cc s.cs).getD { rec0 := 0 }
def State.setBlock (s : State) (c : CoreId) (n : Nat) (b : Block) : State :=
  s.setCore c { s.core c with table := Sparse.set (s.core c).table n b }
/-- A fresh number. -/
def State.tick1 (s : State) : State := { s with seqno := s.seqno + 1 }
/-- A number that names a slot of the device. -/
def slotId (c : CoreId) (k : BitVec 4) : Nat := 16 * c.key + k.toNat

-- the bind record (R286)

def Block.entry (b : Block) : BitVec 48 := b.rec0.extractLsb' 0 48
def Block.args (b : Block) : BitVec 48 := b.rec0.extractLsb' 64 48
def Block.launch (b : Block) : BitVec 32 := b.rec0.extractLsb' 128 32
def Block.ctx (b : Block) : BitVec 6 := b.rec0.extractLsb' 160 6
def Block.queue (b : Block) : BitVec 8 := b.rec0.extractLsb' 168 8
def Block.smask (b : Block) : BitVec 16 := b.rec0.extractLsb' 176 16
def Block.blkIx (b : Block) : BitVec 4 := b.rec0.extractLsb' 192 4
def Block.nblkM1 (b : Block) : BitVec 4 := b.rec0.extractLsb' 196 4
def Block.grp (b : Block) : BitVec 9 := b.rec0.extractLsb' 200 9
def Block.ngrpM1 (b : Block) : BitVec 9 := b.rec0.extractLsb' 209 9
def Block.stg (b : Block) : BitVec 4 := b.rec0.extractLsb' 218 4
def Block.nstgM1 (b : Block) : BitVec 4 := b.rec0.extractLsb' 222 4
def Block.whole (b : Block) : Bool := b.rec0.getLsbD 226
def Block.seq (b : Block) : BitVec 24 := b.rec0.extractLsb' 232 24
def Block.scrbase (b : Block) : Nat := (b.rec0.extractLsb' 256 18).toNat
def Block.scrsize (b : Block) : Nat := (b.rec0.extractLsb' 276 18).toNat
def Block.tile0 (b : Block) : Nat := (b.rec0.extractLsb' 296 5).toNat
def Block.ntile (b : Block) : Nat := (b.rec0.extractLsb' 301 6).toNat
def Block.ring0 (b : Block) : Nat := (b.rec0.extractLsb' 307 3).toNat
def Block.nring (b : Block) : Nat := (b.rec0.extractLsb' 310 4).toNat
def Block.bar0 (b : Block) : Nat := (b.rec0.extractLsb' 314 2).toNat
def Block.nbar (b : Block) : Nat := (b.rec0.extractLsb' 316 3).toNat
def Block.desc0 (b : Block) : Nat := (b.rec0.extractLsb' 320 6).toNat
def Block.ndesc (b : Block) : Nat := (b.rec0.extractLsb' 326 7).toNat
def Block.dwbase (b : Block) : Nat := (b.rec0.extractLsb' 336 20).toNat
def Block.dwsize (b : Block) : Nat := (b.rec0.extractLsb' 356 20).toNat
def Block.save (b : Block) : Nat := (b.rec0.extractLsb' 384 48).toNat
/-- The number of set bits. -/
def popNat : Nat → Nat → Nat
  | 0, _ => 0
  | n + 1, v => v % 2 + popNat n (v / 2)
/-- Threads of a block (R287 code 3). -/
def Block.nthr (b : Block) : Nat := popNat 16 b.smask.toNat

-- registers (R11, R12)

/-- A register's mark: taint, poison, pending. -/
structure Mark where
  taint : Byte
  pois  : Bool
  pend  : Bool
  deriving DecidableEq, Repr

def Reg.mark {w : Nat} (r : Reg w) : Mark := ⟨r.taint, r.pois, r.pend⟩
def Mark.clean : Mark := ⟨0, false, false⟩

/-- The head word of the inbox (R12). -/
def Slot.headWord (x : Slot) : Option MsgWord :=
  match x.inbox with
  | [] => none
  | m :: _ => m.words.head?

/-- The g registers that hold no value, taint or poison of their own: g0, and those that stand for messages (R12; log 7: DESIGN CHOICE). -/
def markless (i : GIx) : Bool := decide (i = 0 ∨ i = 60 ∨ i = 61 ∨ i = 62)

/-- Taint, poison and pending mark of a register. g0, p0 and m0 are clean, and so are g61 and g62; a word read from g60 has its own poison and no
taint (R12). The destination of a long instruction or of a load is pending also where it is g0 or one of these three, whose writes R12 only discards
(R9, R107; log 68: DEDUCED); p0 and m0 are the destination of none. -/
def Slot.mark (x : Slot) : RegId → Mark
  | .g i =>
    if i = 60 then ⟨0, (match x.headWord with | some w => w.pois | none => false), (x.g[i.toNat]).pend⟩
    else if markless i then ⟨0, false, (x.g[i.toNat]).pend⟩
    else (x.g[i.toNat]).mark
  | .p i => if i = 0 then .clean else (x.p[i.toNat]).mark
  | .v i => (x.v[i.toNat]).mark
  | .m i => if i = 0 then .clean else (x.m[i.toNat]).mark

/-- g registers as an instruction reads them (R11, R12): g0 is 0, g60 the head inbox word, g62 the head message's tag. -/
def Slot.readG (x : Slot) (i : GIx) : Word :=
  if i = 0 then 0
  else if i = 60 then (match x.headWord with | some w => w.val | none => 0)
  else if i = 62 then (match x.inbox with | [] => 0 | m :: _ => m.tag.setWidth 64)
  else (x.g[i.toNat]).val
def Slot.readP (x : Slot) (i : PIx) : Bool := if i = 0 then true else (x.p[i.toNat]).val.getLsbD 0
def Slot.readV (x : Slot) (i : VIx) : VWord := (x.v[i.toNat]).val
def Slot.readM (x : Slot) (i : MIx) : BitVec 32 := if i = 0 then BitVec.allOnes 32 else (x.m[i.toNat]).val

/-- A g register of the slot whose turn it is; g61 has no stated value when read: a free value (log 7: DESIGN CHOICE). -/
def State.g (s : State) (i : GIx) : Word := if i = 61 then Config.freeWord s.fresh else s.cs.readG i

/-- Writes of registers; the hard-wired ones discard them (R12), and so do g60 and g62 (log 7: DESIGN CHOICE). -/
def Slot.writeG (x : Slot) (i : GIx) (r : Reg 64) : Slot :=
  if markless i then { x with g := x.g.set i.toNat { x.g[i.toNat] with pend := r.pend } }
  else { x with g := x.g.set i.toNat r }
def Slot.writeP (x : Slot) (i : PIx) (r : Reg 1) : Slot := if i = 0 then x else { x with p := x.p.set i.toNat r }
def Slot.writeV (x : Slot) (i : VIx) (r : Reg 256) : Slot := { x with v := x.v.set i.toNat r }
def Slot.writeM (x : Slot) (i : MIx) (r : Reg 32) : Slot := if i = 0 then x else { x with m := x.m.set i.toNat r }

/-- A register's mark changed, its value kept. p0 and m0 keep theirs, and of g0 and the message registers only the pending mark changes (R12; log 68:
DEDUCED). -/
def Slot.mapMark (x : Slot) (f : Mark → Mark) : RegId → Slot
  | .g i =>
    if markless i then { x with g := x.g.set i.toNat { x.g[i.toNat] with pend := (f (x.mark (.g i))).pend } }
    else
      let r := x.g[i.toNat]
      let m := f r.mark
      { x with g := x.g.set i.toNat ⟨r.val, m.taint, m.pois, m.pend⟩ }
  | .p i =>
    if i = 0 then x
    else
      let r := x.p[i.toNat]
      let m := f r.mark
      { x with p := x.p.set i.toNat ⟨r.val, m.taint, m.pois, m.pend⟩ }
  | .v i =>
    let r := x.v[i.toNat]
    let m := f r.mark
    { x with v := x.v.set i.toNat ⟨r.val, m.taint, m.pois, m.pend⟩ }
  | .m i =>
    if i = 0 then x
    else
      let r := x.m[i.toNat]
      let m := f r.mark
      { x with m := x.m.set i.toNat ⟨r.val, m.taint, m.pois, m.pend⟩ }

/-- A register's taint replaced. -/
def Slot.setTaint (x : Slot) (t : Byte) (r : RegId) : Slot := x.mapMark (fun m => { m with taint := t }) r
/-- A register's pending mark replaced (R9). -/
def Slot.setPend (x : Slot) (b : Bool) (r : RegId) : Slot := x.mapMark (fun m => { m with pend := b }) r

/-- The union of the taint of some registers (R26). -/
def Slot.taints (x : Slot) (rs : List RegId) : Byte := rs.foldl (fun a r => a ||| (x.mark r).taint) 0
/-- Some register is poisoned (R29). -/
def Slot.anyPois (x : Slot) (rs : List RegId) : Bool := rs.any fun r => (x.mark r).pois
/-- Some register is pending (R8). -/
def Slot.anyPend (x : Slot) (rs : List RegId) : Bool := rs.any fun r => (x.mark r).pend

-- messages out (R266, R267)

/-- The runtime disable list, as applied at this boot, names the core at a position (R360, R370). -/
def offCore (l : List Word) (d : BitVec 3) (pos : Nat) : Bool :=
  l.any fun w => decide (w.extractLsb' 0 3 = d) && !w.getLsbD 8 && decide ((w.extractLsb' 16 10).toNat = pos)
/-- It names a bank group of the slab at a position. -/
def offGroup (l : List Word) (d : BitVec 3) (pos grp : Nat) : Bool :=
  l.any fun w => decide (w.extractLsb' 0 3 = d) && w.getLsbD 8 && decide ((w.extractLsb' 16 10).toNat = pos)
    && decide ((w.extractLsb' 32 4).toNat = grp)
/-- The core at a position of the mesh is enabled (R370): its `CEN` bit is set, and the list of this boot does not name it. -/
def State.enabled (s : State) (d : BitVec 3) (pos : Nat) : Bool :=
  decide (pos % 32 < s.meshW ∧ pos / 32 < s.meshH ∧ pos < 1024) && (s.die d).fuse.getLsbD pos && !offCore s.root.applied d pos
/-- It is enabled and not fenced. -/
def State.usable (s : State) (d : BitVec 3) (pos : Nat) : Bool :=
  s.enabled d pos && !(Sparse.get ({} : Core) s.cores (1024 * d.toNat + pos)).fenced
/-- The number of enabled core positions of a die (R266): the positions of the part, less those that are off. -/
def State.enabledCount (s : State) (d : BitVec 3) : Nat :=
  (List.range (32 * s.meshH)).foldl (fun n p => if s.enabled d p then n + 1 else n) 0

/-- The destination of MDEST is bad (R266): `CORE` is not below the enabled-core count of the die; in boot state not below W·H
(R372). -/
def State.badDest (s : State) : Bool :=
  let n := (s.cs.mdest.extractLsb' 20 10).toNat
  if s.block.boot then decide (s.meshW * s.meshH ≤ n)
  else decide (s.enabledCount (s.cs.mdest.extractLsb' 30 3) ≤ n)

/-- A core's logical number; in boot state its position number (R19, R372). -/
def State.lnumOf (s : State) (c : CoreId) : BitVec 10 :=
  if (s.core c).table.any fun e => e.2.boot then BitVec.ofNat 10 (s.meshW * c.y.toNat + c.x.toNat) else (s.core c).lnum

/-- Sends one message of the current slot (R267). -/
def State.send (s : State) (tag : Byte) (words : List MsgWord) : State :=
  let md := s.cs.mdest
  let m : Msg :=
    { src := s.cc, sslot := s.cur.2, score := s.lnumOf s.cc, ctx := s.block.ctx, boot := s.block.boot,
      ddie := md.extractLsb' 30 3, dcore := md.extractLsb' 20 10, dslot := md.extractLsb' 16 4, gen := md.extractLsb' 0 16,
      tag := tag, words := words, sent := s.seqno }
  s.tick1.setCore s.cc { s.core s.cc with outq := (s.core s.cc).outq ++ [m] }

/-- The core's outbound queue has room (R267). -/
def State.outRoom (s : State) : Bool := decide ((s.core s.cc).outq.length < 8)

/-- The current slot's g register written; g61 sends the word, as MDEST stands at the write (R12; log 69: DEDUCED). -/
def State.putG (s : State) (i : GIx) (v : Word) (t : Byte) (po : Bool) : State :=
  let u := s.setCs (s.cs.writeG i ⟨v, t, po, false⟩)
  if i = 61 then u.send 0 [⟨v, po⟩] else u
def State.putP (s : State) (i : PIx) (b : Bool) (t : Byte) (po : Bool) : State :=
  s.setCs (s.cs.writeP i ⟨BitVec.ofBool b, t, po, false⟩)
def State.putV (s : State) (i : VIx) (v : VWord) (t : Byte) (po : Bool) : State := s.setCs (s.cs.writeV i ⟨v, t, po, false⟩)
def State.putM (s : State) (i : MIx) (v : BitVec 32) (t : Byte) (po : Bool) : State := s.setCs (s.cs.writeM i ⟨v, t, po, false⟩)

/-- Takes one word off the inbox: the head message goes with its last word (R12, R269). -/
def Slot.dequeue (x : Slot) : Slot :=
  match x.inbox with
  | [] => x
  | m :: ms =>
    match m.words with
    | [] => { x with inbox := ms }
    | [_] => { x with inbox := ms }
    | _ :: ws => { x with inbox := { m with words := ws } :: ms }

-- memory bytes (R4, R152; log 4: DESIGN CHOICE)

/-- The byte at a physical address; a byte that is not listed reads as 0. -/
def Memory.read : List Host.Cell → Nat → Byte
  | [], _ => 0
  | (a, b) :: r, n => if a = n then b else Memory.read r n

/-- A cell in its place among rising addresses. -/
def Memory.insert (n : Nat) (v : Byte) : List Host.Cell → List Host.Cell
  | [] => [(n, v)]
  | (a, b) :: r => if n < a then (n, v) :: (a, b) :: r else (a, b) :: Memory.insert n v r

/-- The memory with a byte written: no entry when the byte is 0. -/
def Memory.write (m : List Host.Cell) (n : Nat) (v : Byte) : List Host.Cell :=
  let m' := m.filter fun e => decide (e.1 ≠ n)
  if v = 0 then m' else Memory.insert n v m'

/-- The canonical form: rising addresses, no entry that reads as an unlisted one. -/
def Memory.wf : List Host.Cell → Bool
  | [] => true
  | [(_, b)] => decide (b ≠ 0)
  | (a, b) :: (a', b') :: r => decide (b ≠ 0) && decide (a < a') && Memory.wf ((a', b') :: r)

/-- `n` bytes from an address up, little-endian (R4). -/
def State.readMem (s : State) (a : Nat) : Nat → Nat
  | 0 => 0
  | n + 1 => (Memory.read s.mem a).toNat + 256 * State.readMem s (a + 1) n

/-- `n` bytes written from an address up, little-endian (R4). -/
def writeBytes (m : List Host.Cell) (a v : Nat) : Nat → List Host.Cell
  | 0 => m
  | n + 1 => writeBytes (Memory.write m a (BitVec.ofNat 8 v)) (a + 1) (v / 256) n

/-- A write of memory; the write-sequence counter of the line goes up (R352). Used within one line. -/
def State.writeMem (s : State) (a v n : Nat) : State :=
  { s with mem := writeBytes s.mem a v n, wseq := Sparse.set s.wseq (a / 64) (Sparse.get 0 s.wseq (a / 64) + 1) }


/-- Bits 51:40 of an address (R332): 0 is local HBM. -/
def place (pa : Nat) : Nat := pa / 2 ^ 40 % 4096
/-- The address lies in a peer window (R332). -/
def isPeer (pa : Nat) : Bool := decide (place pa ≠ 0) && decide (place pa ≠ 0xFFF)
/-- The address lies in host memory (R332). -/
def isHost (pa : Nat) : Bool := decide (place pa = 0xFFF)
/-- The home die of a local address (R154). -/
def homeDie (pa : Nat) : BitVec 3 := BitVec.ofNat 3 (pa / 4096)
/-- The base word of a key (R152); a peer's is another device's matter (R333). -/
def State.baseWord (s : State) (key : Nat) : Word :=
  if isPeer (8 * key) then Config.peerWord s.seqno key else BitVec.ofNat 64 (s.readMem (8 * key) 8)

/-- `n` bytes of the base image from an address up, little-endian: a peer's come from its key words (R152, R333). -/
def State.readBase (s : State) (a n : Nat) : Nat :=
  if isPeer a then
    (List.range n).foldr (fun i v => ((s.baseWord ((a + i) / 8)).extractLsb' (8 * ((a + i) % 8)) 8).toNat + 256 * v) 0
  else s.readMem a n

-- records from outside a run, and the logs (R219, R350)

/-- A SET record of whole or part of a key word (R168). -/
def setRec (key : Nat) (v : Word) (mask : Byte) (ctx : BitVec 6) (die : BitVec 3) (score : BitVec 10) (skind : BitVec 2)
    (pois : Bool) (srcs : List Nat) (eng : Bool) : Rec :=
  { key := key, value := v, op := 0, w := 0, k := false, mask := mask, ctx := ctx, pois := pois, sdie := die, score := score,
    skind := skind, srcs := srcs, eng := eng }

/-- A record accepted at a die (R195). -/
def State.accept (s : State) (d : BitVec 3) (r : Rec) : State :=
  s.tick1.setDie d { s.die d with acceptq := (s.die d).acceptq ++ [⟨s.seqno, r⟩] }

/-- A list of key words accepted one after another, from an address up, as an engine's write of a die (R219). -/
def State.acceptWords (s : State) (d : BitVec 3) (pa : Nat) : List Word → State
  | [] => s
  | w :: ws => State.acceptWords (s.accept d (setRec (pa / 8) w 0xFF 0 d 0 0 false [] true)) d (pa + 8) ws

/-- Page j of a die in the hub-reserved range (R371). -/
def hubPage (d : BitVec 3) (j : Nat) : Nat := 0xFFC0000000 + 0x10000 * j + 0x1000 * d.toNat
/-- The hub-reserved range (R371). -/
def hubReserved (pa : Nat) : Bool := decide (0xFFC0000000 ≤ pa) && decide (pa < 0x10000000000)
/-- The page number j of an address of the range, over all dies. -/
def hubPageOf (pa : Nat) : Nat := (pa - 0xFFC0000000) / 0x10000

/-- Entry k of a log whose first entry page is `base` (R371). -/
def logEntry (d : BitVec 3) (base k : Nat) : Nat :=
  hubPage d (base + k % 16384 / 128) + 32 * (k % 128)

/-- An entry and the header's `PROD` accepted at the log's home; a full ring counts it in `DROP` (R350). -/
def State.logWrite (s : State) (d : BitVec 3) (l : Log) (page : Nat) (ws : List Word) : Log × State :=
  let h := hubPage d page
  let cons := s.readMem (h + 16) 8
  if l.prod - cons ≥ 16384 then
    let l := { l with drop := min (l.drop + 1) (2 ^ 64 - 1) }
    (l, s.acceptWords d (h + 8) [BitVec.ofNat 64 l.drop])
  else
    let s := s.acceptWords d (logEntry d (page + 1) l.prod) ws
    let l := { l with prod := l.prod + 1 }
    (l, s.acceptWords d h [BitVec.ofNat 64 l.prod])

/-- An entry of a die's event log (R350). -/
def State.logEvent (s : State) (d : BitVec 3) (cls : Nat) (ctx : Option (BitVec 6)) (unit sub count addr : Nat) : State :=
  let cv : Nat := match ctx with | none => 0 | some _ => 1
  let cn : Nat := match ctx with | none => 0 | some c => c.toNat
  let w1 := BitVec.ofNat 64 (256 * (sub % 256) + 65536 * (unit % 1024) + 2 ^ 26 * cn + 2 ^ 32 * cv + 2 ^ 40 * cls)
  let w2 := BitVec.ofNat 64 (count % 2 ^ 32 + 2 ^ 32 * ((s.die d).clock % 2 ^ 32))
  let (l, s) := s.logWrite d (s.die d).events 0 [1, w1, w2, BitVec.ofNat 64 addr]
  s.setDie d { s.die d with events := l }

-- contexts and queues (R280, R298)

def Ctx.state (c : Ctx) : BitVec 2 := c.ent.extractLsb' 4 2
def Ctx.rply (c : Ctx) : Bool := c.ent.getLsbD 9
def Ctx.dbg (c : Ctx) : Bool := c.ent.getLsbD 10
def Ctx.split (c : Ctx) : BitVec 12 := c.ent.extractLsb' 32 12
def Ctx.dies (c : Ctx) : BitVec 8 := c.ent.extractLsb' 64 8
def Ctx.ptroot (c : Ctx) : Nat := 4096 * (c.ent.extractLsb' 76 40).toNat
def Ctx.fqsize (c : Ctx) : Nat := 16 <<< (c.ent.extractLsb' 204 4).toNat
def Ctx.fqbase (c : Ctx) : Nat := (c.ent.extractLsb' 208 48).toNat
/-- First group and count of the holding (R163). -/
def Ctx.first (c : Ctx) : Nat := (c.split.extractLsb' 0 4).toNat
def Ctx.count (c : Ctx) : Nat := (c.split.extractLsb' 8 4).toNat

-- ending launches, holding a die (R311, R346)

/-- The slots of a block are to stop at their next turns (R318 step 1). -/
def Core.stopBlock (x : Core) (n : Nat) : Core :=
  { x with slots := x.slots.map fun y => if y.blk = some n then { y with stop := true } else y }

/-- The block is one of launch `n` of queue `q` (R286). -/
def Block.ofLaunch (b : Block) (q : BitVec 8) (n : BitVec 24) : Bool := !b.boot && decide (b.queue = q) && decide (b.seq = n)

/-- Marks a core's blocks of a launch to be stopped and closed (R311). -/
def Core.closeLaunch (x : Core) (q : BitVec 8) (n : BitVec 24) (cause : Byte) : Core :=
  let hit (b : Block) : Bool := b.ofLaunch q n && decide (b.closing = none)
  let mine (y : Slot) : Bool := match y.blk with
    | none => false
    | some m => (Sparse.find x.table m).any hit
  { x with
    table := x.table.map fun e => if hit e.2 then (e.1, { e.2 with closing := some cause }) else e
    slots := x.slots.map fun y => if mine y then { y with stop := true } else y }

/-- `EndLaunch(cause)` (R311): every block of the launch stops and is closed without a save, saved blocks of it are dropped,
and the launch completes with `STATE` 2 and the cause. -/
def State.endLaunch (s : State) (q : BitVec 8) (n : BitVec 24) (cause : Byte) : State :=
  { s with
    cores := s.cores.map fun e => (e.1, e.2.closeLaunch q n cause)
    saves := s.saves.filter fun v => !v.blk.ofLaunch q n
    queues := s.queues.map fun e =>
      if e.1 = q.toNat then
        (e.1, { e.2 with launches := e.2.launches.map fun l =>
          if l.n % 2 ^ 24 = n.toNat ∧ l.ended = none then { l with ended := some cause } else l })
      else e }

/-- Every launch with a block on one of some cores that meets a test ends (R345, R346). -/
def State.endLaunchesOn (s : State) (onCore : Nat → Bool) (ofBlock : Block → Bool) (cause : Byte) : State :=
  s.cores.foldl (fun t e =>
    if onCore e.1 then e.2.table.foldl (fun u b => if ofBlock b.2 && !b.2.boot then u.endLaunch b.2.queue b.2.seq cause else u) t
    else t) s

/-- One event for each context that lost records, `COUNT` of them; one event with no context when none did (R348). -/
def State.logLost (s : State) (d : BitVec 3) (cls unit : Nat) (lost : List Rec) : State :=
  if lost = [] then s.logEvent d cls none unit 0 0 0
  else (List.range 64).foldl (fun t c =>
    let n := (lost.filter fun r => decide (r.ctx.toNat = c)).length
    if n = 0 then t else t.logEvent d cls (some (BitVec.ofNat 6 c)) unit 0 n 0) s

/-- A die is held (R346): its clocks stop, the records in its runs are lost, the launches with a block on it end with cause
0x06, an event of class 0x10 says so. (log 16: DEDUCED) -/
def State.holdDie (s : State) (d : BitVec 3) : State :=
  let onDie (k : Nat) : Bool := decide (k / 1024 = d.toNat)
  let inDie (k : Nat) : Bool := decide (k / 64 = d.toNat)
  let lost := (s.cores.filter fun e => onDie e.1).flatMap (fun e => e.2.cog0.recs)
    ++ (s.clusters.filter fun e => inDie e.1).flatMap (fun e => e.2.cog1.recs) ++ (s.die d).cog2.recs
  let s := s.logLost d 0x10 0 lost
  let s := s.endLaunchesOn onDie (fun _ => true) 0x06
  { s with
    cores := s.cores.map fun e => if onDie e.1 then (e.1, { e.2 with cog0 := {} }) else e
    clusters := s.clusters.map fun e => if inDie e.1 then (e.1, { e.2 with cog1 := {} }) else e
    dies := s.dies.set d.toNat { s.die d with cog2 := {}, held := true } }

-- traps (R309 to R314)

def causeIllegal : Byte := 0x01
def causeOperand : Byte := 0x02
def causeMisaligned : Byte := 0x03
def causeNotPresent : Byte := 0x04
def causePermission : Byte := 0x05
def causePoison : Byte := 0x06
def causeTile : Byte := 0x07
def causeDeep : Byte := 0x08
def causeBitSerial : Byte := 0x09
def causeBadDest : Byte := 0x0A
def causeLoop : Byte := 0x0B
def causeBrk : Byte := 0x0C
def causeTrap : Byte := 0x0D
def causeEngine : Byte := 0x0E

/-- The slot runs its trap handler (R309). -/
def Slot.inTrap (x : Slot) : Bool := x.trapcause.getLsbD 8
/-- A trap waits for the end of the handler (R309). -/
def Slot.pendTrap (x : Slot) : Bool := x.trapcause.getLsbD 9

/-- TRAPCAUSE with a new cause and `INTRAP` set (R310). -/
def enterCause (old : Word) (cause : Byte) : Word := (old &&& 0x3FE00) ||| 0x100 ||| cause.setWidth 64

/-- A slot that enters its handler (R310). -/
def Slot.enterTrap (x : Slot) (cause : Byte) (addr : Word) (tpc : BitVec 48) : Slot :=
  { x with trappc := tpc.setWidth 64, trapaddr := addr, trapcause := enterCause x.trapcause cause, pc := x.trapvec.setWidth 48, mxSince := none }

/-- A die's failure in boot state: the die is held, and the root-of-trust core reports it over MIPI I3C (R372; log 16: DEDUCED). -/
def State.failBoot (s : State) (d : BitVec 3) : State :=
  let t := s.holdDie d
  { t with root := { t.root with reports := t.root.reports ++ [d.toNat] } }

/-- `Trap(cause)` of a slot (R310): the handler, or the end of the launch when the slot is in its handler or has none. In boot
state a trap holds the die, and the failure is reported (R372). -/
def State.deliverTrap (s : State) (c : CoreId) (k : BitVec 4) (cause : Byte) (addr : Word) (tpc : BitVec 48) : State :=
  let x := s.slot c k
  match s.blockOf c x with
  | none => s.setSlot c k (x.enterTrap cause addr tpc)
  | some b =>
    if b.boot then s.failBoot c.die
    else if x.inTrap || decide (x.trapvec = 0) then s.endLaunch b.queue b.seq cause
    else s.setSlot c k (x.enterTrap cause addr tpc)

/-- A fault or breakpoint that the host is to answer (R312): the slot is suspended and a record waits to be written. -/
def State.suspend (s : State) (c : CoreId) (k : BitVec 4) (n : BitVec 6) (kind : BitVec 4) (cause : Byte) (va : Word)
    (pc : BitVec 48) (next : BitVec 48) (tpc : BitVec 48 := pc) : State :=
  let x := s.slot c k
  let y := s.ctx n
  let f : FaultRec :=
    { seq := y.fseq, kind := kind, cause := cause, va := va, pc := pc.setWidth 64, core := c, slot := k, score := s.lnumOf c, cmd := 0,
      gen := x.gen, clock := s.clock c, tpc := tpc }
  (s.setSlot c k { x with st := .suspended, pc := next }).setCtx n { y with fseq := y.fseq + 1, faults := y.faults ++ [f] }

/-- A translation fault of a slot (R191, R310, R312): in replayable mode with a fault queue the slot is suspended at the
instruction, otherwise the trap is delivered. -/
def State.deliverFault (s : State) (c : CoreId) (k : BitVec 4) (cause : Byte) (va : Word) (kind : BitVec 4)
    (tpc : BitVec 48) : State :=
  let x := s.slot c k
  match s.blockOf c x with
  | none => s.deliverTrap c k cause va tpc
  | some b =>
    let y := s.ctx b.ctx
    if !b.boot && y.rply && decide (y.fqbase ≠ 0) then s.suspend c k b.ctx kind cause va x.pc x.pc tpc
    else s.deliverTrap c k cause va tpc

-- the end of an instruction (R116)

/-- The end-of-body test at an address: the loop stack after it, and where the loop goes back to (R116). -/
def bodyTest (a : BitVec 48) : List LoopEntry → List LoopEntry × Option (BitVec 48)
  | [] => ([], none)
  | e :: r =>
    if e.fin = a then
      if e.count - 1 = 0 then bodyTest a r else ({ e with count := e.count - 1 } :: r, some e.start)
    else (e :: r, none)

/-- A slot past an instruction of `len` bytes that did not branch. -/
def Slot.advance (x : Slot) (len : Nat) : Slot :=
  let (l, t) := bodyTest x.pc x.loops
  { x with loops := l, pc := t.getD (x.pc + BitVec.ofNat 48 len) }

def State.advance (s : State) (c : CoreId) (k : BitVec 4) (len : Nat) : State := s.setSlot c k ((s.slot c k).advance len)

-- the issue of an instruction (R8, R93, R95)

/-- What every instruction says of itself: its guard, its length in bytes, the registers it reads and writes, those of its operands
that trap when poisoned (R30), whether a register number breaks a rule of the map (R95 step 3), whether it chooses the
next pc (R27), and whether of what it writes it changes the taint alone, so that a write of g61 sends nothing (R118). -/
structure Issue where
  gd     : Guard
  len    : Nat
  reads  : List RegId
  writes : List RegId
  traps  : List RegId := []
  limit  : Bool := false
  ctl    : Bool := false
  touch  : Bool := false
  deriving DecidableEq, Repr

/-- What the effect of an instruction may use: the union of taints of R26, whether a register it reads is poisoned (R29), and the
taint of its guard. -/
structure Env where
  taint : Byte
  pois  : Bool
  gt    : Byte
  deriving DecidableEq, Repr

/-- What an instruction's effect comes to. -/
inductive Res where
  /-- The turn is lost (R8); `lostWith` when something beside the slot changes. -/
  | lost
  | lostWith (s : State)
  /-- Completed; goes on after the instruction. -/
  | done (s : State)
  /-- Completed with a taken branch. -/
  | jump (s : State) (target : BitVec 48)
  /-- Traps with a cause and TRAPADDR. -/
  | trap (s : State) (cause : Byte) (addr : Word)
  /-- A fault of translation: cause, address, kind of R312. -/
  | fault (s : State) (cause : Byte) (va : Word) (kind : BitVec 4)
  /-- A fault of the fetch at another address, which TRAPPC then holds (R115). -/
  | faultAt (s : State) (cause : Byte) (va : Word) (tpc : BitVec 48)
  /-- Has issued and holds its slot (R380). -/
  | holds (s : State)
  /-- Completed, with the slot no longer running or its pc already set. -/
  | ended (s : State)

/-- The guard's value (R93). -/
def Slot.guard (x : Slot) (gd : Guard) : Bool := x.readP gd.p ^^ gd.neg

/-- Some register is one. -/
def uses (rs : List RegId) (r : RegId) : Bool := rs.any fun x => decide (x = r)

/-- A register-number rule of R95 step 3 is broken: g63, or the instruction's own. -/
def Issue.bad (f : Issue) : Bool := f.limit || uses f.reads (.g 63) || uses f.writes (.g 63)

/-- A write to g61, which sends a word (R12). -/
def Issue.sends (f : Issue) : Bool := uses f.writes (.g 61) && !f.touch

/-- Joins a mask into registers' taint (R93). -/
def Slot.joinTaint (x : Slot) (t : Byte) (rs : List RegId) : Slot :=
  rs.foldl (fun y r => y.setTaint ((y.mark r).taint ||| t) r) x

/-- The waits that belong to the special g registers (R12, R246, R267). -/
def State.regWait (s : State) (f : Issue) : Bool :=
  ((uses f.reads (.g 60) || uses f.reads (.g 62)) && decide (s.cs.inbox = []))
  || (f.sends && (!s.outRoom || decide (s.cs.taints (.p f.gd.p :: f.reads) ||| s.cs.ctaint ≠ 0)))

/-- After an instruction that issued: the word of g60 is dequeued (R12). -/
def State.took (s : State) (f : Issue) : State :=
  let s := if uses f.reads (.g 60) then s.setCs s.cs.dequeue else s
  if uses f.reads (.g 61) then { s with fresh := s.fresh + 1 } else s

/-- The current slot traps (R310). TRAP and BRK save the address after themselves. -/
def State.trapHere (s : State) (cause : Byte) (addr : Word) : State := s.deliverTrap s.cur.1 s.cur.2 cause addr s.cs.pc

/-- What a result does to the machine. -/
def Res.apply (r : Res) (f : Issue) (s : State) : State :=
  match r with
  | .lost => s
  | .lostWith t => t
  | .done t => (t.took f).advance t.cur.1 t.cur.2 f.len
  | .jump t target =>
    let t := t.took f
    t.setCs { t.cs with pc := target }
  | .trap t cause addr => t.trapHere cause addr
  | .fault t cause va kind => t.deliverFault t.cur.1 t.cur.2 cause va kind t.cs.pc
  | .faultAt t cause va tpc => t.deliverFault t.cur.1 t.cur.2 cause va 3 tpc
  | .holds t => t.took f
  | .ended t => t.took f

/-- An instruction at its turn: readiness (R8), then the checks of R95 in their order from step 3, then its effect. `wait` is its own
wait condition, and `lost` the machine where it waits for that. (log 37: DEDUCED) -/
def State.issue (s : State) (f : Issue) (wait : Bool) (body : Env → Res) (lost : State := s) : Out :=
  let x := s.cs
  let gp : RegId := .p f.gd.p
  if x.anyPend (gp :: (f.reads ++ f.writes)) then .next s
  else if (x.mark gp).pois then .next (s.trapHere (if f.bad then causeOperand else causePoison) 0)
  else if !x.guard f.gd then
    if f.bad then .next (s.trapHere causeOperand 0)
    else
      let t := (x.mark gp).taint
      let x := x.joinTaint t f.writes
      let x := if f.ctl then { x with ctaint := x.ctaint ||| t } else x
      .next (s.setCs (x.advance f.len))
  else if s.regWait f then .next s
  else if wait then .next lost
  else if f.bad then .next (s.trapHere causeOperand 0)
  else if x.anyPois f.traps then .next (s.trapHere causePoison 0)
  else if f.sends && s.badDest then .next (s.trapHere causeBadDest 0)
  else .next ((body { taint := x.taints (gp :: f.reads), pois := x.anyPois f.reads, gt := (x.mark gp).taint }).apply f s)

end Sys2Proof.Machine
end

