-- ==== Sys2Proof/Machine/Translate.lean ====
section
/-! DEFINITION. Translation of an access (spec/18 R302 to R308): the TLBs, the walk of the page tables, permissions, and the physical
addressing of boot state (spec/23 R372). -/

namespace Sys2Proof.Machine

/-- What an access needs (R304). -/
structure Need where
  x : Bool := false
  w : Bool := false
  r : Bool := false
  deriving DecidableEq, Repr

def needR : Need := { r := true }
def needW : Need := { w := true }
def needRW : Need := { r := true, w := true }
def needX : Need := { x := true }
def needNone : Need := {}
/-- The kind of a fault record for an access (R312). -/
def Need.kind (n : Need) : BitVec 4 := if n.x then 3 else if n.r && n.w then 2 else if n.w then 1 else 0

/-- The outcome of a translation: an address, a miss that waits, or a fault. -/
inductive Trans where
  | ok (pa : Nat)
  | miss (s : State)
  | fault (s : State) (cause : Byte)
  deriving DecidableEq, Repr

/-- A TLB entry covers a page of a context (R306). -/
def TlbEntry.covers (e : TlbEntry) (ctx : BitVec 6) (vpn : Nat) : Bool :=
  decide (e.ctx = ctx) && decide (e.vpn ≤ vpn) && decide (vpn < e.vpn + e.pages)

/-- The permissions an access needs are there (R304). -/
def TlbEntry.allows (e : TlbEntry) (n : Need) : Bool := (!n.x || e.x) && (!n.w || e.w) && (!n.r || e.r)

/-- A place that an access can reach (R332): this device, a mapped window, or host memory through a CXL spoke. -/
def State.reachable (s : State) (pa : Nat) : Bool :=
  let p := place pa
  if p = 0 then true
  else if p = 0xFFF then (List.range 8).any fun d => (s.spokes[4 * d]?.getD {}).cxl
  else (Sparse.get 0 s.root.windows p).getLsbD 63

/-- The place of a waiting access in its program: a slot's pc, or how many units a command has delivered. -/
def State.whoPc (s : State) (c : CoreId) (who : Nat) : BitVec 48 :=
  if who < 16 then (s.slot c (BitVec.ofNat 4 who)).pc else BitVec.ofNat 48 ((Sparse.find (s.core c).cmds (who - 16)).map Cmd.done |>.getD 0)

/-- The miss of a requester for a page (R306). -/
def State.isMiss (s : State) (c : CoreId) (who : Nat) (ctx : BitVec 6) (vpn : Nat) (m : Miss) : Bool :=
  decide (m.core = c ∧ m.who = who ∧ m.pc = s.whoPc c who ∧ m.ctx = ctx ∧ m.vpn = vpn)

/-- Misses in order of arrival, ties going to the lower `LNUM` (R307). -/
def State.placeMiss (s : State) (m : Miss) : List Miss → List Miss
  | [] => [m]
  | x :: l => if x.since = m.since ∧ (s.lnumOf m.core).toNat < (s.lnumOf x.core).toNat then m :: x :: l else x :: s.placeMiss m l

/-- A requester's miss is noted once (R306, R307). -/
def State.addMiss (s : State) (c : CoreId) (who : Nat) (ctx : BitVec 6) (vpn : Nat) : State :=
  let d := s.die c.die
  if d.misses.any (s.isMiss c who ctx vpn) then s
  else
    let m : Miss := { core := c, who := who, pc := s.whoPc c who, ctx := ctx, vpn := vpn, since := d.clock }
    s.tick1.setDie c.die { d with misses := s.placeMiss m d.misses }

/-- The fault that the walk ended in for which this access waits (R306). -/
def State.walkFault (s : State) (c : CoreId) (who : Nat) (ctx : BitVec 6) (vpn : Nat) : Option Byte :=
  match (s.die c.die).misses.find? (s.isMiss c who ctx vpn) with
  | none => none
  | some m => m.fault

/-- The machine without some misses of a die. -/
def State.dropMisses (s : State) (d : BitVec 3) (gone : Miss → Bool) : State :=
  s.setDie d { s.die d with misses := (s.die d).misses.filter fun m => !gone m }
/-- The misses of requesters of a core that are no more are dropped: of slots that have exited or are unbound, of commands that are gone (R306). -/
def State.dropGone (s : State) (c : CoreId) : State :=
  s.dropMisses c.die fun m => decide (m.core = c) && (if m.who < 16 then
      decide ((s.slot c (BitVec.ofNat 4 m.who)).st = .exited ∨ (s.slot c (BitVec.ofNat 4 m.who)).st = .unbound)
    else (Sparse.find (s.core c).cmds (m.who - 16)).isNone)
/-- The misses of a requester that has gone on elsewhere are dropped. -/
def State.purgeMisses (s : State) (c : CoreId) (who : Nat) : State :=
  if (s.die c.die).misses.any fun m => decide (m.core = c ∧ m.who = who ∧ m.pc ≠ s.whoPc c who) then
    s.dropMisses c.die fun m => decide (m.core = c ∧ m.who = who ∧ m.pc ≠ s.whoPc c who)
  else s

/-- A page that boot state may write: hub working memory (R371, R372). -/
def hubWorking (pa : Nat) : Bool := hubReserved pa && (decide (1024 ≤ hubPageOf pa) || decide (pa / 32768 % 2 = 1))

/-- A range of bytes lies wholly in hub working memory. -/
def hubWorkingRange (pa n : Nat) : Bool := (List.range ((pa % 4096 + n + 4095) / 4096)).all fun i => hubWorking (pa / 4096 * 4096 + 4096 * i)

/-- An address of boot state (R372): physical, reads in local HBM, writes in hub working memory. -/
def bootAccess (va : Nat) (n : Need) : Option Nat :=
  if n.w then (if hubWorking va then some va else none)
  else if va < 2 ^ 40 then some va else none

/-- A 64-bit address of a context translated at a core's micro-TLB for a requester, slot k as k or command n as 16 + n (R190 steps 3
and 4, R304, R306, R332). In boot state every address is physical, and any that may not be reached is *permission* (R372). -/
def State.translate (s : State) (c : CoreId) (who : Nat) (boot : Bool) (ctx : BitVec 6) (va : Word) (n : Need) : Trans :=
  if boot then
    match bootAccess va.toNat n with
    | some pa => .ok pa
    | none => .fault s causePermission
  else if va.extractLsb' 48 16 ≠ 0 then .fault s causeNotPresent
  else
    let vpn := va.toNat / 4096
    match (s.core c).utlb.find? fun e => e.covers ctx vpn with
    | some e =>
      if e.allows n then
        let pa := (e.ppn + (vpn - e.vpn)) * 4096 + va.toNat % 4096
        if s.reachable pa then .ok pa else .fault s causeNotPresent
      else .fault s causePermission
    | none =>
      match s.walkFault c who ctx vpn with
      | some cause => .fault (s.dropMisses c.die (s.isMiss c who ctx vpn)) cause
      | none => .miss (s.addMiss c who ctx vpn)

/-- The current slot's access translated. -/
def State.tr (s : State) (va : Word) (n : Need) : Trans := s.translate s.cc s.cur.2.toNat s.block.boot s.block.ctx va n

-- the walk (R302, R303, R305)

/-- What a walk ends in. -/
inductive WalkEnd where
  | page (e : TlbEntry)
  | fault (cause : Byte)
  deriving DecidableEq, Repr

/-- The entry's reserved bits (R302). -/
def pteReserved (e : Word) : Bool := decide (e.extractLsb' 52 12 ≠ 0) || e.getLsbD 7 || e.getLsbD 2

/-- The walk below a table at a level, for a page number (R302, R303). -/
def State.walkFrom (s : State) (ctx : BitVec 6) (vpn : Nat) : Nat → Nat → WalkEnd
  | 0, table =>
    let e := s.baseWord (table / 8 + vpn % 512)
    let ppn := (e.extractLsb' 12 40).toNat
    if !e.getLsbD 0 || pteReserved e || !e.getLsbD 1 || hubReserved (4096 * ppn) then .fault causeNotPresent
    else if e.getLsbD 6 then .page ⟨ctx, vpn / 16 * 16, 16, ppn / 16 * 16, e.getLsbD 5, e.getLsbD 4, e.getLsbD 3⟩
    else .page ⟨ctx, vpn, 1, ppn, e.getLsbD 5, e.getLsbD 4, e.getLsbD 3⟩
  | l + 1, table =>
    let pages := 512 ^ (l + 1)
    let e := s.baseWord (table / 8 + vpn / pages % 512)
    let ppn := (e.extractLsb' 12 40).toNat
    if !e.getLsbD 0 || pteReserved e || e.getLsbD 6 then .fault causeNotPresent
    else if e.getLsbD 1 then
      if l = 2 || decide (ppn % pages ≠ 0) || hubReserved (4096 * ppn) then .fault causeNotPresent
      else .page ⟨ctx, vpn / pages * pages, pages, ppn, e.getLsbD 5, e.getLsbD 4, e.getLsbD 3⟩
    else s.walkFrom ctx vpn l (4096 * ppn)

/-- The translation of a page by its context's tables (R302). -/
def State.walkTables (s : State) (ctx : BitVec 6) (vpn : Nat) : WalkEnd := s.walkFrom ctx vpn 3 (s.ctx ctx).ptroot

/-- The addresses of the table entries that a walk reads, from a level down (R302). -/
def State.walkPath (s : State) (vpn : Nat) : Nat → Nat → List Nat
  | 0, table => [table + 8 * (vpn % 512)]
  | l + 1, table =>
    let pa := table + 8 * (vpn / 512 ^ (l + 1) % 512)
    let e := s.baseWord (pa / 8)
    if !e.getLsbD 0 || pteReserved e || e.getLsbD 6 || e.getLsbD 1 then [pa]
    else pa :: s.walkPath vpn l (4096 * (e.extractLsb' 12 40).toNat)

-- the ways to host memory and to peers, and what has been accepted (R195, R331, R336)

/-- The die whose spoke 0 reaches host memory for a die (R336); none where no spoke is in CXL personality. -/
def State.hostDie (s : State) (d : BitVec 3) : Option (BitVec 3) :=
  let cxl (n : Nat) : Bool := (s.spokes[4 * n]?.getD {}).cxl
  if cxl d.toNat then some d
  else ((List.range 8).find? cxl).map fun n => BitVec.ofNat 3 n

/-- The spoke through which a die reaches the peer of an address (R331): the least `(FID - k) mod 4` of those its routes choose from. -/
def State.peerSpoke (s : State) (d : BitVec 3) (pa : Nat) : Option Nat :=
  let fid := ((Sparse.get 0 s.root.windows (place pa)).extractLsb' 0 18).toNat
  (((List.range 4).map fun r => (fid + 4 - r) % 4).find? fun k => (s.die d).routes.getLsbD k).map fun k => 4 * d.toNat + k

/-- A route reaches the peer of an address; while it changes, nothing goes out on it (R331). -/
def State.peerLive (s : State) (d : BitVec 3) (pa : Nat) : Bool :=
  (s.die d).routing.isNone && match s.peerSpoke d pa with
  | none => false
  | some n => !(s.spokes[n]?.getD {}).fenced

/-- The agent of a die that reaches host memory works (R336, R346). -/
def State.hostUp (s : State) (d : BitVec 3) : Bool :=
  match s.hostDie d with
  | none => false
  | some h => !(s.die h).held

/-- A record accepted for a line and not yet applied at the line's home (R195). -/
def State.lineWaits (s : State) (line : Nat) : Bool :=
  let pa := 64 * line
  let hit (q : List Accepted) : Bool := q.any fun a => decide (a.r.key / 8 = line)
  if isHost pa then (List.range 8).any fun d => hit (s.die (BitVec.ofNat 3 d)).hostq
  else if isPeer pa then false
  else hit (s.die (homeDie pa)).acceptq

/-- A table line whose home does not yet answer the walker, or the hub, of a die: a record accepted for it is not applied, its home is held, or no
way leads there (R305, R331, R336, R347). -/
def State.tableWaits (s : State) (d : BitVec 3) (pa : Nat) : Bool :=
  s.lineWaits (pa / 64) || (decide (place pa = 0) && (s.die (homeDie pa)).held) || (isPeer pa && !s.peerLive d pa) || (isHost pa && !s.hostUp d)
/-- A walk of a context's tables for an address has to wait (R305). -/
def State.walkWaits (s : State) (d : BitVec 3) (n : BitVec 6) (va : Nat) : Bool :=
  (s.walkPath (va / 4096) 3 (s.ctx n).ptroot).any (s.tableWaits d)

/-- A line of device memory is reached at a moment: where that opens a row of HBM it counts an activate of the stack, and at the limit, once there is
one, it waits for the next window (R154, R355; log 73: DESIGN CHOICE). -/
def State.openRow (s : State) (line moment : Nat) : Option State :=
  let d := s.die (homeDie (64 * line))
  let i : Fin 2 := if line / 512 % 2 = 1 then 1 else 0
  match d.actlim[i] with
  | none => some s
  | some lim =>
    if place (64 * line) ≠ 0 || Config.cached line moment || !Config.activates line moment then some s
    else if lim ≤ d.actUsed[i] then none
    else some (s.setDie (homeDie (64 * line)) { d with actUsed := d.actUsed.set i (d.actUsed[i] + 1) })
/-- The lines of a range. -/
def linesOf (pa n : Nat) : List Nat := if n = 0 then [] else (List.range ((pa + n - 1) / 64 - pa / 64 + 1)).map fun i => pa / 64 + i
/-- Lines reached one after another at a moment. -/
def State.openRows (s : State) (moment : Nat) : List Nat → Option State
  | [] => some s
  | l :: ls => (s.openRow l moment).bind fun t => t.openRows moment ls

/-- The hub of a die walks a context's tables for an address (R296, R305); none while that must wait. -/
def State.hubWalk (s : State) (d : BitVec 3) (n : BitVec 6) (va : Nat) : Option State :=
  if s.walkWaits d n va then none else s.openRows s.seqno ((s.walkPath (va / 4096) 3 (s.ctx n).ptroot).map fun pa => pa / 64)

/-- A write into a context's own structure by hardware or the hub (R296): translated by the tables, with write permission. -/
def State.hubWrite (s : State) (ctx : BitVec 6) (va : Nat) : Option Nat :=
  match s.walkTables ctx (va / 4096) with
  | .fault _ => none
  | .page e =>
    let pa := (e.ppn + (va / 4096 - e.vpn)) * 4096 + va % 4096
    if e.w && decide (va < 2 ^ 48) && s.reachable pa then some pa else none

end Sys2Proof.Machine
end

