-- ==== Sys2Proof/Machine/Operands.lean ====
section
/-! DEFINITION. Operand forms (spec/04 R88 to R92, R97): operand B, immediates, widths, memory operands; results of long instructions
(spec/05 R107). -/

namespace Sys2Proof.Machine

/-- The registers that operand B names (R89). -/
def opBReads : OpB → List RegId
  | .reg b => [.g b]
  | .lit _ => []

/-- The value of operand B. -/
def State.opB (s : State) : OpB → Word
  | .reg b => s.g b
  | .lit w => w

/-- The length of an instruction of the extended form, with a literal or without (R83). -/
def extLen : OpB → Nat
  | .reg _ => 12
  | .lit _ => 20

/-- A signed and a natural immediate as operand B (R91). -/
def immS (v : BitVec 6) : OpB := .lit (v.signExtend 64)
def immN (v : BitVec 6) : OpB := .lit (v.setWidth 64)

/-- A result at the operation's width, sign-extended (R92, R109). -/
def fit (w32 : Bool) (r : Word) : Word := if w32 then (r.setWidth 32).signExtend 64 else r
/-- The operation's width. -/
def opWidth (w32 : Bool) : Nat := if w32 then 32 else 64
/-- An operand read at the operation's width, as natural and as signed. -/
def natAt (w32 : Bool) (v : Word) : Nat := if w32 then (v.setWidth 32).toNat else v.toNat
def intAt (w32 : Bool) (v : Word) : Int := if w32 then (v.setWidth 32).toInt else v.toInt
/-- A signed number written at the operation's width. -/
def ofIntAt (w32 : Bool) (v : Int) : Word := fit w32 (BitVec.ofInt 64 v)

/-- The registers of a memory operand, and its effective address (R189). -/
def memRegs (e : MemA) : List RegId := [.g e.a, .g e.b]
def State.ea (s : State) (e : MemA) : Word := s.g e.a + s.g e.b + e.disp.signExtend 64
/-- Base and displacement alone. -/
def State.baseDisp (s : State) (a : GIx) (disp : BitVec 32) : Word := s.g a + disp.signExtend 64

/-- The bytes of an element (R97). -/
def elemBytes (w : BitVec 2) : Nat := 2 ^ w.toNat

/-- A destination written when a long result arrives, or at once: any kind of register. -/
def State.putReg (s : State) (r : RegId) (v : VWord) (t : Byte) (po : Bool) : State :=
  match r with
  | .g i => s.putG i (v.setWidth 64) t po
  | .p i => s.putP i (v.getLsbD 0) t po
  | .v i => s.putV i v t po
  | .m i => s.putM i (v.setWidth 32) t po

/-- Starts a long result (R9, R107): the destination is pending, the value arrives `rot` rotations later. -/
def State.startLong (s : State) (d : RegId) (v : VWord) (t : Byte) (po : Bool) (rot : Nat) (ldd : Bool := false) : State :=
  let x := s.cs.setPend true d
  s.setCs { x with longs := x.longs ++
    [{ dst := d, val := v, taint := t, pois := po, due := s.clock s.cc + 16 * rot, ldd := ldd }] }

/-- An operation run for a slot, with the turn's slot restored after it. -/
def State.onSlot (s : State) (c : CoreId) (k : BitVec 4) (f : State → Option State) : Option State :=
  (f { s with cur := (c, k) }).map fun t => { t with cur := s.cur }

/-- What an event leaves: the machine unchanged where it cannot happen. -/
def orSame (s : State) (t : Option State) : Out := .next (t.getD s)

/-- The n-th result on its way, and the others. -/
def takeNth {α : Type} : Nat → List α → Option (α × List α)
  | _, [] => none
  | 0, x :: r => some (x, r)
  | n + 1, x :: r => (takeNth n r).map fun y => (y.1, x :: y.2)

/-- An element of a list replaced. -/
def setNth {α : Type} : Nat → α → List α → List α
  | _, _, [] => []
  | 0, y, _ :: r => y :: r
  | n + 1, y, x :: r => x :: setNth n y r

/-- The busy load tags as bits (R119). -/
def Slot.busyTags (x : Slot) : Byte := x.tags.foldl (fun a e => a ||| BitVec.ofNat 8 (2 ^ e.1)) 0

end Sys2Proof.Machine
end

