-- ==== Sys2Proof/Machine/Flags.lean ====
section
/-! DEFINITION. Arithmetic control and flags (spec/02 R40 to R47): FPCR's fields, MXFLAGS, exception traps, the stochastic generator of a
slot (R50). -/

namespace Sys2Proof.Machine

/-- FPCR's fields (R40). -/
def fpRm (v : Word) : Nat := (v &&& 7).toNat
def fpFzi (v : Word) : Bool := v.getLsbD 3
def fpFzo (v : Word) : Bool := v.getLsbD 4
def fpSatf (v : Word) : Bool := v.getLsbD 5
def fpXe (v : Word) : FFlags := v.extractLsb' 8 5
def fpSr (v : Word) : BitVec 32 := v.extractLsb' 32 32

/-- The `RM` code in force under an override (R97). -/
def rmCode (rmo : BitVec 3) (fpcr : Word) : Nat := if rmo = 0 then fpRm fpcr else rmo.toNat - 1

/-- Flags set in MXFLAGS of a context, and noted as raised in this cycle (R44, R45). -/
def Ctx.setFlags (y : Ctx) (v : Word) : Ctx := { y with mxflags := y.mxflags ||| v, mxnew := y.mxnew ||| v }
/-- Flags set in bits 4:0 of MXFLAGS of a context (R44, R45). -/
def State.raise (s : State) (n : BitVec 6) (fl : FFlags) : State := s.setCtx n ((s.ctx n).setFlags (fl.setWidth 64))
/-- Flags set in `MFLAGS` (R184). -/
def State.raiseM (s : State) (n : BitVec 6) (fl : FFlags) : State := s.setCtx n ((s.ctx n).setFlags (fl.setWidth 64 <<< 8))

/-- The end of a floating-point instruction (R45, R47): its flags are set, and an enabled one traps before any destination is
written. -/
def State.fpEnd (s : State) (fl : FFlags) (write : State → State) : Res :=
  let t := s.raise s.block.ctx fl
  if fl &&& fpXe s.cs.fpcr ≠ 0 then .trap t causeOperand (fl.setWidth 64) else .done (write t)

/-- The seed of a slot's generator (R50). -/
def State.srSeed (s : State) (c : CoreId) (x : Slot) : BitVec 32 :=
  0x80000000 ||| ((s.lnumOf c).setWidth 32 <<< 20) ||| (x.thr.setWidth 32 <<< 16) ||| x.gen.setWidth 32

/-- The rounder of the current slot for a conversion into `bits` bits (R42, R51). -/
def State.rounder (s : State) (rm bits : Nat) : Rounder :=
  { rm := rm, sr := decide (rm = 5) && decide (bits ≤ 16), seed := s.srSeed s.cc s.cs, s := fpSr s.cs.fpcr }

/-- The generator's state after a conversion (R50). (log 8: DEDUCED) -/
def State.putSr (s : State) (r : Rounder) : State :=
  if r.sr then s.setCs { s.cs with fpcr := r.s ++ s.cs.fpcr.extractLsb' 0 32 } else s

end Sys2Proof.Machine
end

