-- ==== Sys2Proof/Machine/Cassette.lean ====
section
/-! DEFINITION. The cassette (spec/08, with spec/07 R152 to R158): records and operators, combining, insertion, eviction and draining,
folding, passes, acceptance and application at the base, the race trace ring (spec/17 R295) and the merge error log. -/

namespace Sys2Proof.Machine

-- elements and operators (R168, R169)

/-- The width in bits of a record's elements. -/
def elemBits (w : BitVec 2) : Nat := 8 * elemBytes w
/-- Element e of a word. -/
def elemOf (w : BitVec 2) (v : Word) (e : Nat) : Nat := v.toNat / 2 ^ (elemBits w * e) % 2 ^ elemBits w
/-- The word with element e replaced. -/
def setElem (w : BitVec 2) (v : Word) (e x : Nat) : Word :=
  BitVec.ofNat 64 (v.toNat - elemOf w v e * 2 ^ (elemBits w * e) + x % 2 ^ elemBits w * 2 ^ (elemBits w * e))
/-- Element e is present (R168). -/
def Rec.has (r : Rec) (e : Nat) : Bool := r.mask.getLsbD (e * elemBytes r.w)
/-- The mask of an element that starts at a byte of its key word. -/
def elemMask (w : BitVec 2) (byte : Nat) : Byte := BitVec.ofNat 8 ((2 ^ elemBytes w - 1) * 2 ^ byte)

/-- The floating type of FADD, FMIN and FMAX (R169). -/
def recFmt (w : BitVec 2) (k : Bool) : FFmt :=
  if w = 3 then .fp64 else if w = 2 then .fp32 else if k then .bf16 else .fp16

/-- The lesser or the greater of two elements (R169). -/
def pick2 (isMax signed : Bool) (bits v x : Nat) : Nat :=
  let less := decide (intOf signed bits v < intOf signed bits x)
  if less = isMax then x else v

/-- A sum clamped to a range (R169). -/
def clampTo (lo hi v : Int) : Int := if v < lo then lo else if hi < v then hi else v

/-- `Op(v, x)` on one element, and the flags it raises (R169, R183); `Combine_op` of R171 is the same function. -/
def recOp (op : BitVec 4) (w : BitVec 2) (k : Bool) (v x : Nat) : Nat × FFlags :=
  let b := elemBits w
  let f := recFmt w k
  match op.toNat with
  | 0 => (x, 0)
  | 1 => ((v + x) % 2 ^ b, 0)
  | 2 =>
    let a := decodeF f false v
    let c := decodeF f false x
    let (y, fl) := xadd false a c
    let (r, fl') := roundF f .rne false false y
    (r, a.sigFlag ||| c.sigFlag ||| fl ||| fl')
  | 3 => (pick2 false true b v x, 0)
  | 4 => (pick2 true true b v x, 0)
  | 5 => (pick2 false false b v x, 0)
  | 6 => (pick2 true false b v x, 0)
  | 7 => fminmax false f false v x
  | 8 => fminmax true f false v x
  | 9 => (v &&& x, 0)
  | 10 => (v ||| x, 0)
  | 11 => (v ^^^ x, 0)
  | _ =>
    if k then (wrap b (clampTo (-(2 ^ (b - 1) : Int)) (2 ^ (b - 1) - 1) (intOf true b v + intOf true b x)), 0)
    else (min (v + x) (2 ^ b - 1), 0)

/-- The elements of a record below n applied to a word. -/
def Rec.applyBelow (r : Rec) (v : Word) : Nat → Word × FFlags
  | 0 => (v, 0)
  | n + 1 =>
    let (u, fl) := r.applyBelow v n
    if r.has n then
      let (y, fl') := recOp r.op r.w r.k (elemOf r.w v n) (elemOf r.w r.value n)
      (setElem r.w u n y, fl ||| fl')
    else (u, fl)

/-- `Apply(r, v)` (R169), with the flags of its steps. A SET sets the bytes of its mask: one that joins two widths, or that a host or an
engine writes, need not hold whole elements of its `W` (R171, R172, R219, R337). (log 13: DEDUCED) -/
def Rec.apply (r : Rec) (v : Word) : Word × FFlags :=
  if r.op = 0 then Rec.applyBelow { r with w := 0 } v 8 else r.applyBelow v (8 / elemBytes r.w)

/-- Bits 163:0 of a record, as R167 lays them out. -/
def Rec.low (r : Rec) : BitVec 164 :=
  (0 : BitVec 15) ++ r.sdie ++ r.score ++ (0 : BitVec 1) ++ BitVec.ofBool r.pois ++ r.ctx ++ r.mask ++ BitVec.ofBool r.k ++ r.w ++ r.op
    ++ BitVec.ofNat 49 r.key ++ r.value
/-- A record's 24 bytes: `CHK` stands over bits 163:0 (R167; log 71: DESIGN CHOICE). -/
def Rec.bits (r : Rec) : BitVec 192 := Config.recCheck r.low ++ r.low

-- combining (R171)

/-- The elements below n of two records of one operator combined: in both, `Combine_op`; in one, copied. -/
def combineBelow (r1 r2 : Rec) : Nat → Word × FFlags
  | 0 => (r1.value, 0)
  | n + 1 =>
    let (u, fl) := combineBelow r1 r2 n
    if r2.has n then
      if r1.has n then
        let (y, fl') := recOp r1.op r1.w r1.k (elemOf r1.w r1.value n) (elemOf r1.w r2.value n)
        (setElem r1.w u n y, fl ||| fl')
      else (setElem r1.w u n (elemOf r1.w r2.value n), fl)
    else (u, fl)

/-- A signed SADD pair that may combine: one sign (a zero fits either) and an exact sum in range. (log 35: DEDUCED) -/
def saddPair (b x1 x2 : Nat) : Bool :=
  let a := intOf true b x1
  let c := intOf true b x2
  let sum := a + c
  ((decide (0 ≤ a) && decide (0 ≤ c)) || (decide (a ≤ 0) && decide (c ≤ 0)))
    && decide (-(2 ^ (b - 1) : Int) ≤ sum) && decide (sum < 2 ^ (b - 1))

/-- The condition of R171 on signed SADD, for the elements below n. -/
def saddBelow (r1 r2 : Rec) : Nat → Bool
  | 0 => true
  | n + 1 =>
    saddBelow r1 r2 n
      && (!(r1.has n && r2.has n) || saddPair (elemBits r1.w) (elemOf r1.w r1.value n) (elemOf r1.w r2.value n))

/-- What every combination shares: `POIS` of either, `SDIE` and `SCORE` of the second (R171). -/
def joinRec (r1 r2 : Rec) (op : BitVec 4) (w : BitVec 2) (k : Bool) (mask : Byte) (value : Word) : Rec :=
  { key := r1.key, value := value, op := op, w := w, k := k, mask := mask, ctx := r1.ctx, pois := r1.pois || r2.pois,
    sdie := r2.sdie, score := r2.score, skind := 0, srcs := (r1.srcs ++ r2.srcs).eraseDups,
    movers := (r1.movers ++ r2.movers).eraseDups, eng := r1.eng || r2.eng }

/-- `Combinable` and `Combine` (R171): none where the two do not combine; the rows in their order. -/
def combine (r1 r2 : Rec) : Option (Rec × FFlags) :=
  if r1.ctx ≠ r2.ctx then none
  else if r1.op = 0 ∧ r2.op = 0 then
    some (joinRec r1 r2 0 r2.w false (r1.mask ||| r2.mask) (r2.apply r1.value).1, 0)
  else if r1.op = 0 then
    if r2.mask &&& ~~~r1.mask = 0 then
      let (v, fl) := r2.apply r1.value
      some (joinRec r1 r2 0 r1.w false r1.mask v, fl)
    else none
  else if r2.op = 0 then
    if r1.mask &&& ~~~r2.mask = 0 then some (joinRec r1 r2 0 r2.w false r2.mask r2.value, 0) else none
  else if r1.op = r2.op ∧ r1.w = r2.w ∧ r1.k = r2.k then
    let n := 8 / elemBytes r1.w
    if r1.op = 12 ∧ r1.k = true ∧ saddBelow r1 r2 n = false then none
    else
      let (v, fl) := combineBelow r1 r2 n
      some (joinRec r1 r2 r1.op r1.w r1.k (r1.mask ||| r2.mask) v, fl)
  else none

-- runs (R152, R170)

/-- The record of a key in a list of records. -/
def recOf (l : List Rec) (key : Nat) : Option Rec := l.find? fun r => decide (r.key = key)
/-- The list without a key. -/
def dropKey (l : List Rec) (key : Nat) : List Rec := l.filter fun r => decide (r.key ≠ key)
/-- A record in its place, in the room of one of its key. -/
def placeRec (r : Rec) : List Rec → List Rec
  | [] => [r]
  | x :: l => if r.key < x.key then r :: x :: l else if r.key = x.key then r :: l else x :: placeRec r l

/-- The level of a core, of a cluster, of a die. -/
def level0 (c : CoreId) : LevelId := .cog0 c
def level1 (c : CoreId) : LevelId := .cog1 c.die (BitVec.ofNat 6 c.cluster)
def level2 (c : CoreId) : LevelId := .cog2 c.die

/-- The die of a level. -/
def levelDie : LevelId → BitVec 3
  | .cog0 c => c.die
  | .cog1 d _ => d
  | .cog2 d => d
/-- The number of a level within its die: 0, 1, 2. -/
def levelNum : LevelId → Nat
  | .cog0 _ => 0
  | .cog1 _ _ => 1
  | .cog2 _ => 2
/-- Capacity (R152). -/
def levelCap : LevelId → Nat
  | .cog0 _ => 64
  | .cog1 _ _ => 4096
  | .cog2 _ => 262144

def State.run (s : State) : LevelId → Run
  | .cog0 c => (s.core c).cog0
  | .cog1 d n => (s.cluster (clusterKey d n.toNat)).cog1
  | .cog2 d => (s.die d).cog2
def State.setRun (s : State) (l : LevelId) (x : Run) : State :=
  match l with
  | .cog0 c => s.setCore c { s.core c with cog0 := x }
  | .cog1 d n => s.setCluster (clusterKey d n.toNat) { s.cluster (clusterKey d n.toNat) with cog1 := x }
  | .cog2 d => s.setDie d { s.die d with cog2 := x }
def State.setRecs (s : State) (l : LevelId) (x : List Rec) : State := s.setRun l { s.run l with recs := x }

/-- The level holds a record of a key. -/
def State.heldAt (s : State) (l : LevelId) (key : Nat) : Option Rec := recOf (s.run l).recs key
/-- The record removed from its level. -/
def State.removeRec (s : State) (l : LevelId) (key : Nat) : State := s.setRecs l (dropKey (s.run l).recs key)
/-- The record put at a level; the level has had an insertion (R177). -/
def State.putRec (s : State) (l : LevelId) (r : Rec) : State :=
  s.setRun l { s.run l with recs := placeRec r (s.run l).recs, lastIns := (s.die (levelDie l)).clock }

-- snapshots (R157, R158)

/-- A core without the snapshots of a line. -/
def Core.dropLine (x : Core) (line : Nat) : Core := { x with l1 := x.l1.filter fun e => decide (e.line ≠ line) }
/-- The snapshots of a line dropped on every core of a die. -/
def State.dropLine (s : State) (d : BitVec 3) (line : Nat) : State :=
  { s with cores := s.cores.map fun e => if e.1 / 1024 = d.toNat then (e.1, e.2.dropLine line) else e }
/-- Every snapshot of a core dropped. -/
def State.dropL1 (s : State) (c : CoreId) : State := s.setCore c { s.core c with l1 := [] }

-- records on their way to the base (R154, R195, R219, R333, R336)

/-- A record accepted at its home with its number: at the home die, by the host agent, or by a peer, which applies it later (R333).
(log 17: DEDUCED) -/
def State.acceptAs (s : State) (id : Nat) (from_ : BitVec 3) (r : Rec) : State :=
  let pa := 8 * r.key
  if isPeer pa then { s with peerq := s.peerq ++ [⟨id, r⟩] }
  else if isHost pa then
    let d := (s.hostDie from_).getD from_
    s.setDie d { s.die d with hostq := (s.die d).hostq ++ [⟨id, r⟩] }
  else
    let d := homeDie pa
    s.setDie d { s.die d with acceptq := (s.die d).acceptq ++ [⟨id, r⟩] }

/-- A record on its way to its home from a die, from a source of R294's round, after some others. -/
def State.sendRec (s : State) (d : BitVec 3) (src : Nat) (r : Rec) (after : List Nat := []) : State :=
  { s.tick1 with transit := s.transit ++ [{ id := s.seqno, die := d, r := r, since := (s.die d).clock, src := src, after := after }] }

/-- Words of a context's structure written as one engine's global write (R219), from an address up, once some records have been applied. -/
def State.engineWords (s : State) (d : BitVec 3) (n : BitVec 6) (unit : Nat) (after : List Nat) (pa : Nat) : List Word → State
  | [] => s
  | w :: ws =>
    let t := s.sendRec d d.toNat { setRec (pa / 8) w 0xFF n d 0 0 false [] true with unit := unit } after
    State.engineWords t d n unit after (pa + 8) ws

/-- The numbers of the next n records. -/
def State.nextIds (s : State) (n : Nat) : List Nat := (List.range n).map fun i => s.seqno + i

/-- A status write into a context's address space, which is to be applied after some records; one that fails is logged as class 0x13 (R296). Who makes it
waits until the tables can be walked (`State.walkWaits`). -/
def State.statusWrite (s : State) (d : BitVec 3) (n : BitVec 6) (unit va : Nat) (ws : List Word) (after : List Nat := []) : Bool × State :=
  match s.hubWrite n va with
  | some pa => (true, s.engineWords d n s.seqno after pa ws)
  | none => (false, s.logEvent d 0x13 (some n) unit 0 0 va)

-- races (R181, R182, R295)

/-- `SDIE` and `SCORE` as a log holds them. -/
def Rec.src (r : Rec) : BitVec 13 := r.sdie ++ r.score

/-- An entry of the race trace ring (R182). -/
def raceEntry (r1 r2 : Rec) (level : Nat) (clock : Nat) : List Word :=
  [(r1.mask &&& r2.mask) ++ r1.op ++ BitVec.ofNat 49 r1.key ++ (0 : BitVec 1) ++ BitVec.ofNat 1 (level - 1) ++ (1 : BitVec 1),
   BitVec.ofNat 32 clock ++ r2.src ++ r1.src ++ r1.ctx, r1.value, r2.value]

/-- The race trace ring of a die replaced; without one no race waits (R295). -/
def State.setRace (s : State) (d : BitVec 3) (q : Option Race) : State :=
  s.setDie d { s.die d with race := q, raced := if q.isNone then [] else (s.die d).raced }

/-- A race is written to the die's ring, then `PROD`, or it is counted as dropped (R182, R295); a write that fails disables the ring (R296). -/
def State.traceRace (s : State) (d : BitVec 3) (level clock : Nat) (r1 r2 : Rec) : State :=
  match (s.die d).race with
  | none => s
  | some q =>
    if q.ctx ≠ r1.ctx then s
    else
      let cons :=
        if q.prod - q.cons < q.len then q.cons
        else match s.hubWrite q.ctx (q.base + 16) with
          | some pa => (s.baseWord (pa / 8)).toNat
          | none => q.cons
      if q.prod - cons < q.len then
        let ids := s.nextIds 4
        let (ok, s) := s.statusWrite d q.ctx 0 (q.base + 64 + 32 * (q.prod % q.len)) (raceEntry r1 r2 level clock)
        if ok then
          let q := { q with prod := q.prod + 1, cons := cons }
          let (ok, s) := s.statusWrite d q.ctx 0 q.base [BitVec.ofNat 64 q.prod] ids
          s.setRace d (if ok then some q else none)
        else s.setRace d none
      else
        let q := { q with drop := min (q.drop + 1) (2 ^ 64 - 1), cons := cons }
        let (ok, s) := s.statusWrite d q.ctx 0 (q.base + 8) [BitVec.ofNat 64 q.drop]
        s.setRace d (if ok then some q else none)

/-- A race of the ring's context waits to be written (R182). -/
def State.noteRace (s : State) (d : BitVec 3) (level : Nat) (r1 r2 : Rec) : State :=
  match (s.die d).race with
  | none => s
  | some q => if q.ctx ≠ r1.ctx then s else s.setDie d { s.die d with raced := (s.die d).raced ++ [(r1, r2, level, (s.die d).clock)] }

/-- The ring's `CONSR` is read where the ring seems full (R295): none while its line does not yet answer. -/
def State.readConsr (s : State) (d : BitVec 3) (q : Race) : Option State :=
  if q.prod - q.cons < q.len then some s
  else match s.hubWrite q.ctx (q.base + 16) with
    | none => some s
    | some pa => if s.tableWaits d pa then none else s.openRow (pa / 64) s.seqno

/-- The oldest race of a die that waits is written, once the tables can be walked (R295, R305). -/
def State.tryRaceTrace (s : State) (d : BitVec 3) : Option State :=
  let x := s.die d
  match x.raced with
  | [] => none
  | (r1, r2, level, clock) :: rest =>
    if x.held then none
    else match x.race with
      | none => some (s.setDie d { x with raced := rest })
      | some q =>
        (((s.hubWalk d q.ctx q.base).bind fun t => t.hubWalk d q.ctx (q.base + 64 + 32 * (q.prod % q.len))).bind fun t => t.readConsr d q).map fun t =>
          (t.setDie d { t.die d with raced := rest }).traceRace d level clock r1 r2

/-- A combine at a level that is a SET race (R181). -/
def isRace (l : LevelId) (r1 r2 : Rec) : Bool :=
  decide (levelNum l ≠ 0) && decide (r2.op = 0) && decide (r1.mask &&& r2.mask ≠ 0) && decide (r1.src ≠ r2.src)

-- insertion (R170)

/-- A record leaves cog 2 for its home (R153, R158). -/
def State.leaveDie (s : State) (d : BitVec 3) (r : Rec) : State :=
  (s.dropLine d (r.key / 8)).sendRec d d.toNat r

/-- `Insert` at a level, given what insertion at the next level out does (R170). -/
def State.insertStep (out : State → Rec → State) (s : State) (l : LevelId) (r : Rec) : State :=
  match s.heldAt l r.key with
  | none => s.putRec l r
  | some r1 =>
    match combine r1 r with
    | some (x, fl) =>
      let s := (s.putRec l x).raiseM r.ctx fl
      if isRace l r1 r then s.noteRace (levelDie l) (levelNum l) r1 r else s
    | none => (out (s.removeRec l r.key) r1).putRec l r

def State.insert2 (s : State) (d : BitVec 3) (r : Rec) : State :=
  State.insertStep (fun t x => t.leaveDie d x) s (.cog2 d) r
def State.insert1 (s : State) (d : BitVec 3) (n : BitVec 6) (r : Rec) : State :=
  State.insertStep (fun t x => t.insert2 d x) s (.cog1 d n) r
def State.insert0 (s : State) (c : CoreId) (r : Rec) : State :=
  State.insertStep (fun t x => t.insert1 c.die (BitVec.ofNat 6 c.cluster) x) s (.cog0 c) r

/-- `Insert(L, r)` (R170). -/
def State.insertRec (s : State) (l : LevelId) (r : Rec) : State :=
  match l with
  | .cog0 c => s.insert0 c r
  | .cog1 d n => s.insert1 d n r
  | .cog2 d => s.insert2 d r

/-- `Insert` into the next level out. -/
def State.insertOut (s : State) (l : LevelId) (r : Rec) : State :=
  match l with
  | .cog0 c => s.insert1 c.die (BitVec.ofNat 6 c.cluster) r
  | .cog1 d _ => s.insert2 d r
  | .cog2 d => s.leaveDie d r

/-- Whether `Insert` has room at every run to which it gives a new key (R178). -/
def State.roomStep (out : Rec → Bool) (s : State) (l : LevelId) (r : Rec) : Bool :=
  match s.heldAt l r.key with
  | none => decide ((s.run l).recs.length < levelCap l)
  | some r1 => match combine r1 r with
    | some _ => true
    | none => out r1

def State.room2 (s : State) (d : BitVec 3) (r : Rec) : Bool := State.roomStep (fun _ => true) s (.cog2 d) r
def State.room1 (s : State) (d : BitVec 3) (n : BitVec 6) (r : Rec) : Bool :=
  State.roomStep (fun x => s.room2 d x) s (.cog1 d n) r
def State.room0 (s : State) (c : CoreId) (r : Rec) : Bool :=
  State.roomStep (fun x => s.room1 c.die (BitVec.ofNat 6 c.cluster) x) s (.cog0 c) r
def State.room (s : State) (l : LevelId) (r : Rec) : Bool :=
  match l with
  | .cog0 c => s.room0 c r
  | .cog1 d n => s.room1 d n r
  | .cog2 d => s.room2 d r
def State.roomOut (s : State) (l : LevelId) (r : Rec) : Bool :=
  match l with
  | .cog0 c => s.room1 c.die (BitVec.ofNat 6 c.cluster) r
  | .cog1 d _ => s.room2 d r
  | .cog2 _ => true

-- scopes (R152, R172)

/-- The levels inside level(S) of a core's path, innermost first. -/
def inside (c : CoreId) (scope : BitVec 3) : List LevelId :=
  match scope.toNat with
  | 0 => []
  | 1 => [level0 c]
  | 2 => [level0 c, level1 c]
  | _ => [level0 c, level1 c, level2 c]

/-- level(S) where it is a run; none where it is the base. -/
def levelOf (c : CoreId) (scope : BitVec 3) : Option LevelId :=
  match scope.toNat with
  | 0 => some (level0 c)
  | 1 => some (level1 c)
  | 2 => some (level2 c)
  | _ => none

/-- A record moved one level out, where there is room (R178). -/
def State.moveOut (s : State) (l : LevelId) (r : Rec) : Option State :=
  let t := s.removeRec l r.key
  if t.roomOut l r then some (t.insertOut l r) else none

/-- `Evict` over some levels (R172), with how many of them moved a record (R201); none where a step waits for room. -/
def State.evictFrom (s : State) (key : Nat) : List LevelId → Option (State × Nat)
  | [] => some (s, 0)
  | l :: ls =>
    match s.heldAt l key with
    | none => s.evictFrom key ls
    | some r =>
      match s.moveOut l r with
      | none => none
      | some t => (t.evictFrom key ls).map fun x => (x.1, x.2 + 1)

/-- `Evict(key, path, upto)` (R172). -/
def State.evictKey (s : State) (c : CoreId) (scope : BitVec 3) (key : Nat) : Option (State × Nat) :=
  s.evictFrom key (inside c scope)

/-- A range of key words: pieces of physical addresses, or every key (R177, R202). -/
abbrev KeyRange := Option (List (Nat × Nat))

/-- The range selects a key word: the address of the word is in it (R177). -/
def inRange (rg : KeyRange) (key : Nat) : Bool :=
  match rg with
  | none => true
  | some ps => ps.any fun p => decide (p.1 ≤ 8 * key) && decide (8 * key < p.1 + p.2)

-- the base (R186, R195)

/-- A slot's name, which no later binding of the slot shares. -/
def slotName (c : CoreId) (k : BitVec 4) (x : Slot) : Nat := slotId c k + 131072 * x.gen.toNat

/-- The channel of a line within its die, 0 to 31 (R346, R350; log 12: DESIGN CHOICE). -/
def channelOf (line : Nat) : Nat := Config.channelOf line % 32
/-- The line of an address reads as poisoned (R186, R346). -/
def State.linePois (s : State) (pa : Nat) : Bool :=
  s.poisLines.any (fun l => decide (l = pa / 64))
    || (decide (place pa = 0) && (s.die (homeDie pa)).badChannels.any (fun c => decide (c = Machine.channelOf (pa / 64))))
/-- A key word reads as poisoned (R186); a peer's is another device's matter (R333). -/
def State.keyPois (s : State) (key : Nat) : Bool :=
  if isPeer (8 * key) then Config.peerPois s.seqno key else s.linePois (8 * key) || s.poisKeys.any fun k => decide (k = key)

/-- A number added to a rising list. -/
def insertNum (n : Nat) : List Nat → List Nat
  | [] => [n]
  | x :: l => if n < x then n :: x :: l else if n = x then x :: l else x :: insertNum n l

/-- An entry of a merge error log (R187). -/
def mergeEntry (r : Rec) (cause : BitVec 4) (clock : Nat) : List Word :=
  [r.value, r.mask ++ BitVec.ofBool r.k ++ r.w ++ r.op ++ BitVec.ofNat 49 r.key,
   BitVec.ofNat 32 clock ++ r.src ++ r.ctx ++ cause ++ (0 : BitVec 6) ++ r.skind ++ (1 : BitVec 1), 0]

/-- A merge fault logged at the home die (R187). -/
def State.logMerge (s : State) (d : BitVec 3) (r : Rec) (cause : BitVec 4) : State :=
  let (l, s) := s.logWrite d (s.die d).merges 129 (mergeEntry r cause (s.die d).clock)
  s.setDie d { s.die d with merges := l }

/-- `ApplyToBase(r)` (R186) at a die: its home, or the die of the host agent (R336). -/
def State.applyToBase (s : State) (d : BitVec 3) (r : Rec) : State :=
  if s.keyPois r.key then s.logMerge d r 1
  else
    let (v, fl) := r.apply (s.baseWord r.key)
    let s := (s.writeMem (8 * r.key) v.toNat 8).raiseM r.ctx fl
    if r.pois then ({ s with poisKeys := insertNum r.key s.poisKeys }).logMerge d r 2 else s

/-- A record for a line has left a die's cog 2 and is on its way to its home. -/
def State.lineMoving (s : State) (d : BitVec 3) (line : Nat) : Bool :=
  s.transit.any fun t => decide (t.src = d.toNat) && !t.r.eng && decide (t.r.key / 8 = line)

/-- Records that dies have accepted and not yet applied, and those that the host has not completed or a peer not applied (R221, R333). -/
def State.acceptedRecs (s : State) : List Accepted :=
  s.dies.toList.flatMap (fun d => d.acceptq ++ d.hostq ++ d.hostGo) ++ s.peerq
/-- Records of some numbers are on their way, or accepted and not yet applied (R221). -/
def State.unapplied (s : State) (ids : List Nat) : Bool :=
  s.transit.any (fun t => ids.contains t.id) || s.acceptedRecs.any fun a => ids.contains a.id
/-- A record holds an access of one of some slots, or was moved or written for one (R205, R214). -/
def Rec.of (r : Rec) (names : List Nat) : Bool := (r.movers ++ r.srcs).any fun n => names.contains n
/-- A record of some slots' accesses has left its die and has not been accepted (R214). -/
def State.unaccepted (s : State) (names : List Nat) : Bool := s.transit.any fun t => !t.r.eng && t.r.of names
/-- A record of some slots' accesses has been accepted and not yet applied (R221). -/
def State.unappliedOf (s : State) (names : List Nat) : Bool := s.acceptedRecs.any fun a => !a.r.eng && a.r.of names
/-- An engine's record of some slots is on its way, or accepted and not yet applied (R205, R219). -/
def State.engineWaits (s : State) (names : List Nat) : Bool :=
  s.transit.any (fun t => t.r.eng && t.r.of names) || s.acceptedRecs.any fun a => a.r.eng && a.r.of names
/-- An operator that raises flags at a merge: FADD, FMIN and FMAX (R46, R183). -/
def raisesFlags (op : BitVec 4) : Bool := decide (op = 2 ∨ op = 7 ∨ op = 8)
/-- A record of some slots in a range, which may raise a flag at its merge with the base, is accepted and not applied: a DRAIN of it that reaches the base
does not end before (R45, R184; log 87: DEDUCED). -/
def State.flagsDue (s : State) (scope : BitVec 3) (rg : Option (List (Nat × Nat))) (names : List Nat) : Bool :=
  decide (3 ≤ scope.toNat) && s.dies.any fun d => (d.acceptq ++ d.hostq).any fun a =>
    !a.r.eng && a.r.of names && raisesFlags a.r.op && inRange rg a.r.key

-- folding (R173)

/-- A record of a level applied to a word and its poison. -/
def foldStep (o : Option Rec) (v : Word × Bool) : Word × Bool :=
  match o with
  | none => v
  | some r => ((r.apply v.1).1, v.2 || r.pois)

/-- The records of some levels, innermost first, applied outermost first (R173). (log 24: DEDUCED) -/
def State.foldLevels (s : State) (key : Nat) (v : Word × Bool) : List LevelId → Word × Bool
  | [] => v
  | l :: ls => foldStep (s.heldAt l key) (s.foldLevels key v ls)

/-- Every level of a core's path. -/
def path (c : CoreId) : List LevelId := [level0 c, level1 c, level2 c]

-- passes (R177)

/-- The watermark of a level (R17, R177); 48 for the cog 0 of a core to which no block is bound, which neither rule gives (log 89: DESIGN CHOICE). -/
def State.watermark (s : State) : LevelId → Nat
  | .cog0 c => match (s.core c).table.filter fun e => !e.2.held with
    | [] => 48
    | e :: es => es.foldl (fun n b => min n b.2.cwm.toNat) e.2.cwm.toNat
  | .cog1 _ _ => 3072
  | .cog2 _ => 196608

/-- The derailleur of a level works: its die is not held (R346), and for cog 0 and cog 1 its core clocks run (R355). -/
def State.moves (s : State) (l : LevelId) : Bool :=
  let d := s.die (levelDie l)
  !d.held && (decide (levelNum l = 2) || !d.stopped)

/-- How many records a pass may move in one cycle (R177). -/
def passRate (l : LevelId) : Nat := if levelNum l = 2 then 4 else 1
/-- The cycle of a level's die. -/
def State.now (s : State) (l : LevelId) : Nat := (s.die (levelDie l)).clock

/-- A pass starts at a level; its moves begin in the next cycle (R177). -/
def State.startPass (s : State) (l : LevelId) (p : Pass) : State :=
  s.setRun l { s.run l with pass := some p, lastMove := s.now l, moves := passRate l, yields := 0 }

/-- R177: a pass starts when the count is at the watermark. -/
def tryWatermarkPassStart (l : LevelId) (s : State) : Option State :=
  let r := s.run l
  if s.moves l && r.pass.isNone && decide (s.watermark l ≤ r.recs.length) then some (s.startPass l {}) else none
def execWatermarkPassStart (l : LevelId) (s : State) : Out := orSame s (tryWatermarkPassStart l s)

/-- R177: a pass starts after 2,048 cycles without an insertion. -/
def tryIdlePassStart (l : LevelId) (s : State) : Option State :=
  let r := s.run l
  if s.moves l && r.pass.isNone && decide (r.recs ≠ []) && decide (r.lastIns + 2048 ≤ s.now l) then some (s.startPass l {}) else none
def execIdlePassStart (l : LevelId) (s : State) : Out := orSame s (tryIdlePassStart l s)

/-- A pass selects a record (R177). -/
def Pass.selects (p : Pass) (r : Rec) : Bool :=
  match p.sel with
  | none => true
  | some (n, rg) => decide (r.ctx = n) && inRange rg r.key

/-- The pass of a level after a move of a key: its cursor, or its end where nothing that it selects lies above (R177). -/
def State.cursorPast (s : State) (l : LevelId) (p : Pass) (key : Nat) : State :=
  let r := s.run l
  let more := r.recs.any fun x => decide (key < x.key) && p.selects x
  s.setRun l { r with pass := if more then some { p with cursor := key + 1 } else none }

/-- A pass yields this cycle to the lookups of loads at its level, but not a fourth time in a row (R294). -/
def Run.mustYield (r : Run) (now : Nat) : Bool :=
  decide (r.looked = now + 1) && !(decide (3 ≤ r.yields) && decide (r.yieldAt = now))
/-- The run after a yield. -/
def Run.yielded (r : Run) (now : Nat) : Run :=
  { r with yieldAt := now + 1, yields := if r.yieldAt = now then r.yields + 1 else 1 }

/-- R177: the pass of a level moves the record at its cursor, marked with those who asked for the pass; in a cycle with lookups at the level it
yields instead (R294). -/
def tryDerailleurMove (l : LevelId) (s : State) : Option State :=
  let r := s.run l
  let now := s.now l
  match r.pass with
  | none => none
  | some p =>
    if !s.moves l then none
    else if r.mustYield now then (if r.yieldAt = now + 1 then none else some (s.setRun l (r.yielded now)))
    else
      match r.recs.find? fun x => decide (p.cursor ≤ x.key) && p.selects x with
      | none => some (s.setRun l { r with pass := none })
      | some x =>
        let moved := if r.lastMove = now then r.moves else 0
        if passRate l ≤ moved then none
        else
          let t := s.setRun l { r with lastMove := now, moves := moved + 1 }
          (t.moveOut l { x with movers := (x.movers ++ p.who).eraseDups }).map fun u => u.cursorPast l p x.key
def execDerailleurMove (l : LevelId) (s : State) : Out := orSame s (tryDerailleurMove l s)

/-- A load may look a level up in this cycle: no pass runs there, or the pass has not moved in it and has no right to it (R294). -/
def State.mayLook (s : State) (l : LevelId) : Bool :=
  let r := s.run l
  r.pass.isNone || !((decide (r.lastMove = s.now l) && decide (0 < r.moves)) || (decide (3 ≤ r.yields) && decide (r.yieldAt = s.now l)))
/-- A load looks the levels of a path up: a pass there sees it (R294). -/
def State.lookUp (s : State) : List LevelId → State
  | [] => s
  | l :: ls =>
    let t := if (s.run l).pass.isSome then s.setRun l { s.run l with looked := s.now l + 1 } else s
    t.lookUp ls

-- draining (R177, R199)

/-- One step of `Drain(ctx, path, upto, range)` (R177), from where it stands: at each level inside the scope, innermost first, a pass over what
it selects, once the pass that runs there is over; a level with nothing to select is passed by (log 85: DEDUCED). None where it must wait. -/
def State.drainStep (s : State) (c : CoreId) (n : BitVec 6) (scope : BitVec 3) (rg : KeyRange) (who : List Nat) :
    DrainSt → Option (DrainSt × State)
  | .todo => some (.level 0 none, s)
  | .sent => none
  | .level i (some id) =>
    match (inside c scope)[i]? with
    | none => some (.sent, s)
    | some l => if (s.run l).pass.any (fun p => decide (p.id = id)) then none else some (.level (i + 1) none, s)
  | .level i none =>
    match (inside c scope)[i]? with
    | none => some (.sent, s)
    | some l =>
      let p : Pass := { id := s.seqno, sel := some (n, rg), who := who }
      if !(s.run l).recs.any p.selects then some (.level (i + 1) none, s)
      else if (s.run l).pass.isSome || !s.moves l then none
      else some (.level i (some s.seqno), s.tick1.startPass l p)

/-- Nothing is left to move at the levels inside a scope. -/
def State.drained (s : State) (c : CoreId) (n : BitVec 6) (scope : BitVec 3) (rg : KeyRange) : Bool :=
  (inside c scope).all fun l => !(s.run l).recs.any fun r => decide (r.ctx = n) && inRange rg r.key

/-- Step 3 of R199 has what it waits for, with its steps at `system` scope (R214, R221): no record of the slots is short of its home. -/
def State.released (s : State) (scope : BitVec 3) (names : List Nat) : Bool :=
  decide (scope.toNat < 3) || (!s.unaccepted names && (decide (scope ≠ 4) || !s.unappliedOf names))

-- acceptance and application (R195, R378)

/-- The rank of a source in the round after the source granted last (R294): the eight dies, the 32 spokes, the host. -/
def turnOf (last src : Nat) : Nat := (src + 40 - last % 41) % 41

/-- A record is granted acceptance at a home die (R294): one record in a cycle, the sources in turn among those with a record waiting there. A die's own
engines and hub are one source with its cog 2 (log 20: DEDUCED). -/
def State.granted (s : State) (home : BitVec 3) (t : Transit) : Bool :=
  let h := s.die home
  decide (h.accAt ≤ h.clock)
    && !s.transit.any fun u => u.arrived && decide (place (8 * u.r.key) = 0) && decide (homeDie (8 * u.r.key) = home)
        && decide (turnOf h.accLast u.src < turnOf h.accLast t.src)

/-- A record goes to its home after another on its way: an earlier one of its key from its source, or one that it must follow (R175, R295). -/
def Transit.follows (t u : Transit) : Bool := decide (u.src = t.src ∧ u.r.eng = t.r.eng ∧ u.r.key = t.r.key)

/-- R195, R175: the n-th record on its way is accepted at its home, after those that it follows; at a die of this device by
R294's grants, for which it may have to wait. A held home die accepts nothing (R347). (log 20: DEDUCED) -/
def tryRecordAccept (n : Nat) (s : State) : Option State :=
  match takeNth n s.transit with
  | none => none
  | some (t, rest) =>
    let pa := 8 * t.r.key
    if (s.transit.take n).any t.follows || s.unapplied t.after then none
    else if isHost pa then
      if !s.hostUp t.die then none else some ({ s with transit := rest }.acceptAs t.id t.die t.r)
    else if isPeer pa then
      if s.peerLive t.die pa then some ({ s with transit := rest }.acceptAs t.id t.die t.r) else none
    else
      let home := homeDie pa
      let h := s.die home
      if h.held then none
      else if s.granted home t then
        some (({ s with transit := rest }.setDie home { h with accLast := t.src, accAt := h.clock + 1 }).acceptAs t.id t.die t.r)
      else if t.arrived then none
      else some { s with transit := setNth n { t with arrived := true } s.transit }
def execRecordAccept (n : Nat) (s : State) : Out := orSame s (tryRecordAccept n s)

/-- R338: the home die may change a line: no host copy is left of it; else the snoop is sent, or its answer is awaited. -/
inductive Snoop where
  | free
  | wait
  | sent (s : State)

def State.snoopLine (s : State) (line : Nat) : Snoop :=
  let d := homeDie (64 * line)
  let x := s.die d
  if !x.snoop.contains line then .free
  else if x.snooped.contains line then .wait
  else .sent (s.setDie d { x with snooped := insertNum line x.snooped })

/-- The engine writes of which a die has applied a record and has another still to apply, after one of a write `unit` (R338). -/
def State.begunAfter (s : State) (d : BitVec 3) (unit : Nat) (rest : List Accepted) : List Nat :=
  (if unit = 0 then (s.die d).begun else insertNum unit (s.die d).begun).filter fun u =>
    rest.any (fun a => decide (a.r.unit = u)) || s.transit.any fun t => decide (t.r.unit = u)

/-- A line of device memory of which an engine write has been applied in part (R338). -/
def State.halfWritten (s : State) (line : Nat) : Bool :=
  let x := s.die (homeDie (64 * line))
  let hit (r : Rec) : Bool := decide (r.key / 8 = line) && x.begun.contains r.unit
  x.acceptq.any (fun a => hit a.r) || s.transit.any fun t => hit t.r

/-- R186, R195: the oldest accepted record of a die is applied, once no host copy of its line is left (R338). A die that is held applies what it has
accepted, which is in none of its runs (R346, R348; log 16: DEDUCED). -/
def tryApplyToBase (d : BitVec 3) (s : State) : Option State :=
  let x := s.die d
  match x.acceptq with
  | [] => none
  | a :: rest =>
    match s.snoopLine (a.r.key / 8) with
    | .wait => none
    | .sent t => some t
    | .free => (s.openRow (a.r.key / 8) a.id).map fun t =>
      (t.setDie d { t.die d with acceptq := rest, begun := s.begunAfter d a.r.unit rest }).applyToBase d a.r
def execApplyToBase (d : BitVec 3) (s : State) : Out := orSame s (tryApplyToBase d s)

/-- R157: a core may drop any snapshot at any time. -/
def tryL1SnapshotDrop (c : CoreId) (line : Nat) (s : State) : Option State :=
  if (s.core c).l1.any fun e => decide (e.line = line) then some (s.setCore c ((s.core c).dropLine line)) else none
def execL1SnapshotDrop (c : CoreId) (line : Nat) (s : State) : Out := orSame s (tryL1SnapshotDrop c line s)

end Sys2Proof.Machine
end

