-- ==== Sys2Proof/Machine/Memory.lean ====
section
/-! DEFINITION. Global loads, updates and returning atomics (spec/09 R188 to R201, R210): their checks at issue, the hold queue, the
return and the performing of a load, and the steps that finish what an issue began. -/

namespace Sys2Proof.Machine

-- addresses (R189, R190)

/-- The key words that some bytes cover. -/
def keysOf (pa size : Nat) : List Nat := (List.range ((pa + size - 1) / 8 - pa / 8 + 1)).map fun i => pa / 8 + i

/-- The first address that is not aligned to a size (R190 step 2). -/
def firstMisaligned (size : Nat) (eas : List Word) : Option Word := eas.find? fun a => decide (a.toNat % size ≠ 0)

/-- The outcome of the translation of several addresses. -/
inductive Places where
  | ok (pas : List Nat)
  | miss (s : State)
  | fault (s : State) (cause : Byte) (va : Word)

/-- Addresses translated in order; the first that waits or faults decides (R190 step 4, R210). -/
def State.trList (s : State) (n : Need) : List Word → Places
  | [] => .ok []
  | a :: as =>
    match s.tr a n with
    | .miss t => .miss t
    | .fault t cause => .fault t cause a
    | .ok pa =>
      match s.trList n as with
      | .ok ps => .ok (pa :: ps)
      | .miss t => .miss t
      | .fault t cause va => .fault t cause va

/-- The checks of R190 from alignment on, then what the access does with its addresses. (log 39: DEDUCED) -/
def State.atPlaces (s : State) (n : Need) (size : Nat) (eas : List Word) (k : List Nat → Res) : Res :=
  match firstMisaligned size eas with
  | some a => .trap s causeMisaligned a
  | none =>
    match s.trList n eas with
    | .miss t => .lostWith t
    | .fault t cause va => .fault t cause va n.kind
    | .ok pas => k pas

/-- A destination that no instruction of spec/09 may have (R188). -/
def noDst (d : GIx) : Bool := decide (d = 60 ∨ d = 61 ∨ d = 62)
/-- The destination as a register written; none where it is an illegal one. -/
def gDst (d : GIx) : List RegId := if noDst d then [] else [.g d]

/-- The trap of an illegal destination, which is the chapter's own (R95 step 6, R188). -/
def State.withDst (s : State) (d : GIx) (r : Res) : Res := if noDst d then .trap s causeOperand 0 else r
/-- The operand limit of LDX and UPDX: even, at most 58 (R95 step 3). -/
def pairBad (d : GIx) : Bool := decide (d.toNat % 2 = 1) || decide (58 < d.toNat)

/-- The element addresses of a gather or scatter (R189). -/
def State.elemAddrs (s : State) (w : BitVec 2) (va : VIx) (b : GIx) (disp : BitVec 32) : List Word :=
  (unpackBits (elemBits w) (32 / elemBytes w) (s.cs.readV va).toNat).map fun o => s.g b + BitVec.ofNat 64 o + disp.signExtend 64

-- the hold queue (R28, R196, R199)

/-- The entry is a release update (R199). -/
def Held.isRelease (h : Held) : Bool :=
  match h.op with
  | .load _ => false
  | .upd _ scope _ => decide (scope ≠ 0)

/-- The lowest free tag (R23). -/
def Slot.freeTag (x : Slot) : Nat := ((List.range 8).find? fun t => (Sparse.find x.tags t).isNone).getD 0
/-- Every tag is busy. -/
def Slot.noTag (x : Slot) : Bool := (List.range 8).all fun t => (Sparse.find x.tags t).isSome
/-- The hold queue has its 8 entries (R11). -/
def Slot.holdFull (x : Slot) : Bool := decide (8 ≤ x.hold.length)

/-- The wait that needs no address: the hold queue is full, and the access must enter it for its mask, behind a release update, or as one
(R28, R196, R199). That it must for a key word it overlaps shows once it is translated (log 31: DEDUCED). -/
def Slot.holdWait (x : Slot) (gd : Guard) (reads : List RegId) (scope : BitVec 3 := 0) : Bool :=
  x.holdFull && (decide (x.taints (.p gd.p :: reads) ||| x.ctaint ≠ 0) || x.hold.any Held.isRelease || decide (scope ≠ 0))

/-- The key words of a load. -/
def Load.keys (l : Load) : List Nat := l.elems.flatMap fun e => keysOf e.pa e.size
/-- The loads in flight that some key words overlap, as bits (R212). -/
def Slot.overlapped (x : Slot) (keys : List Nat) : Byte :=
  x.tags.foldl (fun a e => if e.2.keys.any fun n => keys.contains n then a ||| BitVec.ofNat 8 (2 ^ e.1) else a) 0

/-- Whether an access with a mask must enter the hold queue, its mask joined with those of the entries it overlaps (R28, R196, R199),
and the loads that those entries wait for (R212). (log 31: DEDUCED) -/
def Slot.holdFor (x : Slot) (keys : List Nat) (mask : Byte) : Bool × Byte × Byte :=
  let ov := x.hold.filter fun h => h.keys.any fun n => keys.contains n
  (decide (mask ≠ 0) || decide (ov ≠ []) || x.hold.any Held.isRelease, ov.foldl (fun m h => m ||| h.mask) mask,
    ov.foldl (fun m h => m ||| h.after) 0)

/-- A load's entry in the tag table changed. -/
def Slot.setLoad (x : Slot) (tag : Nat) (l : Load) : Slot := { x with tags := Sparse.set x.tags tag l }

/-- An atomic begins: it evicts its key from the levels inside its scope, where there is room (R180). -/
def State.beginAtomic (s : State) (c : CoreId) (k : BitVec 4) (tag : Nat) (l : Load) : State :=
  match l.kind, l.elems with
  | .atom _, [e] =>
    match s.evictKey c l.scope (e.pa / 8) with
    | none => s
    | some (t, n) => t.setSlot c k ((t.slot c k).setLoad tag { l with moves := l.moves + n })
  | .cas _ _, [e] =>
    match s.evictKey c l.scope (e.pa / 8) with
    | none => s
    | some (t, n) => t.setSlot c k ((t.slot c k).setLoad tag { l with moves := l.moves + n })
  | _, _ => s

/-- A load takes its tag and starts, or is held (R23, R28, R190 step 5). -/
def State.takeLoad (s : State) (env : Env) (kind : LoadKind) (dst : List RegId) (t : MemT) (size : Nat) (pas : List Nat) : Res :=
  let x := s.cs
  let keys := pas.flatMap fun pa => keysOf pa size
  let (hold, mask, after) := x.holdFor keys (env.taint ||| x.ctaint)
  if hold && x.holdFull then .lost
  else
    let tag := x.freeTag
    let l : Load :=
      { id := s.seqno, kind := kind, dst := dst, elems := pas.map fun pa => { pa := pa, size := size }, scope := t.scope, w := t.w,
        sext := t.k, taint := env.taint, issued := s.clock s.cc, left := s.seqno, horizon := x.horizon,
        st := if hold then .held else .going }
    let y := (dst.foldl (fun y r => y.setPend true r) x).setLoad tag l
    if hold then
      let h : Held := { id := s.seqno, mask := mask, loads := x.busyTags, after := after, keys := keys, op := .load (BitVec.ofNat 3 tag) }
      .done (s.tick1.setCs { y with hold := y.hold ++ [h] })
    else .done ((s.tick1.setCs y).beginAtomic s.cc s.cur.2 tag l)

-- snapshots and bases (R157, R160, R173, R194, R195, R213)

/-- The bytes of a line of the base image (R152). -/
def State.lineBytes (s : State) (line : Nat) : List Byte :=
  (List.range 8).flatMap fun i =>
    let w := s.baseWord (8 * line + i)
    (List.range 8).map fun j => w.extractLsb' (8 * j) 8
/-- The poison of its key words. -/
def State.lineKeyPois (s : State) (line : Nat) : Byte :=
  (List.range 8).foldl (fun m i => if s.keyPois (8 * line + i) then m ||| (1 <<< i) else m) 0
/-- A key word of a snapshot, with its poison. -/
def Snapshot.word (x : Snapshot) (key : Nat) : Word × Bool :=
  ((List.range 8).foldl (fun v j => v ||| ((x.bytes[8 * (key % 8) + j]?.getD 0).setWidth 64 <<< (8 * j))) 0, x.pois.getLsbD (key % 8))

/-- Rotations of a base term, for a read that leaves at a moment (R160, R333, R336). -/
def homeRot (d : BitVec 3) (pa moment : Nat) : Nat :=
  if isHost pa then 169 else if isPeer pa then 113 else if !Config.cached (pa / 64) moment then 40 else if homeDie pa = d then 12 else 20
/-- The filter of a level answers that a record of a line may be there (R156). -/
def State.present (s : State) (line : Nat) (l : LevelId) : Bool := (s.run l).recs.any fun r => decide (r.key / 8 = line)
/-- The additions of the presence filters, for a line with a record at the level (R156, R160). -/
def State.filterRot (s : State) (c : CoreId) (line : Nat) : Nat :=
  (if s.present line (level1 c) then 1 else 0) + (if s.present line (level2 c) then 3 else 0)
/-- The levels that a load of a line looks up: cog 0, and of cog 1 and cog 2 those whose filter answers present (R156, R294). -/
def State.lookPath (s : State) (c : CoreId) (line : Nat) : List LevelId := level0 c :: [level1 c, level2 c].filter (s.present line)

/-- The snapshot a read may use (R194, R213). -/
def State.snapshotFor (s : State) (c : CoreId) (scope : BitVec 3) (fresh : Bool) (horizon line : Nat) : Option Snapshot :=
  (s.core c).l1.find? fun e =>
    decide (e.line = line) && decide (e.ready ≤ s.instant c) && (decide (scope.toNat < 3) || (!fresh && decide (horizon ≤ e.left)))

/-- The home of a line answers a read (R195, R331, R336, R347). -/
def State.homeReady (s : State) (c : CoreId) (line : Nat) : Bool :=
  let pa := 64 * line
  !s.lineWaits line && !(decide (place pa = 0) && (s.die (homeDie pa)).held) && (!isPeer pa || s.peerLive c.die pa)
    && (!isHost pa || s.hostUp c.die)

/-- A line read from its home fills the L1, which holds 1,024 lines and gives up the oldest (R14, R157; log 19: DESIGN CHOICE); host memory never
does (R336). -/
def State.fillL1 (s : State) (c : CoreId) (line left : Nat) (ready : Nat := 0) : State :=
  if isHost (64 * line) then s
  else
    let x := (s.core c).dropLine line
    let e : Snapshot := { line := line, bytes := s.lineBytes line, pois := s.lineKeyPois line, left := left, ready := ready }
    s.setCore c { x with l1 := x.l1.drop (x.l1.length + 1 - 1024) ++ [e] }

/-- 200 µs have passed since a read left (R333, R347). -/
def State.late (s : State) (c : CoreId) (issued : Nat) : Bool := decide (issued + 600000 ≤ s.instant c)

/-- A read of one piece at its instant: the value, its poison, whether a snapshot served it, and the machine after it; none where
it cannot return yet. A load that folds waits for its die's records of the line that are on their way; an LDRO does not, and then fills
nothing (R158, R174). (log 23: DEDUCED) -/
def State.readPiece (s : State) (c : CoreId) (l : Load) (ro : Bool) (pa size : Nat) : Option (Nat × Bool × Bool × State) :=
  let line := pa / 64
  let fold (base : Nat → Word × Bool) : Nat × Bool :=
    let ws := (keysOf pa size).map fun n => if ro then base n else s.foldLevels n (base n) (path c)
    let all := ws.foldr (fun w a => w.1.toNat + 2 ^ 64 * a) 0
    (all / 2 ^ (8 * (pa % 8)) % 2 ^ (8 * size), ws.any fun w => w.2)
  let since (rot : Nat) : Bool := decide (l.issued + 16 * (rot + if ro then 0 else s.filterRot c line) ≤ s.instant c)
  let looked (t : State) : State := if ro then t else t.lookUp (s.lookPath c line)
  if !ro && !(s.lookPath c line).all s.mayLook then none
  else
    match if isHost pa then none else s.snapshotFor c l.scope l.fresh l.horizon line with
    | some e =>
      if since 2 then
        let v := fold e.word
        some (v.1, v.2, true, looked s)
      else none
    | none =>
      let moving := s.lineMoving c.die line
      if since (homeRot c.die pa l.left) && s.homeReady c line && (ro || !moving) && !(isPeer pa && s.late c l.issued) then
        (s.openRow line l.left).map fun t =>
          let v := fold fun n => (s.baseWord n, s.keyPois n)
          (v.1, v.2, false, looked (if moving then t.tick1 else t.tick1.fillL1 c line l.left))
      else none

-- return and perform (R22, R24, R25)

/-- The taints that an instruction holding its slot keeps, without some bits. -/
def Busy.clear (m : Byte) : Busy → Busy
  | .image w k i ws lf => .image w (k &&& m) i ws lf
  | .tld t k i ws lf => .tld t (k &&& m) i ws lf
  | .cpy d im prec since => .cpy d im prec since
  | .drain scope range fence ph id => .drain scope range fence ph id
  | .fenceApply => .fenceApply
  | .bsld ix vals => .bsld ix vals
  | .dsmode gs => .dsmode gs

/-- A register without some taint bits. -/
def Reg.clear {w : Nat} (m : Byte) (r : Reg w) : Reg w := { r with taint := r.taint &&& m }

/-- `Perform(t)` on the slot's masks (R25). -/
def Slot.performTag (x : Slot) (t : BitVec 3) : Slot :=
  let m : Byte := ~~~(1 <<< t.toNat)
  { x with
    g := x.g.map (Reg.clear m)
    p := x.p.map (Reg.clear m)
    v := x.v.map (Reg.clear m)
    m := x.m.map (Reg.clear m)
    ctaint := x.ctaint &&& m
    tags := (Sparse.del x.tags t.toNat).map fun e => (e.1, { e.2 with taint := e.2.taint &&& m })
    hold := x.hold.map fun h => { h with mask := h.mask &&& m, loads := h.loads &&& m, after := h.after &&& m }
    longs := x.longs.map fun r => { r with taint := r.taint &&& m }
    busy := x.busy.map (Busy.clear m)
    hubcalls := x.hubcalls.map fun h => (h.1, h.2.1, h.2.2.1, h.2.2.2 &&& m) }

/-- A load that has an answer from the home of device memory or of a peer at `device` or `system` scope (R213, R334). -/
def Load.movesHorizon (l : Load) : Bool :=
  decide (3 ≤ l.scope.toNat) && l.elems.any fun e => !isHost e.pa && !e.lost

/-- The horizon of a slot moves to a moment, for the loads that it issued after the one that moves it too (R213). -/
def Slot.moveHorizon (x : Slot) (l : Load) : Slot :=
  { x with
    horizon := max x.horizon l.left
    tags := x.tags.map fun e => if l.id < e.2.id then (e.1, { e.2 with horizon := max e.2.horizon l.left }) else e }

/-- A load performs: the horizon moves, and its tag is cleared everywhere (R25, R213). -/
def State.perform (s : State) (c : CoreId) (k : BitVec 4) (tag : BitVec 3) (l : Load) : State :=
  let x := s.slot c k
  let x := if l.movesHorizon then x.moveHorizon l else x
  s.setSlot c k (x.performTag tag)

/-- The value of a load of one piece, extended (R188). -/
def Load.ext (l : Load) (v : Nat) : Nat :=
  if l.sext && decide (2 ^ (elemBits l.w - 1) ≤ v) then v + 2 ^ 64 - 2 ^ elemBits l.w else v

/-- The registers' values once every piece is read. -/
def Load.values (l : Load) : List VWord :=
  let got := l.elems.map fun e => (e.got.getD (0, false)).1
  match l.kind, l.dst with
  | .gather, _ => [BitVec.ofNat 256 (packBits (elemBits l.w) got)]
  | _, [_, _] => got.flatMap fun v => [BitVec.ofNat 256 (v % 2 ^ 64), BitVec.ofNat 256 (v / 2 ^ 64)]
  | _, [.v _] => got.map fun v => BitVec.ofNat 256 v
  | _, _ => got.map fun v => BitVec.ofNat 256 (l.ext v)

/-- The poison of the operands that an atomic read at its issue, which its record holds (R29, R200). -/
def LoadKind.operandPois : LoadKind → Bool
  | .ld => false
  | .ldro => false
  | .gather => false
  | .atom r => r.pois
  | .cas _ r => r.pois

/-- A load returns: its destinations take their values with the taint of R24 and the poison of what was read (R29, R192); that of an atomic also
with the poison of its data and compare operands, which it read (R29; log 76: DEDUCED). -/
def State.writeLoad (s : State) (tag : BitVec 3) (l : Load) : State :=
  let t := l.taint ||| (1 <<< tag.toNat)
  let po := l.kind.operandPois || l.elems.any fun e => (e.got.getD (0, false)).2
  (l.dst.zip l.values).foldl (fun s x => s.putReg x.1 x.2 t po) s

/-- Every piece has been read. -/
def Load.complete (l : Load) : Bool := l.elems.all fun e => e.got.isSome

/-- A load whose pieces are all read returns; it performs at once, or waits for the validation of its snapshots (R194). -/
def State.finishLoad (s : State) (c : CoreId) (k : BitVec 4) (tag : BitVec 3) (l : Load) : State :=
  if !l.complete then s.setSlot c k ((s.slot c k).setLoad tag.toNat l)
  else
    let s := { ({ s with cur := (c, k) }.writeLoad tag l) with cur := s.cur }
    if l.valid = [] then s.perform c k tag l
    else s.setSlot c k ((s.slot c k).setLoad tag.toNat { l with st := .returned })

/-- Rotations of an atomic at its scope, once its evictions are counted (R201). -/
def atomRot (d : BitVec 3) (scope : BitVec 3) (pa moment : Nat) : Nat :=
  match scope.toNat with
  | 0 => 2
  | 1 => 3
  | 2 => 5
  | _ => homeRot d pa moment

/-- An earlier load of the slot that a load overlaps has not performed: the later one reads nothing yet (R212). -/
def Slot.mustWait (x : Slot) (l : Load) : Bool :=
  x.tags.any fun e => decide (e.2.id < l.id) && e.2.keys.any fun n => l.keys.contains n

/-- A plain load's piece is read, and the load returns with its last one. -/
def State.returnPiece (s : State) (c : CoreId) (k : BitVec 4) (tag : BitVec 3) (n : Nat) (l : Load) (ro : Bool) : Option State :=
  match l.elems[n]? with
  | none => none
  | some e =>
    if e.got.isSome || (s.slot c k).mustWait l then none
    else
      match s.readPiece c l ro e.pa e.size with
      | none => none
      | some (v, po, snap, t) =>
        let valid := if snap && decide (3 ≤ l.scope.toNat) then insertNum (e.pa / 64) l.valid else l.valid
        some (t.finishLoad c k tag { l with elems := setNth n { e with got := some (v, po) } l.elems, valid := valid })

/-- R22, R173, R192, R194: a load reads piece `n` at its instant; with the last piece it returns. -/
def tryLoadReturn (c : CoreId) (k : BitVec 4) (tag : BitVec 3) (n : BitVec 3) (s : State) : Option State :=
  match Sparse.find (s.slot c k).tags tag.toNat with
  | none => none
  | some l =>
    if l.st ≠ .going || !s.coreRuns c then none
    else
      match l.kind, l.elems with
      | .ld, _ => s.returnPiece c k tag n.toNat l false
      | .gather, _ => s.returnPiece c k tag n.toNat l false
      | .ldro, _ => s.returnPiece c k tag n.toNat l true
      | _, e :: _ =>
        if l.complete && decide (l.issued + 16 * (atomRot c.die l.scope e.pa l.left + l.moves) ≤ s.instant c) then
          some (s.finishLoad c k tag l)
        else none
      | _, [] => none
def execLoadReturn (c : CoreId) (k : BitVec 4) (tag : BitVec 3) (n : BitVec 3) (s : State) : Out :=
  orSame s (tryLoadReturn c k tag n s)

/-- A validated snapshot: dropped where the home line differs, else renewed (R194, R213). -/
def State.validate (s : State) (c : CoreId) (left line : Nat) : State :=
  let x := s.core c
  let same (e : Snapshot) : Bool := decide (e.bytes = s.lineBytes line) && decide (e.pois = s.lineKeyPois line)
  s.setCore c { x with l1 := (x.l1.filter fun e => decide (e.line ≠ line) || same e).map fun e =>
    if e.line = line then { e with left := max e.left left } else e }

/-- The validations of some lines, each read at its home (R194, R355); none where an activate must wait. -/
def State.validateAll (s : State) (c : CoreId) (left : Nat) (lines : List Nat) : Option State :=
  (s.openRows left lines).map fun t => lines.foldl (fun t n => t.tick1.validate c left n) t

/-- The home of a line answers a validation that left at a moment (R160, R195). -/
def State.validReady (s : State) (c : CoreId) (l : Load) (line : Nat) : Bool :=
  s.homeReady c line && decide (l.issued + 16 * homeRot c.die (64 * line) l.left ≤ s.instant c)

/-- R25, R194: a load served from snapshots performs when the validations of their lines return. -/
def tryPerform (c : CoreId) (k : BitVec 4) (tag : BitVec 3) (s : State) : Option State :=
  match Sparse.find (s.slot c k).tags tag.toNat with
  | none => none
  | some l =>
    if l.st = .returned && s.coreRuns c && l.valid.all (s.validReady c l) then
      (s.validateAll c l.left l.valid).map fun t => t.perform c k tag l
    else none
def execPerform (c : CoreId) (k : BitVec 4) (tag : BitVec 3) (s : State) : Out := orSame s (tryPerform c k tag s)

/-- An address at which a read of a die may get no answer: a peer, or behind a held die (R333, R336, R347). -/
def State.mayBeLost (s : State) (d : BitVec 3) (pa : Nat) : Bool :=
  isPeer pa || (decide (place pa = 0) && (s.die (homeDie pa)).held) || (isHost pa && !s.hostUp d)

/-- R333, R347: a read of a peer that answers nothing, or of a held die, returns poison after 200 µs; its value is not stated. A
validation that gets no answer ends then too, and the load performs once the others have theirs (R194). Neither moves the horizon (R213). -/
def tryRemoteReadTimeout (c : CoreId) (k : BitVec 4) (tag : BitVec 3) (s : State) : Option State :=
  match Sparse.find (s.slot c k).tags tag.toNat with
  | none => none
  | some l =>
    let lost (e : Elem) : Bool := e.got.isNone && s.mayBeLost c.die e.pa
    if !s.late c l.issued || !s.coreRuns c then none
    else if l.st = .going && l.elems.any lost then
      let v := (Config.freeWord s.fresh).toNat
      let es := l.elems.map fun e => if lost e then { e with got := some (v % 2 ^ (8 * min e.size 8), true), lost := true } else e
      some ({ s with fresh := s.fresh + 1 }.finishLoad c k tag { l with elems := es })
    else
      let live := l.valid.filter fun n => !s.mayBeLost c.die (64 * n)
      let none_ (e : Elem) : Elem := if l.valid.contains (e.pa / 64) && s.mayBeLost c.die e.pa then { e with lost := true } else e
      if l.st = .returned && decide (live ≠ l.valid) && live.all (s.validReady c l) then
        (s.validateAll c l.left live).map fun t => t.perform c k tag { l with elems := l.elems.map none_ }
      else none
def execRemoteReadTimeout (c : CoreId) (k : BitVec 4) (tag : BitVec 3) (s : State) : Out :=
  orSame s (tryRemoteReadTimeout c k tag s)

-- the loads

/-- LD and LDRO with a destination (R192). -/
def State.loadScalar (s : State) (gd : Guard) (t : MemT) (d : GIx) (ea : MemA) (kind : LoadKind) : Out :=
  s.issue { gd := gd, len := 12, reads := memRegs ea, writes := gDst d, traps := memRegs ea } (s.cs.noTag || s.cs.holdWait gd (memRegs ea)) fun env =>
    s.withDst d (s.atPlaces needR (elemBytes t.w) [s.ea ea] fun pas => s.takeLoad env kind [.g d] t (elemBytes t.w) pas)

/-- A line prefetched into the L1 where its home can answer; a fill that must wait is as good as dropped (R157, R193). It serves from the
time on at which its read returns (R160). -/
def State.prefetchLine (s : State) (line : Nat) : State :=
  if ((s.core s.cc).l1.any fun e => decide (e.line = line)) || !s.homeReady s.cc line || s.lineMoving s.cc.die line then s
  else
    match s.openRow line s.seqno with
    | none => s
    | some t => t.tick1.fillL1 s.cc line s.seqno (s.clock s.cc + 16 * homeRot s.cc.die (64 * line) s.seqno)

/-- The prefetch form (R193). -/
def State.prefetch (s : State) (gd : Guard) (t : MemT) (ea : MemA) : Out :=
  s.issue { gd := gd, len := 12, reads := memRegs ea, writes := [], traps := memRegs ea } false fun env =>
    if (s.ea ea).toNat % elemBytes t.w ≠ 0 then .done s
    else
      match s.tr (s.ea ea) needR with
      | .miss u => .lostWith u
      | .fault u _ => .done u
      | .ok pa => if env.taint ||| s.cs.ctaint ≠ 0 then .done s else .done (s.prefetchLine (pa / 64))

/-- R192. -/
def execLd (gd : Guard) (t : MemT) (d : GIx) (ea : MemA) (s : State) : Out :=
  if d = 0 then s.prefetch gd t ea else s.loadScalar gd t d ea .ld
/-- R192: from the base image alone. -/
def execLdro (gd : Guard) (t : MemT) (d : GIx) (ea : MemA) (s : State) : Out :=
  if d = 0 then s.prefetch gd t ea else s.loadScalar gd t d ea .ldro
/-- R192: 16 bytes into two registers. -/
def execLdx (gd : Guard) (t : MemT) (d : GIx) (ea : MemA) (s : State) : Out :=
  s.issue { gd := gd, len := 12, reads := memRegs ea, writes := [.g d, .g (d + 1)], traps := memRegs ea, limit := pairBad d }
    (s.cs.noTag || s.cs.holdWait gd (memRegs ea)) fun env =>
    s.atPlaces needR 16 [s.ea ea] fun pas => s.takeLoad env .ld [.g d, .g (d + 1)] t 16 pas
/-- R192: 32 bytes. -/
def execLdv (gd : Guard) (t : MemT) (d : VIx) (ea : MemA) (s : State) : Out :=
  s.issue { gd := gd, len := 12, reads := memRegs ea, writes := [.v d], traps := memRegs ea }
    (s.cs.noTag || s.cs.holdWait gd (memRegs ea)) fun env =>
    s.atPlaces needR 32 [s.ea ea] fun pas => s.takeLoad env .ld [.v d] t 32 pas
/-- R210. -/
def execLdvGather (gd : Guard) (t : MemT) (d : VIx) (va : VIx) (b : GIx) (disp : BitVec 32) (s : State) : Out :=
  s.issue { gd := gd, len := 12, reads := [.v va, .g b], writes := [.v d], traps := [.v va, .g b] }
    (s.cs.noTag || s.cs.holdWait gd [.v va, .g b]) fun env =>
    s.atPlaces needR (elemBytes t.w) (s.elemAddrs t.w va b disp) fun pas => s.takeLoad env .gather [.v d] t (elemBytes t.w) pas

-- updates (R197, R198, R199)

/-- A record's `K` (R197). -/
def recK (op : BitVec 4) (k : Bool) : Bool := k && decide (op = 2 ∨ op = 7 ∨ op = 8 ∨ op = 12)

/-- The names of the current slot in records: its own first, then those from before a resumption. -/
def State.names (s : State) (c : CoreId) (k : BitVec 4) : List Nat := slotName c k (s.slot c k) :: (s.slot c k).moved

/-- A record of the current slot: `size` bytes at an address (R168, R197). -/
def State.slotRec (s : State) (op : BitVec 4) (w : BitVec 2) (k : Bool) (pa size v : Nat) (po : Bool) : Rec :=
  { key := pa / 8, value := BitVec.ofNat 64 (v % 2 ^ (8 * size) * 2 ^ (8 * (pa % 8))), op := op, w := w, k := recK op k,
    mask := BitVec.ofNat 8 ((2 ^ size - 1) * 2 ^ (pa % 8)), ctx := s.block.ctx, pois := po, sdie := s.cc.die,
    score := s.lnumOf s.cc, srcs := [slotName s.cc s.cur.2 s.cs] }

/-- The moments since which entries of a core's hold queues wait for room in cog 0 (R294). -/
def Core.waiters (x : Core) : List Nat := x.slots.toList.flatMap fun y => y.hold.filterMap fun h => h.since

/-- A record may enter cog 0: there is room, and for a new key no slot has waited longer (R178, R294). -/
def State.mayInsert (s : State) (c : CoreId) (since : Option Nat) (r : Rec) : Bool :=
  s.room (level0 c) r
    && ((s.heldAt (level0 c) r.key).isSome
        || !(s.core c).waiters.any fun t => match since with
            | none => true
            | some u => decide (t < u))

/-- Records inserted into cog 0 one after another as far as they may; those that are left (R178, R198). -/
def State.insertAll (s : State) (c : CoreId) (since : Option Nat) : List Rec → State × List Rec
  | [] => (s, [])
  | r :: rs => if s.mayInsert c since r then (s.insertRec (level0 c) r).insertAll c since rs else (s, r :: rs)

/-- The moment since which an update waits: kept, or now when its next record is a new key (R178). -/
def State.waitSince (s : State) (c : CoreId) (since : Option Nat) (r : Rec) : Option Nat :=
  match since with
  | some t => some t
  | none => if (s.heldAt (level0 c) r.key).isNone then some s.seqno else none

/-- A hold entry with the records an update has still to insert. -/
def State.restEntry (s : State) (c : CoreId) (h : Held) (rest : List Rec) : Held :=
  match h.op, rest with
  | .upd _ scope ph, r :: _ =>
    { h with op := .upd rest scope ph, keys := rest.map fun x => x.key, since := s.waitSince c h.since r }
  | _, _ => h

/-- A release of the current slot has nothing to wait for and nothing to move, so it completes in its issuing cycle (R199). -/
def State.releaseNow (s : State) (scope : BitVec 3) (rg : KeyRange) : Bool :=
  decide (s.cs.tags = [] ∧ s.cs.hold = []) && s.drained s.cc s.block.ctx scope rg && s.released scope (s.names s.cc s.cur.2)

/-- A record in its place among others by rising key, behind those of its key. -/
def placeByKey (r : Rec) : List Rec → List Rec
  | [] => [r]
  | x :: l => if x.key ≤ r.key then x :: placeByKey r l else r :: x :: l
/-- Records by rising key, those of one key in their order (R240). -/
def byKey (l : List Rec) : List Rec := l.foldl (fun a r => placeByKey r a) []

/-- An update with its records, in their order: inserted, or entered in the hold queue (R28, R178, R198, R199). -/
def State.issueUpdate (s : State) (env : Env) (scope : BitVec 3) (recs : List Rec) : Res :=
  let x := s.cs
  let keys := recs.map fun r => r.key
  let (hold, mask, after) := x.holdFor keys (env.taint ||| x.ctaint)
  let after := after ||| x.overlapped keys
  let h : Held := { id := s.seqno, mask := mask, loads := x.busyTags, after := after, keys := keys, op := .upd recs scope .todo }
  let enter (t : State) (e : Held) : Res := if x.holdFull then .lost else .done (t.tick1.setCs { t.cs with hold := t.cs.hold ++ [e] })
  if hold || decide (after ≠ 0) || !(decide (scope = 0) || s.releaseNow scope none) then enter s h
  else
    let (u, rest) := s.insertAll s.cc none recs
    match rest with
    | [] => .done u
    | _ => enter u (u.restEntry s.cc { h with op := .upd recs scope .sent } rest)

/-- R198. -/
def execUpd (gd : Guard) (op : BitVec 4) (t : MemT) (d : GIx) (ea : MemA) (s : State) : Out :=
  s.issue { gd := gd, len := 12, reads := memRegs ea ++ [.g d], writes := [], traps := memRegs ea }
    (s.cs.holdWait gd (memRegs ea ++ [.g d]) t.scope) fun env =>
    s.atPlaces needW (elemBytes t.w) [s.ea ea] fun pas =>
      s.issueUpdate env t.scope (pas.map fun pa => s.slotRec op t.w t.k pa (elemBytes t.w) (s.g d).toNat (s.cs.mark (.g d)).pois)
/-- R197: two key words, each record with the poison of its own data register. -/
def execUpdx (gd : Guard) (op : BitVec 4) (t : MemT) (d : GIx) (ea : MemA) (s : State) : Out :=
  s.issue { gd := gd, len := 12, reads := memRegs ea ++ [.g d, .g (d + 1)], writes := [], traps := memRegs ea, limit := pairBad d }
    (s.cs.holdWait gd (memRegs ea ++ [.g d, .g (d + 1)]) t.scope) fun env =>
    s.atPlaces needW 16 [s.ea ea] fun pas =>
      s.issueUpdate env t.scope (pas.flatMap fun pa =>
        [s.slotRec op t.w t.k pa 8 (s.g d).toNat (s.cs.mark (.g d)).pois,
         s.slotRec op t.w t.k (pa + 8) 8 (s.g (d + 1)).toNat (s.cs.mark (.g (d + 1))).pois])
/-- R197: four key words. -/
def execUpdv (gd : Guard) (op : BitVec 4) (t : MemT) (d : VIx) (ea : MemA) (s : State) : Out :=
  s.issue { gd := gd, len := 12, reads := memRegs ea ++ [.v d], writes := [], traps := memRegs ea }
    (s.cs.holdWait gd (memRegs ea ++ [.v d]) t.scope) fun env =>
    s.atPlaces needW 32 [s.ea ea] fun pas =>
      s.issueUpdate env t.scope (pas.flatMap fun pa => (List.range 4).map fun j =>
        s.slotRec op t.w t.k (pa + 8 * j) 8 ((s.cs.readV d).extractLsb' (64 * j) 64).toNat (s.cs.mark (.v d)).pois)
/-- R210: one record for each element. -/
def execUpdvScatter (gd : Guard) (op : BitVec 4) (t : MemT) (d : VIx) (va : VIx) (b : GIx) (disp : BitVec 32) (s : State) : Out :=
  s.issue { gd := gd, len := 12, reads := [.v va, .g b, .v d], writes := [], traps := [.v va, .g b] }
    (s.cs.holdWait gd [.v va, .g b, .v d] t.scope) fun env =>
    s.atPlaces needW (elemBytes t.w) (s.elemAddrs t.w va b disp) fun pas =>
      s.issueUpdate env t.scope ((pas.zip (unpackBits (elemBits t.w) (32 / elemBytes t.w) (s.cs.readV d).toNat)).map fun x =>
        s.slotRec op t.w t.k x.1 (elemBytes t.w) x.2 (s.cs.mark (.v d)).pois)

-- returning atomics (R180, R200)

/-- R200. -/
def execAtom (gd : Guard) (op : BitVec 4) (t : MemT) (d : GIx) (ea : MemA) (c : GIx) (s : State) : Out :=
  s.issue { gd := gd, len := 12, reads := memRegs ea ++ [.g c], writes := gDst d, traps := memRegs ea }
    (s.cs.noTag || s.cs.holdWait gd (memRegs ea ++ [.g c]))
    fun env => s.withDst d (s.atPlaces needRW (elemBytes t.w) [s.ea ea] fun pas =>
      let r := s.slotRec op t.w t.k (pas.headD 0) (elemBytes t.w) (s.g c).toNat (s.cs.mark (.g c)).pois
      s.takeLoad env (.atom r) [.g d] t (elemBytes t.w) pas)
/-- R200: compares gB, writes gC. -/
def execCas (gd : Guard) (t : MemT) (d : GIx) (a : GIx) (disp : BitVec 32) (b : GIx) (c : GIx) (s : State) : Out :=
  s.issue { gd := gd, len := 12, reads := [.g a, .g b, .g c], writes := gDst d, traps := [.g a] }
    (s.cs.noTag || s.cs.holdWait gd [.g a, .g b, .g c])
    fun env => s.withDst d (s.atPlaces needRW (elemBytes t.w) [s.baseDisp a disp] fun pas =>
      let r := s.slotRec 0 t.w t.k (pas.headD 0) (elemBytes t.w) (s.g c).toNat (s.cs.anyPois [.g b, .g c])
      s.takeLoad env (.cas (s.g b) r) [.g d] t (elemBytes t.w) pas)

/-- The record that an atomic inserts, from the old word (R180). -/
def LoadKind.newRec (kind : LoadKind) (w : BitVec 2) (byte : Nat) (old : Word) : Option Rec :=
  match kind with
  | .atom r => some r
  | .cas cmp r =>
    if elemOf w old (byte / elemBytes w) = cmp.toNat % 2 ^ elemBits w then some r else none
  | _ => none

/-- The atomic step inside a die (R180): the old word folded from level(S) outward, the record inserted there. -/
def State.atomicAt (s : State) (c : CoreId) (l : Load) (e : Elem) (lv : LevelId) : Option (Word × Bool × State) :=
  let key := e.pa / 8
  let line := e.pa / 64
  let outer := (path c).drop (levelNum lv)
  let base : Option (Word × Bool × State) :=
    match if isHost e.pa then none else s.snapshotFor c l.scope l.fresh l.horizon line with
    | some x => some ((x.word key).1, (x.word key).2, s)
    | none =>
      if s.homeReady c line && !s.lineMoving c.die line then
        (s.openRow line l.left).map fun t => (s.baseWord key, s.keyPois key, t.tick1.fillL1 c line l.left)
      else none
  match base with
  | none => none
  | some (v, po, t) =>
    let (old, po) := t.foldLevels key (v, po) outer
    match l.kind.newRec l.w (e.pa % 8) old with
    | none => some (old, po, t)
    | some r => if t.room lv r then some (old, po, t.insertRec lv r) else none

/-- The atomic step at the home (R180, R334, R336): on the base word, once the key's earlier records are applied and no host copy
is left (R338); the issuing die's snapshots of the line are dropped (R158). -/
def State.atomicHome (s : State) (c : CoreId) (l : Load) (e : Elem) : Option (Word × Bool × State) :=
  let key := e.pa / 8
  let line := e.pa / 64
  if !s.homeReady c line || s.lineMoving c.die line then none
  else
    let old := s.baseWord key
    let po := s.keyPois key
    let d := if isHost e.pa then (s.hostDie c.die).getD c.die else homeDie e.pa
    (s.openRow line l.left).map fun t =>
      match l.kind.newRec l.w (e.pa % 8) old with
      | none => (old, po, t.tick1)
      | some r =>
        if isPeer e.pa then (old, po, t.tick1.dropLine c.die line)
        else (old, po, (t.tick1.applyToBase d r).dropLine c.die line)

/-- The old element with its poison, kept until the atomic returns. -/
def Load.gotOld (l : Load) (e : Elem) (old : Word) (po : Bool) : Load :=
  { l with elems := [{ e with got := some (elemOf l.w old (e.pa % 8 / elemBytes l.w), po) }] }

/-- R180, R200: an atomic evicts its key again where the levels inside hold it, then takes its step. -/
def tryAtomicStep (c : CoreId) (k : BitVec 4) (tag : BitVec 3) (s : State) : Option State :=
  match Sparse.find (s.slot c k).tags tag.toNat with
  | none => none
  | some l =>
    match l.kind, l.elems with
    | .ld, _ => none
    | .ldro, _ => none
    | .gather, _ => none
    | _, [e] =>
      if l.st ≠ .going || e.got.isSome || (s.slot c k).mustWait l || !s.coreRuns c then none
      else
        match s.evictKey c l.scope (e.pa / 8) with
        | none => none
        | some (t, n) =>
          let l := { l with moves := l.moves + n }
          let evicted := if n = 0 then none else some (t.setSlot c k ((t.slot c k).setLoad tag.toNat l))
          match levelOf c l.scope with
          | some lv =>
            match t.atomicAt c l e lv with
            | none => evicted
            | some (old, po, u) => some (u.setSlot c k ((u.slot c k).setLoad tag.toNat (l.gotOld e old po)))
          | none =>
            let snoop := if place e.pa = 0 then t.snoopLine (e.pa / 64) else .free
            match snoop with
            | .wait => evicted
            | .sent u => some (u.setSlot c k ((u.slot c k).setLoad tag.toNat l))
            | .free =>
              match t.atomicHome c l e with
              | none => evicted
              | some (old, po, u) => some (u.setSlot c k ((u.slot c k).setLoad tag.toNat (l.gotOld e old po)))
    | _, _ => none
def execAtomicStep (c : CoreId) (k : BitVec 4) (tag : BitVec 3) (s : State) : Out := orSame s (tryAtomicStep c k tag s)

-- what the hold queue does (R25, R28, R178, R196)

/-- The first released entry of a hold queue, with those before and after it; none behind a release update (R25, R199, R212). -/
def nextHeld : List Held → Option (List Held × Held × List Held)
  | [] => none
  | h :: r =>
    if h.mask = 0 ∧ h.after = 0 then some ([], h, r)
    else if h.isRelease then none
    else (nextHeld r).map fun x => (h :: x.1, x.2.1, x.2.2)

/-- A released load goes: it reads from now on, a `device` or `system` load from its home alone (R194, R196). -/
def State.goLoad (s : State) (c : CoreId) (k : BitVec 4) (tag : BitVec 3) : State :=
  match Sparse.find (s.slot c k).tags tag.toNat with
  | none => s
  | some l =>
    let l := { l with st := .going, issued := s.instant c, left := s.seqno, fresh := true }
    (s.tick1.setSlot c k ((s.slot c k).setLoad tag.toNat l)).beginAtomic c k tag.toNat l

/-- A released update inserts what it may, in its place in the queue (R178, R198). -/
def State.goUpdate (s : State) (c : CoreId) (k : BitVec 4) (pre post : List Held) (h : Held) (recs : List Rec) : Option State :=
  let (t, rest) := s.insertAll c h.since recs
  if !s.coreRuns c then none
  else match rest with
  | [] => some (t.setSlot c k { t.slot c k with hold := pre ++ post })
  | _ =>
    let e := t.restEntry c h rest
    if rest.length = recs.length && decide (e.since = h.since) then none
    else some (t.tick1.setSlot c k { t.slot c k with hold := pre ++ e :: post })

/-- R25, R28: the slot's next released access proceeds. -/
def tryHeldAccessProceed (c : CoreId) (k : BitVec 4) (s : State) : Option State :=
  match nextHeld (s.slot c k).hold with
  | none => none
  | some (pre, h, post) =>
    match h.op with
    | .load tag => if !s.coreRuns c then none else some ((s.setSlot c k { s.slot c k with hold := pre ++ post }).goLoad c k tag)
    | .upd recs scope _ => if scope = 0 ∧ h.since = none then s.goUpdate c k pre post h recs else none
def execHeldAccessProceed (c : CoreId) (k : BitVec 4) (s : State) : Out := orSame s (tryHeldAccessProceed c k s)

/-- R178: an update that waits for room in cog 0 goes on. -/
def tryUpdateInsertResume (c : CoreId) (k : BitVec 4) (s : State) : Option State :=
  match nextHeld (s.slot c k).hold with
  | none => none
  | some (pre, h, post) =>
    match h.op with
    | .load _ => none
    | .upd recs scope _ => if scope = 0 ∧ h.since ≠ none then s.goUpdate c k pre post h recs else none
def execUpdateInsertResume (c : CoreId) (k : BitVec 4) (s : State) : Out := orSame s (tryUpdateInsertResume c k s)

end Sys2Proof.Machine
end

