-- ==== Sys2Proof/Machine/Scratch.lean ====
section
/-! DEFINITION. The core's SRAM (spec/07 R146 to R151, R161 to R164; spec/09 R206 to R209): scratchpad and deep-scratch units with
their poison, sync words, and the instructions that reach them. -/

namespace Sys2Proof.Machine

-- units (R148)

/-- A unit in its table; a unit that is zero and clean is not listed. -/
def putUnit (t : Sparse Unit8) (i : Nat) (u : Unit8) : Sparse Unit8 := if u = {} then Sparse.del t i else Sparse.set t i u

/-- Bytes of a unit replaced: `n` bytes from byte `o` up, by the low bytes of a number. -/
def patchWord (w : Word) (o n v : Nat) : Word :=
  let m := (2 ^ (8 * n) - 1) * 2 ^ (8 * o)
  (w &&& ~~~BitVec.ofNat 64 m) ||| BitVec.ofNat 64 (v % 2 ^ (8 * n) * 2 ^ (8 * o))

/-- A write of part or all of a unit, with the poison rules of R148. -/
def writeUnit (t : Sparse Unit8) (i o n v : Nat) (po : Bool) : Sparse Unit8 :=
  let u := Sparse.get {} t i
  putUnit t i { val := patchWord u.val o n v, pois := po || (u.pois && !(decide (o = 0) && decide (n = 8))) }

/-- A write of the units below a number that some bytes touch. -/
def writeSram (t : Sparse Unit8) (off n v : Nat) (po : Bool) : Sparse Unit8 :=
  let first := off / 8
  let last := (off + n - 1) / 8
  (List.range (last - first + 1)).foldl (fun t j =>
    let i := first + j
    let lo := max off (8 * i)
    let hi := min (off + n) (8 * i + 8)
    writeUnit t i (lo - 8 * i) (hi - lo) (v / 2 ^ (8 * (lo - off))) po) t

/-- `n` bytes read, and whether a unit they touch is poisoned (R148). -/
def readSram (t : Sparse Unit8) (off n : Nat) : Nat × Bool :=
  let first := off / 8
  let us := (List.range ((off + n - 1) / 8 - first + 1)).map fun j => Sparse.get {} t (first + j)
  let all := us.foldr (fun u a => u.val.toNat + 2 ^ 64 * a) 0
  (all / 2 ^ (8 * (off % 8)) % 2 ^ (8 * n), us.any fun u => u.pois)

-- bytes with their poison

/-- A byte and whether it is poisoned. -/
abbrev PByte := Byte × Bool

/-- Bytes as a little-endian number. -/
def bytesVal (bs : List PByte) : Nat := bs.foldr (fun b a => b.1.toNat + 256 * a) 0
def anyBad (bs : List PByte) : Bool := bs.any fun b => b.2
/-- A number's bytes, of one poison. -/
def bytesOf (n v : Nat) (po : Bool) : List PByte := (List.range n).map fun i => (BitVec.ofNat 8 (v / 256 ^ i), po)

/-- Bytes written into SRAM units, each unit by the rules of R148. -/
def putBytes : Nat → Sparse Unit8 → Nat → List PByte → Sparse Unit8
  | 0, t, _, _ => t
  | f + 1, t, off, bs =>
    if bs = [] then t
    else
      let k := 8 - off % 8
      let h := bs.take k
      putBytes f (writeUnit t (off / 8) (off % 8) h.length (bytesVal h) (anyBad h)) (off + h.length) (bs.drop k)

/-- Bytes cut at the boundaries of aligned 64-byte units: the place and the bytes of each piece (R147). -/
def linePieces : Nat → Nat → List PByte → List (Nat × List PByte)
  | 0, _, _ => []
  | f + 1, place, bs =>
    if bs = [] then []
    else
      let k := 64 - place % 64
      (place, bs.take k) :: linePieces f (place + (bs.take k).length) (bs.drop k)

/-- A unit of a store written (R147, R148). -/
def State.putStore (s : State) (c : CoreId) (deep : Bool) (place : Nat) (bs : List PByte) : State :=
  if deep then s.setSlab c { s.slab c with units := putBytes (bs.length + 1) (s.slab c).units place bs }
  else s.setCore c { s.core c with scratch := putBytes (bs.length + 1) (s.core c).scratch place bs }

/-- Pieces that are written one in each cycle, from a cycle on. -/
def State.addStores (s : State) (c : CoreId) (deep : Bool) (first : Nat) (ps : List (Nat × List PByte)) : State :=
  s.setCore c { s.core c with stores := (s.core c).stores ++ ps.zipIdx.map fun (p, i) => (first + i, deep, p.1, p.2) }

-- the scratchpad (R146, R206)

/-- The place of `n` bytes of a block's allotment in the scratchpad; none outside it (R146). -/
def Block.scratchAt (b : Block) (o n : Nat) : Option Nat := if o + n ≤ b.scrsize then some (b.scrbase + o) else none

/-- The scratchpad of a core written. -/
def State.writeScratch (s : State) (c : CoreId) (off n v : Nat) (po : Bool) : State :=
  s.setCore c { s.core c with scratch := writeSram (s.core c).scratch off n v po }

/-- The checks of R190 for a scratchpad access, then what it does with its place. (log 65: DEDUCED) -/
def State.inScratch (s : State) (ea : Word) (align n : Nat) (k : Nat → Res) : Res :=
  if ea.toNat % align ≠ 0 then .trap s causeMisaligned ea
  else match s.block.scratchAt ea.toNat n with
    | none => .trap s causePermission ea
    | some off => k off

/-- An element read, extended by `K` (R188). -/
def extElem (w : BitVec 2) (k : Bool) (v : Nat) : Word :=
  if k then BitVec.ofInt 64 (intOf true (elemBits w) v) else BitVec.ofNat 64 v

/-- R206. -/
def execLds (gd : Guard) (t : MemT) (d : GIx) (ea : MemA) (s : State) : Out :=
  s.issue { gd := gd, len := 12, reads := memRegs ea, writes := gDst d, traps := memRegs ea } false fun env =>
    s.withDst d (s.inScratch (s.ea ea) (elemBytes t.w) (elemBytes t.w) fun off =>
      let v := readSram (s.core s.cc).scratch off (elemBytes t.w)
      .done (s.putG d (extElem t.w t.k v.1) env.taint v.2))
/-- R206. -/
def execLdsv (gd : Guard) (d : VIx) (ea : MemA) (s : State) : Out :=
  s.issue { gd := gd, len := 12, reads := memRegs ea, writes := [.v d], traps := memRegs ea } false fun env =>
    s.inScratch (s.ea ea) 32 32 fun off =>
      let v := readSram (s.core s.cc).scratch off 32
      .done (s.putV d (BitVec.ofNat 256 v.1) env.taint v.2)
/-- R206: waits for the data's taint. -/
def execSts (gd : Guard) (t : MemT) (d : GIx) (ea : MemA) (s : State) : Out :=
  s.issue { gd := gd, len := 12, reads := memRegs ea ++ [.g d], writes := [], traps := memRegs ea }
    (decide ((s.cs.mark (.g d)).taint ≠ 0)) fun _ =>
    s.inScratch (s.ea ea) (elemBytes t.w) (elemBytes t.w) fun off =>
      .done (s.writeScratch s.cc off (elemBytes t.w) (s.g d).toNat (s.cs.mark (.g d)).pois)
/-- R206: waits for the data's taint. -/
def execStsv (gd : Guard) (d : VIx) (ea : MemA) (s : State) : Out :=
  s.issue { gd := gd, len := 12, reads := memRegs ea ++ [.v d], writes := [], traps := memRegs ea }
    (decide ((s.cs.mark (.v d)).taint ≠ 0)) fun _ =>
    s.inScratch (s.ea ea) 32 32 fun off =>
      .done (s.writeScratch s.cc off 32 (s.cs.readV d).toNat (s.cs.mark (.v d)).pois)

-- deep scratch (R161, R163, R164, R207)

/-- The mode of a bank group: none while it changes (R162, R165). -/
def Slab.mode (x : Slab) (grp : Nat) : Option (BitVec 2) :=
  if (Sparse.find x.changing grp).isSome then none else some (Sparse.get 0 x.modes grp)

/-- The place of `n` bytes of a block's window in its slab, by R164's rule; none where it traps. -/
def State.deepAt (s : State) (c : CoreId) (b : Block) (o n : Nat) : Option Nat :=
  let y := s.ctx b.ctx
  let h := b.dwbase + o
  let grp := y.first + h / 65536
  let ends := y.first + (h + n - 1) / 65536
  if o + n ≤ b.dwsize ∧ h + n ≤ 65536 * y.count ∧ (s.slab c).mode grp = some 1 ∧ (s.slab c).mode ends = some 1 then
    some (65536 * grp + h % 65536)
  else none

/-- The slab's SRAM written. -/
def State.writeDeep (s : State) (c : CoreId) (off n v : Nat) (po : Bool) : State :=
  s.setSlab c { s.slab c with units := writeSram (s.slab c).units off n v po }

/-- The checks of R190 for a deep-scratch access, then what it does with its place. (log 65: DEDUCED) -/
def State.inDeep (s : State) (ea : Word) (n : Nat) (k : Nat → Res) : Res :=
  if ea.toNat % n ≠ 0 then .trap s causeMisaligned ea
  else match s.deepAt s.cc s.block ea.toNat n with
    | none => .trap s causeDeep ea
    | some off => k off

/-- R207: long, ready after 3 rotations. -/
def execLdd (gd : Guard) (t : MemT) (d : GIx) (ea : MemA) (s : State) : Out :=
  s.issue { gd := gd, len := 12, reads := memRegs ea, writes := gDst d, traps := memRegs ea } false fun env =>
    s.withDst d (s.inDeep (s.ea ea) (elemBytes t.w) fun off =>
      let v := readSram (s.slab s.cc).units off (elemBytes t.w)
      .done (s.startLong (.g d) ((extElem t.w t.k v.1).setWidth 256) env.taint v.2 3 true))
/-- R207: waits for the data's taint. -/
def execStd (gd : Guard) (t : MemT) (d : GIx) (ea : MemA) (s : State) : Out :=
  s.issue { gd := gd, len := 12, reads := memRegs ea ++ [.g d], writes := [], traps := memRegs ea }
    (decide ((s.cs.mark (.g d)).taint ≠ 0)) fun _ =>
    s.inDeep (s.ea ea) (elemBytes t.w) fun off =>
      .done (s.writeDeep s.cc off (elemBytes t.w) (s.g d).toNat (s.cs.mark (.g d)).pois)

-- sync words (R149, R150, R208, R209)

/-- A sync word's fields (R149). -/
structure SyncWord where
  count  : BitVec 32
  target : BitVec 32
  gen    : BitVec 16
  ovf    : Bool
  deriving DecidableEq, Repr

/-- The word at a place of the scratchpad, and whether a unit of it is poisoned. -/
def readSync (t : Sparse Unit8) (off : Nat) : SyncWord × Bool :=
  let a := Sparse.get {} t (off / 8)
  let b := Sparse.get {} t (off / 8 + 1)
  (⟨a.val.extractLsb' 0 32, a.val.extractLsb' 32 32, b.val.extractLsb' 0 16, b.val.getLsbD 17⟩, a.pois || b.pois)

/-- The word written with its reserved bits 0; an initialisation clears the poison, an add leaves it (R149, R150). -/
def writeSync (t : Sparse Unit8) (off : Nat) (w : SyncWord) (clean : Bool) : Sparse Unit8 :=
  let a := Sparse.get {} t (off / 8)
  let b := Sparse.get {} t (off / 8 + 1)
  let t := putUnit t (off / 8) ⟨w.target ++ w.count, a.pois && !clean⟩
  putUnit t (off / 8 + 1) ⟨(0 : BitVec 46) ++ BitVec.ofBool w.ovf ++ (0 : BitVec 1) ++ w.gen, b.pois && !clean⟩

/-- The word is complete (R149). -/
def SyncWord.complete (w : SyncWord) : Bool := decide (w.target.toNat ≤ w.count.toNat)

/-- `Initialise(w, t)` (R150). -/
def SyncWord.initialise (w : SyncWord) (t : Word) : SyncWord := ⟨0, t.setWidth 32, w.gen + 1, false⟩
/-- `Add(w, n, w.GEN)` (R150). -/
def SyncWord.add (w : SyncWord) (n : Nat) : SyncWord :=
  if 2 ^ 32 - 1 < w.count.toNat + n then { w with count := BitVec.allOnes 32, ovf := true }
  else { w with count := BitVec.ofNat 32 (w.count.toNat + n) }

/-- An add with a captured generation: a stale one is discarded (R150). -/
def State.syncAdd (s : State) (c : CoreId) (off n : Nat) (gen : BitVec 16) : State :=
  let t := (s.core c).scratch
  let w := (readSync t off).1
  if gen = w.gen then s.setCore c { s.core c with scratch := writeSync t off (w.add n) false } else s

/-- R208: waits for the target's taint. -/
def execSyncinit (gd : Guard) (a : GIx) (disp : BitVec 32) (b : GIx) (s : State) : Out :=
  s.issue { gd := gd, len := 12, reads := [.g a, .g b], writes := [], traps := [.g a, .g b] }
    (decide ((s.cs.mark (.g b)).taint ≠ 0)) fun _ =>
    s.inScratch (s.baseDisp a disp) 16 16 fun off =>
      let t := (s.core s.cc).scratch
      .done (s.setCore s.cc { s.core s.cc with scratch := writeSync t off ((readSync t off).1.initialise (s.g b)) true })
/-- R208: waits for the count's taint. -/
def execSyncadd (gd : Guard) (a : GIx) (disp : BitVec 32) (b : GIx) (s : State) : Out :=
  s.issue { gd := gd, len := 12, reads := [.g a, .g b], writes := [], traps := [.g a, .g b] }
    (decide ((s.cs.mark (.g b)).taint ≠ 0)) fun _ =>
    s.inScratch (s.baseDisp a disp) 16 16 fun off =>
      .done (s.syncAdd s.cc off (s.g b).toNat (readSync (s.core s.cc).scratch off).1.gen)
/-- A sync word of the allotment is neither complete nor poisoned (R209). -/
def State.syncPending (s : State) (ea : Word) : Bool :=
  decide (ea.toNat % 16 = 0) && (s.block.scratchAt ea.toNat 16).any fun off =>
    let w := readSync (s.core s.cc).scratch off
    !w.2 && !w.1.complete

/-- R209: waits until the word is complete or poisoned; a poisoned one traps. -/
def execSyncwait (gd : Guard) (a : GIx) (disp : BitVec 32) (s : State) : Out :=
  s.issue { gd := gd, len := 12, reads := [.g a], writes := [], traps := [.g a] } (s.syncPending (s.baseDisp a disp)) fun _ =>
    s.inScratch (s.baseDisp a disp) 16 16 fun off =>
      let w := readSync (s.core s.cc).scratch off
      if w.2 then .trap s causePoison 0 else .done s
/-- R209. -/
def execSyncget (gd : Guard) (d : GIx) (a : GIx) (disp : BitVec 32) (s : State) : Out :=
  s.issue { gd := gd, len := 12, reads := [.g a], writes := gDst d, traps := [.g a] } false fun env =>
    s.withDst d (s.inScratch (s.baseDisp a disp) 16 16 fun off =>
      let w := readSync (s.core s.cc).scratch off
      .done (s.putG d (BitVec.ofBool w.1.complete ++ (0 : BitVec 14) ++ BitVec.ofBool w.1.ovf ++ w.1.gen ++ w.1.count) env.taint w.2))

end Sys2Proof.Machine
end

