-- ==== Sys2Proof/Machine/Matrix.lean ====
section
/-! DEFINITION. The matrix engine's state and operations (spec/11): descriptors, rings, the tile file, MMA and TCVT; the values of tiles and
ring slots (spec/02 R38, R39, R55 to R58). -/

namespace Sys2Proof.Machine

-- descriptor images (R228, R229)

def descBase (d : BitVec 256) : Word := d.extractLsb' 0 64
def descSbase (d : BitVec 256) : Word := d.extractLsb' 64 64
def descStride (d : BitVec 256) : Nat := (d.extractLsb' 128 32).toNat
def descSstride (d : BitVec 256) : Nat := (d.extractLsb' 160 32).toNat
def descKlen (d : BitVec 256) : Nat := (d.extractLsb' 192 32).toNat
def descRows (d : BitVec 256) : Nat := (d.extractLsb' 224 16).toNat
def descFmt (d : BitVec 256) : Nat := (d.extractLsb' 240 4).toNat
def descH (d : BitVec 256) : Nat := (d.extractLsb' 244 2).toNat

/-- K per slot (R229). -/
def fmtK (f : Nat) : Nat :=
  match f with
  | 0 => 256 | 1 => 128 | 2 => 256 | 3 => 160 | 4 => 160 | 5 => 128 | 6 => 128 | 7 => 64 | 8 => 64 | 9 => 32
  | 10 => 256 | 11 => 160 | 12 => 128 | 13 => 256 | 14 => 160 | _ => 112
/-- The floating type of a format's elements (R38, R229). -/
def fmtElt (f : Nat) : FFmt :=
  match f with
  | 2 => .e2m1 | 3 => .e2m3 | 4 => .e3m2 | 5 => .e4m3 | 6 => .e5m2 | 7 => .fp16 | 8 => .bf16 | 9 => .fp32
  | 10 => .e2m1 | 11 => .e2m3 | _ => .e4m3
/-- The bits of an element, and for SX the `k` of R39. -/
def fmtBits (f : Nat) : Nat := if f = 0 then 4 else if f = 1 then 8 else (fmtElt f).width
def fmtSx (f : Nat) : Nat := if f = 13 then 2 else if f = 14 then 4 else 7
/-- The format's class: integer, MX, SX (R229). -/
def fmtInt (f : Nat) : Bool := decide (f < 2)
def fmtMx (f : Nat) : Bool := decide (10 ≤ f) && decide (f ≤ 12)
def fmtIsSx (f : Nat) : Bool := decide (13 ≤ f)
/-- The bytes of 16 elements in a slot row: packed elements, or one SX block (R33, R39). -/
def fmtSeg (f : Nat) : Nat := if fmtIsSx f then 2 * (fmtSx f + 1) + 2 else 2 * fmtBits f

/-- The values of consecutive elements of a format, packed as in a slot row (R33, R38, R39): `n` positions, `scale` by group of 32. -/
def fmtValues (f : Nat) (fzi : Bool) (n row : Nat) (scale : Nat → Nat) : List XVal :=
  if fmtInt f then (unpackBits (fmtBits f) n row).map fun v => XVal.ofInt (intOf true (fmtBits f) v)
  else if fmtIsSx f then (unpackBits (8 * fmtSeg f) (n / 16) row).flatMap fun b => sxDecode (fmtSx f) b
  else if fmtMx f then
    ((chunks 32 (n / 32) (unpackBits (fmtBits f) n row)).zipIdx).flatMap fun (vs, g) => mxDecode (fmtElt f) (scale g) vs
  else (unpackBits (fmtBits f) n row).map fun v => decodeF (fmtElt f) fzi v

-- numbering (R227)

/-- The physical number of a block's descriptor, ring; none above its allotment. -/
def Block.descAt (b : Block) (n : Nat) : Option Nat := if n < b.ndesc then some (b.desc0 + n) else none
def Block.ringAt (b : Block) (n : Nat) : Option Nat := if n < b.nring then some (b.ring0 + n) else none
/-- The physical number of an allocated tile; none above those allocated. -/
def Block.tileAt (b : Block) (n : Nat) : Option Nat := if n < b.nalloc then some (b.tile0 + n) else none

def Core.ring (x : Core) (q : Nat) : Ring := Sparse.get {} x.rings q
def Core.tile (x : Core) (t : Nat) : Tile := Sparse.get {} x.tiles t
def Core.desc (x : Core) (d : Nat) : Desc := Sparse.get {} x.descs d
def State.setRing (s : State) (c : CoreId) (q : Nat) (r : Ring) : State :=
  s.setCore c { s.core c with rings := Sparse.set (s.core c).rings q r }
def State.setTile (s : State) (c : CoreId) (t : Nat) (x : Tile) : State :=
  s.setCore c { s.core c with tiles := Sparse.set (s.core c).tiles t x }

/-- Runs an effect on a descriptor, ring or tile of the current block, or takes its trap (R227). -/
def State.onDesc (s : State) (n : Nat) (k : Nat → Res) : Res :=
  match s.block.descAt n with
  | some d => k d
  | none => .trap s causeOperand 0
def State.onRing (s : State) (n : Nat) (k : Nat → Res) : Res :=
  match s.block.ringAt n with
  | some q => k q
  | none => .trap s causeOperand 0
def State.onTile (s : State) (n : Nat) (k : Nat → Res) : Res :=
  match s.block.tileAt n with
  | some t => k t
  | none => .trap s causeTile 0

-- instructions that hold their slot (R231, R380)

/-- The current slot is held by an instruction that has issued. -/
def State.hold (s : State) (b : Busy) : State := s.setCs { s.cs with busy := some b }
/-- The instruction that holds a slot ends: the slot goes on after it. -/
def State.endBusy (s : State) (c : CoreId) (k : BitVec 4) : State :=
  let s := s.setSlot c k { s.slot c k with busy := none }
  s.advance c k 12
/-- It traps instead. -/
def State.trapBusy (s : State) (c : CoreId) (k : BitVec 4) (cause : Byte) (addr : Word) : State :=
  let s := s.setSlot c k { s.slot c k with busy := none }
  s.deliverTrap c k cause addr (s.slot c k).pc

/-- The taint an image read or a TLD waits for (R231 step 2, R240). -/
def State.imageMask (s : State) (env : Env) : Byte := env.taint ||| s.cs.ctaint

/-- An image read issues: its address is translated, then it holds its slot (R231). -/
def State.issueImage (s : State) (env : Env) (what : ImageFor) (ea : Word) (align : Nat) (words : Nat) : Res :=
  if ea.toNat % align ≠ 0 then .trap s causeMisaligned ea
  else
    match s.tr ea needR with
    | .miss t => .lostWith t
    | .fault t cause => .fault t cause ea needR.kind
    | .ok pa =>
      .holds (s.tick1.hold (.image what (s.imageMask env) (s.clock s.cc) ((List.range words).map fun i => { pa := pa + 8 * i }) s.seqno))

/-- A read for an image or a TLD, as an LD at `core` scope reads (R231, R240). -/
def busyLoad (issued left : Nat) : Load :=
  { kind := .ld, dst := [], elems := [], scope := scopeCore, w := 3, sext := false, taint := 0, issued := issued, left := left }

/-- R232. -/
def descBad (d : BitVec 256) : Bool :=
  decide (d.extractLsb' 246 10 ≠ 0) || decide (descH d = 3) || (decide (descH d ≠ 0) && fmtInt (descFmt d))
    || (decide (descH d = 2) && decide (descFmt d = 15))
    || (decide (descH d = 1) && decide (descKlen d % 16 ≠ 0)) || (decide (descH d = 2) && decide (descKlen d % 32 ≠ 0))

/-- R232: writes a descriptor from an image. -/
def execTdset (gd : Guard) (dd : BitVec 6) (a : GIx) (disp : BitVec 32) (s : State) : Out :=
  s.issue { gd := gd, len := 12, reads := [.g a], writes := [], traps := [.g a] } false fun env =>
    s.onDesc dd.toNat fun d => s.issueImage env (.tdset (BitVec.ofNat 6 d)) (s.baseDisp a disp) 32 4

/-- R233: four SET records of a descriptor's image. -/
def execTdget (gd : Guard) (a : GIx) (disp : BitVec 32) (dd : BitVec 6) (s : State) : Out :=
  s.issue { gd := gd, len := 12, reads := [.g a], writes := [], traps := [.g a] } (s.cs.holdWait gd [.g a]) fun env =>
    s.onDesc dd.toNat fun d =>
      s.atPlaces needW 32 [s.baseDisp a disp] fun pas =>
        let x := (s.core s.cc).desc d
        let v := if x.valid then x.image else 0
        s.issueUpdate env scopeCore (pas.flatMap fun pa => (List.range 4).map fun j =>
          s.slotRec 0 3 false (pa + 8 * j) 8 (v.extractLsb' (64 * j) 64).toNat false)

-- rings (R234 to R236)

/-- The ring that a TILE command names as `DRING`: none for another kind (R247, R250). -/
def cmdKind (i : BitVec 512) : Nat := (i.extractLsb' 0 4).toNat
def cmdDring (i : BitVec 512) : Nat := (i.extractLsb' 32 3).toNat
def cmdNslot (i : BitVec 512) : Nat := (i.extractLsb' 40 7).toNat

/-- The physical ring of a TILE command. -/
def Core.cmdRing (x : Core) (m : Cmd) : Nat :=
  (match Sparse.find x.table m.blk with
    | some b => b.ring0
    | none => 0) + cmdDring m.image

/-- The ring is idle (R236). -/
def Core.ringIdle (x : Core) (q : Nat) : Bool :=
  !(x.mx.any fun o => decide (o.qa = q) || (!o.tcvt && decide (o.qb = q)))
    && !(x.cmds.any fun e => decide (cmdKind e.2.image = 1) && decide (x.cmdRing e.2 = q) && decide (e.2.done < cmdNslot e.2.image))

/-- A ring of the current block is not idle. -/
def State.ringBusy (s : State) (q : Nat) : Bool := (s.block.ringAt q).any fun n => !(s.core s.cc).ringIdle n

/-- R234: reads a ring image, once the ring is idle. -/
def execRingcfg (gd : Guard) (q : BitVec 3) (a : GIx) (disp : BitVec 32) (s : State) : Out :=
  s.issue { gd := gd, len := 12, reads := [.g a], writes := [], traps := [.g a] } (s.ringBusy q.toNat) fun env =>
    s.onRing q.toNat fun _ => s.issueImage env (.ringcfg q) (s.baseDisp a disp) 16 2

/-- The RINGSTAT value (R236). -/
def Ring.stat (r : Ring) : Word :=
  if r.cfg then r.depth ++ r.iseg ++ (0 : BitVec 3) ++ (1 : BitVec 1) ++ r.cons ++ r.resv ++ r.tail ++ r.head else 0

/-- R236. -/
def execRingstat (gd : Guard) (d : GIx) (q : BitVec 3) (s : State) : Out :=
  s.issue { gd := gd, len := 12, reads := [], writes := [.g d] } false fun env =>
    s.onRing q.toNat fun n => .done (s.putG d ((s.core s.cc).ring n).stat env.gt false)

/-- RINGDROP's effect on a ring (R236). -/
def Ring.drop (r : Ring) (count : Nat) : Ring :=
  if !r.cfg then r
  else
    let n := (r.tail - r.head).toNat
    let m := if count = 0 then n else min count n
    let h := r.head + BitVec.ofNat 12 m
    { r with iseg := 0, resv := r.tail, head := h, cons := h }

/-- R236: once the ring is idle. -/
def execRingdrop (gd : Guard) (q : BitVec 3) (count : BitVec 16) (s : State) : Out :=
  s.issue { gd := gd, len := 12, reads := [], writes := [] } (s.ringBusy q.toNat) fun _ =>
    s.onRing q.toNat fun n => .done (s.setRing s.cc n (((s.core s.cc).ring n).drop count.toNat))

-- the tile file (R237 to R240)

/-- The physical tiles allocated to a block. -/
def Block.tiles (b : Block) : List Nat := (List.range b.nalloc).map fun n => b.tile0 + n

/-- R238: waits on the taint of gA. -/
def execTilecfg (gd : Guard) (a : GIx) (s : State) : Out :=
  s.issue { gd := gd, len := 4, reads := [.g a], writes := [], traps := [.g a] } (decide ((s.cs.mark (.g a)).taint ≠ 0)) fun _ =>
    let b := s.block
    let n := (s.g a).toNat
    if b.nalloc ≠ 0 then .trap s causeTile 0
    else if n = 0 ∨ b.ntile < n then .trap s causeOperand 0
    else
      let b := { b with nalloc := n }
      .done (b.tiles.foldl (fun t i => t.setTile t.cc i {}) (s.setBlock s.cc s.curBlk b))

/-- R238: once no tile of the block is locked. -/
def execTilerel (gd : Guard) (s : State) : Out :=
  s.issue { gd := gd, len := 4, reads := [], writes := [] } (s.block.tiles.any fun i => decide (((s.core s.cc).tile i).busy ≠ 0)) fun _ =>
    let b := s.block
    .done (b.tiles.foldl (fun t i => t.setTile t.cc i {}) (s.setBlock s.cc s.curBlk { b with nalloc := 0 }))

/-- A tile of the current block is locked. -/
def State.tileLocked (s : State) (n : Nat) : Bool := (s.block.tileAt n).any fun t => decide (((s.core s.cc).tile t).busy ≠ 0)

/-- R238: once the tile is unlocked. -/
def execTzero (gd : Guard) (ta : BitVec 5) (s : State) : Out :=
  s.issue { gd := gd, len := 4, reads := [], writes := [] } (s.tileLocked ta.toNat) fun _ =>
    s.onTile ta.toNat fun t => .done (s.setTile s.cc t {})

/-- The addresses of the 64-byte lines of a tile's image: each is translated (R190 step 4, R240). -/
def imageLines (ea : Word) : List Word := (List.range 16).map fun i => ea + BitVec.ofNat 64 (64 * i)

/-- R240: translated at issue, then it holds its slot. -/
def execTld (gd : Guard) (ta : BitVec 5) (a : GIx) (disp : BitVec 32) (s : State) : Out :=
  s.issue { gd := gd, len := 12, reads := [.g a], writes := [], traps := [.g a] } false fun env =>
    s.onTile ta.toNat fun t =>
      s.atPlaces needR 64 (imageLines (s.baseDisp a disp)) fun pas =>
        .holds (s.tick1.hold (.tld t (s.imageMask env) (s.clock s.cc)
          (pas.flatMap fun pa => (List.range 8).map fun i => { pa := pa + 8 * i }) s.seqno))

/-- R240: one 64-byte unit in each cycle from the issuing one. The rows are those that the tile has at issue: when they are read the rule says of TUPD
alone (log 95: DESIGN CHOICE). -/
def execTsts (gd : Guard) (a : GIx) (disp : BitVec 32) (ta : BitVec 5) (s : State) : Out :=
  s.issue { gd := gd, len := 12, reads := [.g a], writes := [], traps := [.g a] } (s.tileLocked ta.toNat) fun _ =>
    s.onTile ta.toNat fun t =>
      let x := (s.core s.cc).tile t
      s.inScratch (s.baseDisp a disp) 64 1024 fun off =>
        .done (s.addStores s.cc false (s.clock s.cc) ((List.range 16).map fun i =>
          (off + 64 * i, bytesOf 64 (x.val.extractLsb' (512 * i) 512).toNat (x.pois.getLsbD i))))

/-- R240: 128 records of two elements of the captured tile, by rising key word: the key is physical (R167), so that an image over two pages may begin
with its second. -/
def execTupd (gd : Guard) (op : BitVec 4) (t : MemT) (ea : MemA) (ta : BitVec 5) (s : State) : Out :=
  s.issue { gd := gd, len := 12, reads := memRegs ea, writes := [], traps := memRegs ea }
    (s.tileLocked ta.toNat || s.cs.holdWait gd (memRegs ea) t.scope) fun env =>
    s.onTile ta.toNat fun n =>
      let x := (s.core s.cc).tile n
      s.atPlaces needW 64 (imageLines (s.ea ea)) fun pas =>
        s.issueUpdate env t.scope (byKey (pas.zipIdx.flatMap fun (pa, i) => (List.range 8).map fun j =>
          s.slotRec op t.w t.k (pa + 8 * j) 8 (x.val.extractLsb' (512 * i + 64 * j) 64).toNat (x.pois.getLsbD i)))

/-- A read of some bytes that an instruction holds its slot for; where no answer has come in 200 µs its value is poison (R333, R347). -/
def State.readOrLost (s : State) (c : CoreId) (issued left pa size : Nat) : Option (Nat × Bool × State) :=
  if !s.coreRuns c then none
  else if s.mayBeLost c.die pa && s.late c issued then some ((Config.freeWord s.fresh).toNat, true, { s with fresh := s.fresh + 1 })
  else (s.readPiece c (busyLoad issued left) false pa size).map fun x => (x.1, x.2.1, x.2.2.2)

/-- A word of a TLD or of a BSLD read at its own instant (R240, R257). -/
def State.readWordAt (s : State) (c : CoreId) (issued left n : Nat) (ws : List WordRead) : Option (List WordRead × State) :=
  match ws[n]? with
  | none => none
  | some w =>
    if w.got.isSome then none
    else
      (s.readOrLost c issued left w.pa 8).map fun x => (setNth n { w with got := some (BitVec.ofNat 64 x.1, x.2.1) } ws, x.2.2)

/-- The value of a word that has been read. -/
def WordRead.val (w : WordRead) : Word := (w.got.getD (0, false)).1
def WordRead.pois (w : WordRead) : Bool := (w.got.getD (0, false)).2

/-- The tile of 128 words, with the poison of each row (R240). -/
def tileOf (ws : List WordRead) : Tile :=
  { val := BitVec.ofNat 8192 (packBits 64 (ws.map fun w => w.val.toNat)),
    pois := BitVec.ofNat 16 (packBits 1 ((chunks 8 16 ws).map fun r => if r.any WordRead.pois then 1 else 0)) }

/-- A load of the slot that left before a moment and overlaps a key word has not performed: a TLD reads the word after it (R212). -/
def Slot.tldWaits (x : Slot) (left : Nat) (w : Option WordRead) : Bool :=
  w.any fun w => x.tags.any fun e => decide (e.2.id < left) && e.2.keys.contains (w.pa / 8)

/-- R240: word `n` of a TLD returns; with the last the tile is written and TLD ends. Where an MMA of another slot has locked the tile meanwhile, the
reads and the write stop until it is unlocked (log 96: DESIGN CHOICE). -/
def tryTldTileWrite (c : CoreId) (k : BitVec 4) (n : Nat) (s : State) : Option State :=
  let x := s.slot c k
  match x.busy with
  | some (.tld t mask issued ws left) =>
    if x.hold ≠ [] ∨ mask ≠ 0 ∨ ((s.core c).tile t).busy ≠ 0 ∨ x.tldWaits left ws[n]? then none
    else
      match s.readWordAt c issued left n ws with
      | none => none
      | some (ws, u) =>
        if ws.all fun w => w.got.isSome then some ((u.setTile c t (tileOf ws)).endBusy c k)
        else some (u.setSlot c k { u.slot c k with busy := some (.tld t mask issued ws left) })
  | _ => none
def execTldTileWrite (c : CoreId) (k : BitVec 4) (n : Nat) (s : State) : Out := orSame s (tryTldTileWrite c k n s)

-- ring slots (R230, R235)

/-- The number of a slot in its ring. -/
def Ring.index (r : Ring) (count : BitVec 12) : Nat := count.toNat % r.depth.toNat
/-- The place in the scratchpad of row `r` of the slot of a count. -/
def Ring.rowAt (b : Block) (q : Ring) (count : BitVec 12) (row : Nat) : Nat :=
  b.scrbase + q.slots.toNat + 2048 * q.index count + 128 * row
/-- The place of the scale bytes of a row (R230). -/
def Ring.scaleAt (b : Block) (q : Ring) (sbase : Nat) (count : BitVec 12) (row : Nat) : Nat :=
  b.scrbase + sbase + 128 * q.index count + 8 * row

/-- A row of a ring slot decoded, and whether it is poisoned (R230, R242). -/
def Core.slotRow (x : Core) (b : Block) (q : Ring) (d : BitVec 256) (fzi : Bool) (count : BitVec 12) (row : Nat) : List XVal × Bool :=
  let f := descFmt d
  let v := readSram x.scratch (Ring.rowAt b q count row) 128
  let sc := if fmtMx f then readSram x.scratch (Ring.scaleAt b q (descSbase d).toNat count row) 8 else (0, false)
  (fmtValues f fzi (fmtK f) v.1 (fun g => sc.1 / 256 ^ g % 256), v.2 || sc.2)

/-- The slot at a count is committed: `TAIL` lies beyond it. -/
def Ring.committed (r : Ring) (count : BitVec 12) : Bool := decide ((count - r.head).toNat < (r.tail - r.head).toNat)

-- the matrix engine (R241 to R244)

/-- An older wait for a queue entry by another slot of the core (R294). -/
def Core.olderWait (x : Core) (k : BitVec 4) : Bool :=
  let mine := x.slots[k.toNat].mxSince
  (List.range 16).any fun j =>
    match x.slots[j]? with
    | none => false
    | some y =>
      decide (j ≠ k.toNat) && decide (y.st = .running) && !y.stop && !y.stopped
        && match y.mxSince, mine with
          | none, _ => false
          | some _, none => true
          | some a, some b => decide (a < b)

/-- The turn is lost to a full queue; the slot waits from then on (R294). (log 33: DEDUCED) -/
def State.mxWait (s : State) : State :=
  if s.cs.mxSince.isSome then s else s.tick1.setCs { s.cs with mxSince := some s.seqno }
/-- The turn is lost to another cause. -/
def State.mxUnwait (s : State) : State := if s.cs.mxSince.isSome then s.setCs { s.cs with mxSince := none } else s

/-- The core's queue has an entry for the current slot (R241 step 3, R294). -/
def State.mxRoom (s : State) : Bool := decide ((s.core s.cc).mx.length < 4) && !(s.core s.cc).olderWait s.cur.2

/-- The governor allows an MMA (R243). -/
def Core.mayIssue (x : Core) : Bool := decide (x.budget = 0) || decide (x.used.toNat < x.budget.toNat)

/-- An operation enters the queue. -/
def State.mxEnter (s : State) (o : MxOp) : State :=
  let s := s.setCore s.cc { s.core s.cc with mx := (s.core s.cc).mx ++ [o] }
  let t := (s.core s.cc).tile o.tile
  (s.setTile s.cc o.tile { t with busy := t.busy + 1 }).setCs { s.cs with mxSince := none }

/-- The next slot of a ring claimed for a consumer (R241 step 4). -/
def State.claimSlot (s : State) (q : Nat) : State :=
  let r := (s.core s.cc).ring q
  s.setRing s.cc q { r with cons := r.cons + 1 }

/-- The machine after a turn that an MMA loses: to a full queue, or to the governor, which counts it (R241 step 3, R243). -/
def State.mmaLost (s : State) : State :=
  let x := s.core s.cc
  if !s.mxRoom then s.mxWait
  else (s.setCore s.cc { x with stalls := if x.stalls = BitVec.allOnes 32 then x.stalls else x.stalls + 1 }).setCs { s.cs with mxSince := none }

/-- R241: the waits of its step 3 stand before every effect, so that the checks are made once they are over (R8, R380). A descriptor that TDSET has
written after RINGCFG is used as it is (log 98: DESIGN CHOICE). -/
def execMma (gd : Guard) (ta : BitVec 5) (qa : BitVec 3) (qb : BitVec 3) (s : State) : Out :=
  s.issue { gd := gd, len := 4, reads := [], writes := [] } (!s.mxRoom || !(s.core s.cc).mayIssue) (lost := s.mmaLost) fun _ =>
    s.onTile ta.toNat fun t => s.onRing qa.toNat fun na => s.onRing qb.toNat fun nb =>
      let x := s.core s.cc
      let ra := x.ring na
      let rb := x.ring nb
      if !ra.cfg || !rb.cfg then .trap s causeOperand 0
      else
        let da := (x.desc ra.desc.toNat).image
        let db := (x.desc rb.desc.toNat).image
        if fmtK (descFmt da) ≠ fmtK (descFmt db) ∨ descH da ≠ descH db ∨ fmtInt (descFmt da) ≠ fmtInt (descFmt db) then
          .trap s causeOperand 0
        else
          let s := s.setCore s.cc { x with used := x.used + 1 }
          let o : MxOp :=
            { tcvt := false, blk := s.curBlk, ctx := s.block.ctx, tile := t, qa := na, qb := nb, ca := ra.cons, cb := rb.cons, da := da,
              db := db, fpcr := s.cs.fpcr, issued := s.clock s.cc }
          let s := s.claimSlot na
          .done ((if na = nb then s else s.claimSlot nb).mxEnter o)

/-- The engine generator loaded at an issue in `rsr`: the slot's generator steps, and its new state is bit-reversed (R52); no step for
an `fp32` destination (R42, log 32: DEDUCED). -/
def State.engineSeed (s : State) (fmt : Nat) : BitVec 32 × State :=
  if fpRm s.cs.fpcr = 5 ∧ fmt ≠ 9 then
    let g := lfsrStep (s.srSeed s.cc s.cs) (fpSr s.cs.fpcr)
    (g.reverse, s.setCs { s.cs with fpcr := g ++ s.cs.fpcr.extractLsb' 0 32 })
  else (0, s)

/-- A CPY of the block waits for slots of the ring: it has issued before a TCVT that has not (R235). -/
def State.cpyWaits (s : State) (n : Nat) : Bool :=
  (s.core s.cc).slots.toList.any fun y =>
    decide (y.blk = s.cs.blk) && match y.busy with
      | some (.cpy _ im _ _) => decide (cmdKind im = 1) && decide (s.block.ring0 + cmdDring im = n)
      | _ => false

/-- A TCVT waits for a slot of its ring (R235, R244). -/
def State.ringFull (s : State) (q : Nat) : Bool :=
  (s.block.ringAt q).any fun n =>
    let r := (s.core s.cc).ring n
    r.cfg && decide (r.iseg = 0) && (decide (r.depth.toNat ≤ (r.resv - r.head).toNat) || s.cpyWaits n)

/-- R244: its waits stand before every effect, so that the checks are made once they are over (R8, R380). A descriptor that TDSET has written after
RINGCFG is used as it is (log 98: DESIGN CHOICE). -/
def execTcvt (gd : Guard) (q : BitVec 3) (ta : BitVec 5) (s : State) : Out :=
  s.issue { gd := gd, len := 4, reads := [], writes := [] } (!s.mxRoom || s.ringFull q.toNat)
    (lost := if !s.mxRoom then s.mxWait else s.mxUnwait) fun _ =>
    s.onTile ta.toNat fun t => s.onRing q.toNat fun n =>
      let x := s.core s.cc
      let r := x.ring n
      if !r.cfg then .trap s causeOperand 0
      else
        let d := (x.desc r.desc.toNat).image
        if fmtMx (descFmt d) || decide (descH d = 2) then .trap s causeOperand 0
        else
          let (g, u) := s.engineSeed (descFmt d)
          let resv := if r.iseg = 0 then r.resv + 1 else r.resv
          let seg := r.iseg
          let u := u.setRing s.cc n { r with resv := resv, iseg := BitVec.ofNat 5 ((seg.toNat + 1) % (fmtK (descFmt d) / 16)) }
          .done (u.mxEnter { tcvt := true, blk := s.curBlk, ctx := s.block.ctx, tile := t, qa := n, qb := n, ca := resv - 1, cb := 0,
                             da := d, db := 0, seg := seg, fpcr := s.cs.fpcr, gsr := g, issued := s.clock s.cc })

/-- The operation at the head of the queue starts (R241). -/
def State.startHead (s : State) (c : CoreId) (tcvt : Bool) (ready : MxOp → Bool) : Option State :=
  let x := s.core c
  match x.mx with
  | [] => none
  | o :: r =>
    if s.coreRuns c && o.tcvt = tcvt && o.started.isNone && decide (o.issued < s.instant c) && decide (x.mxFree ≤ s.instant c) && ready o then
      some (s.setCore c { x with mx := { o with started := some (s.instant c) } :: r })
    else none

/-- R241: the MMA at the head starts once its slots are committed. -/
def tryMmaStart (c : CoreId) (s : State) : Option State :=
  s.startHead c false fun o =>
    ((s.core c).ring o.qa).committed o.ca && (decide (o.qa = o.qb) || ((s.core c).ring o.qb).committed o.cb)
/-- The model's reading is log 29: DEDUCED. -/
def execMmaStart (c : CoreId) (s : State) : Out := orSame s (tryMmaStart c s)

/-- R244. -/
def tryTcvtStart (c : CoreId) (s : State) : Option State := s.startHead c true fun _ => true
def execTcvtStart (c : CoreId) (s : State) : Out := orSame s (tryTcvtStart c s)

/-- One element of a tile after a float MMA (R57, R58): the groups in order, with the flags. `FZI` flushes the accumulator as each group reads it,
which for a later group is the rounded result of the one before it (log 77: DEDUCED). -/
def mmaFloat (fzi fzo : Bool) (scale : Int) (c : Nat) : List (List (XVal × XVal)) → Nat × FFlags
  | [] => (c, 0)
  | g :: gs =>
    let ps := g.map fun (a, b) => xmul a b
    let sig := g.foldl (fun fl (a, b) => fl ||| a.sigFlag ||| b.sigFlag) (0 : FFlags)
    let (x, fl) := xsum false (ps.map Prod.fst)
    let acc := decodeF .fp32 fzi c
    let (y, fl') := xadd false acc (x.scale scale)
    let (r, fl'') := roundF .fp32 .rne false fzo y
    let (r', fls) := mmaFloat fzi fzo scale r gs
    (r', ps.foldl (fun a p => a ||| p.2) (sig ||| fl ||| fl' ||| fl'' ||| acc.sigFlag ||| fls))

/-- The integer that an exact value is. -/
def XVal.toInt : XVal → Int
  | .num n m _ _ => if n then -(m : Int) else m
  | .nan _ => 0
  | .inf _ => 0

/-- One element of a tile after an integer MMA (R57). -/
def mmaInt (c : Nat) (gs : List (List (XVal × XVal))) : Nat :=
  wrap 32 (gs.foldl (fun (n : Int) g => g.foldl (fun m p => m + p.1.toInt * p.2.toInt) n) c)

/-- Two rows paired in groups of 32 positions (R57, R229). -/
def mmaGroups (a b : List XVal) : List (List (XVal × XVal)) := chunks 32 ((a.length + 31) / 32) (a.zip b)

/-- The tile after an MMA, and the flags (R57, R58, R242). -/
def mmaTile (o : MxOp) (t : Tile) (as bs : List (List XVal × Bool)) : Tile × FFlags :=
  let scale : Int := if descH o.da = 1 then -4 else if descH o.da = 2 then -5 else 0
  let es := as.zipIdx.flatMap fun (a, i) => bs.zipIdx.map fun (b, j) =>
    let c := (t.val.extractLsb' (32 * (16 * i + j)) 32).toNat
    let gs := mmaGroups a.1 b.1
    if fmtInt (descFmt o.da) then (mmaInt c gs, (0 : FFlags)) else mmaFloat (fpFzi o.fpcr) (fpFzo o.fpcr) scale c gs
  let allB := bs.any Prod.snd
  let po := BitVec.ofNat 16 (packBits 1 (as.map fun a => if a.2 || allB then 1 else 0))
  ({ t with val := BitVec.ofNat 8192 (packBits 32 (es.map Prod.fst)), pois := t.pois ||| po },
    es.foldl (fun fl e => fl ||| e.2) 0)

/-- A ring's head slot popped. -/
def State.popSlot (s : State) (c : CoreId) (q : Nat) : State :=
  let r := (s.core c).ring q
  s.setRing c q { r with head := r.head + 1 }

/-- The block of an operation or a command of a core. -/
def Core.blockAt (x : Core) (n : Nat) : Block := (Sparse.find x.table n).getD { rec0 := 0 }

/-- The operation that has run for its cycles leaves the engine (R241, R244). -/
def State.headDone (s : State) (c : CoreId) (tcvt : Bool) (cycles : Nat) : Option (MxOp × State) :=
  let x := s.core c
  match x.mx with
  | [] => none
  | o :: r =>
    match o.started with
    | none => none
    | some t =>
      if s.coreRuns c && o.tcvt = tcvt && decide (t + cycles ≤ s.instant c) then some (o, s.setCore c { x with mx := r, mxFree := s.instant c }) else none

/-- R241: the MMA at the head retires after 64 cycles. (log 21: DEDUCED) -/
def tryMmaRetire (c : CoreId) (s : State) : Option State :=
  match s.headDone c false 64 with
  | none => none
  | some (o, s) =>
    let x := s.core c
    let b := x.blockAt o.blk
    let fzi := fpFzi o.fpcr
    let as := (List.range 16).map fun i => x.slotRow b (x.ring o.qa) o.da fzi o.ca i
    let bs := (List.range 16).map fun j => x.slotRow b (x.ring o.qb) o.db fzi o.cb j
    let t := x.tile o.tile
    let (t', fl) := mmaTile o t as bs
    let s := (s.setTile c o.tile { t' with busy := t.busy - 1 }).popSlot c o.qa
    some ((if o.qa = o.qb then s else s.popSlot c o.qb).raise o.ctx fl)
def execMmaRetire (c : CoreId) (s : State) : Out := orSame s (tryMmaRetire c s)

/-- How elements of a format round for an engine (R42, R52): the generator is drawn from for a destination of 16 bits or fewer. -/
def engineRounder (fpcr : Word) (f : Nat) (g : BitVec 32) : Rounder :=
  { rm := fpRm fpcr, sr := decide (fpRm fpcr = 5) && decide (f ≠ 9), seed := g, s := g }

/-- Values of a row rounded into a format that has no scales (R48, R49, R54, R244, R249): the packed bytes, the flags, the rounder
after them. -/
def fmtEncode (f : Nat) (fpcr : Word) (xs : List XVal) (r : Rounder) : Nat × FFlags × Rounder :=
  if fmtIsSx f then
    let bs := chunks 16 (xs.length / 16) xs
    bs.foldl (fun (a : Nat × FFlags × Rounder × Nat) b =>
      let (v, fl, r) := sxEncode (fmtSx f) b a.2.2.1
      (a.1 + v * 2 ^ (8 * fmtSeg f * a.2.2.2), a.2.1 ||| fl, r, a.2.2.2 + 1)) (0, 0, r, 0) |> fun a => (a.1, a.2.1, a.2.2.1)
  else if fmtInt f then
    let w := fmtBits f
    let (vs, fl, r) := convList (fun mode x =>
      let (v, fl) := roundI (-(2 ^ (w - 1) : Int)) (2 ^ (w - 1) - 1) mode x
      (wrap w v, fl)) xs r
    (packBits w vs, fl, r)
  else
    let (vs, fl, r) := convList (fun mode x =>
      let (v, fl) := roundF (fmtElt f) mode (fpSatf fpcr && decide (f ≠ 9)) (fpFzo fpcr) x
      (v, fl ||| x.sigFlag)) xs r
    (packBits (fmtBits f) vs, fl, r)

/-- The rounding of zero sums is downward (R37). -/
def sumsDown (fpcr : Word) : Bool := decide (RMode.ofCode (fpRm fpcr) = .rdn)

/-- A row of a tile as a segment of a format (R244). -/
def tcvtRow (o : MxOp) (row : List Nat) (r : Rounder) : Nat × FFlags × Rounder :=
  let f := descFmt o.da
  if fmtInt f then
    let w := fmtBits f
    (packBits w (row.map fun v => wrap w (clampTo (-(2 ^ (w - 1) : Int)) (2 ^ (w - 1) - 1) (intOf true 32 v))), 0, r)
  else
    let xs := row.map fun v => decodeF .fp32 (fpFzi o.fpcr) v
    let sig := xs.foldl (fun fl x => fl ||| x.sigFlag) (0 : FFlags)
    let (ys, fl) := if descH o.da = 1 then hadamard (sumsDown o.fpcr) xs else (xs, 0)
    let (v, fl', r) := fmtEncode f o.fpcr ys r
    (v, sig ||| fl ||| fl', r)

/-- The rows of a TCVT written one after another (R244); the last segment brings the row's tail, as zeros (R39). (log 66: DEDUCED) -/
def State.tcvtRows (s : State) (c : CoreId) (b : Block) (q : Ring) (o : MxOp) (t : Tile) : List Nat → Rounder → FFlags → State × FFlags
  | [], _, fl => (s, fl)
  | i :: is, r, fl =>
    let row := (List.range 16).map fun j => (t.val.extractLsb' (32 * (16 * i + j)) 32).toNat
    let (v, fl', r) := tcvtRow o row r
    let n := fmtSeg (descFmt o.da)
    let last := decide (o.seg.toNat + 1 = fmtK (descFmt o.da) / 16)
    let tail := if last then 128 - n * (o.seg.toNat + 1) else 0
    let s := s.writeScratch c (Ring.rowAt b q o.ca i + n * o.seg.toNat) (n + tail) v (t.pois.getLsbD i)
    s.tcvtRows c b q o t is r (fl ||| fl')

/-- R244: the TCVT at the head retires after 16 cycles; its slot is committed in the order of reservation (R235). (log 22: DEDUCED) -/
def tryTcvtRetire (c : CoreId) (s : State) : Option State :=
  match s.headDone c true 16 with
  | none => none
  | some (o, s) =>
    let x := s.core c
    let b := x.blockAt o.blk
    let q := x.ring o.qa
    let last := decide (o.seg.toNat + 1 = fmtK (descFmt o.da) / 16)
    if last && decide (q.tail ≠ o.ca) then none
    else
      let t := x.tile o.tile
      let (s, fl) := s.tcvtRows c b q o t (List.range 16) (engineRounder o.fpcr (descFmt o.da) o.gsr) 0
      let s := s.setTile c o.tile { t with busy := t.busy - 1 }
      some ((if last then s.setRing c o.qa { q with tail := q.tail + 1 } else s).raise o.ctx fl)
def execTcvtRetire (c : CoreId) (s : State) : Out := orSame s (tryTcvtRetire c s)

/-- R243: a governor window begins: `USED` is 0, and a new `BUDGET` takes effect (R355). -/
def tryGovernorWindow (d : BitVec 3) (s : State) : Option State :=
  let w := ((s.die d).clock + 1) / 3000
  if (s.die d).govWin < w then
    some { (s.setDie d { s.die d with govWin := w }) with
      cores := s.cores.map fun e =>
        if e.1 / 1024 = d.toNat then (e.1, { e.2 with used := 0, budget := e.2.budgetNext.getD e.2.budget, budgetNext := none }) else e }
  else none
def execGovernorWindow (d : BitVec 3) (s : State) : Out := orSame s (tryGovernorWindow d s)

end Sys2Proof.Machine
end

