-- ==== Sys2Proof/Machine/Engine.lean ====
section
/-! DEFINITION. The copy engine (spec/12 R246 to R254, R379; spec/10 R219), the return of image reads (spec/11 R231 to R234), and DSMODE
(spec/12 R255). -/

namespace Sys2Proof.Machine

-- the command image (R247)

def cmdNat (i : BitVec 512) (lo w : Nat) : Nat := i.toNat / 2 ^ lo % 2 ^ w
def cmdSsp (i : BitVec 512) : Nat := cmdNat i 4 2
def cmdDsp (i : BitVec 512) : Nat := cmdNat i 6 2
def cmdT (i : BitVec 512) : Bool := i.getLsbD 8
def cmdSdesc (i : BitVec 512) : Nat := cmdNat i 16 6
def cmdCrow (i : BitVec 512) : Nat := cmdNat i 48 8
/-- The bytes of an element of `TOCOMP` and `FROMCOMP`. -/
def cmdEb (i : BitVec 512) : Nat := 2 ^ cmdNat i 56 2
def cmdSync (i : BitVec 512) : Nat := cmdNat i 64 32
def cmdLen (i : BitVec 512) : Nat := cmdNat i 96 32
def cmdK0 (i : BitVec 512) : Nat := cmdNat i 128 32
def cmdRow0 (i : BitVec 512) : Nat := cmdNat i 160 32
def cmdSaddr (i : BitVec 512) : Nat := cmdNat i 192 64
def cmdDaddr (i : BitVec 512) : Nat := cmdNat i 256 64
def cmdPrec (i : BitVec 512) : Nat := cmdNat i 320 64

/-- Bits `lo` to `lo + w - 1`. -/
def bitsAt (lo w : Nat) : BitVec 512 := BitVec.ofNat 512 ((2 ^ w - 1) * 2 ^ lo)

/-- The bits that a kind uses (R247, R248). -/
def cmdUsed (kind : Nat) : BitVec 512 :=
  let common := bitsAt 0 8 ||| bitsAt 64 32 ||| bitsAt 320 64
  match kind with
  | 0 => common ||| bitsAt 96 32 ||| bitsAt 192 128
  | 1 => common ||| bitsAt 8 1 ||| bitsAt 16 6 ||| bitsAt 32 3 ||| bitsAt 40 7 ||| bitsAt 128 64
  | _ => common ||| bitsAt 48 10 ||| bitsAt 96 32 ||| bitsAt 192 128

/-- The spaces that a kind allows (R248). -/
def cmdSpaces (i : BitVec 512) : Bool :=
  let s := cmdSsp i
  let d := cmdDsp i
  match cmdKind i with
  | 0 => decide (s ≤ 2) && decide (d ≤ 2)
  | 1 => decide (s = 0) && decide (d = 0)
  | 2 => decide (s ≤ 2) && decide (d = 3)
  | _ => decide (s = 3) && decide (d ≤ 2)

/-- An image that R250 step 2 refuses by its own bits. -/
def cmdBad (i : BitVec 512) : Bool :=
  decide (3 < cmdKind i) || decide (i &&& ~~~cmdUsed (cmdKind i) ≠ 0) || !cmdSpaces i || decide (cmdPrec i % 32 ≠ 0)
    || (decide (cmdKind i = 0) && decide (cmdLen i % 8 ≠ 0 ∨ cmdSaddr i % 8 ≠ 0 ∨ cmdDaddr i % 8 ≠ 0))
    || (decide (cmdKind i = 1) && decide (cmdK0 i % 32 ≠ 0))
    || (decide (2 ≤ cmdKind i) && decide (256 < cmdCrow i + 8 * cmdEb i))

/-- The bytes that a kind moves at its two ends. -/
def cmdBytes (i : BitVec 512) : Nat := if cmdKind i = 0 then cmdLen i else cmdLen i * cmdEb i
/-- The units of a command (R248). -/
def cmdTotal (i : BitVec 512) : Nat :=
  match cmdKind i with
  | 0 => (cmdLen i + 63) / 64
  | 1 => cmdNslot i
  | _ => (cmdLen i + 255) / 256

-- the checks of R250

/-- The descriptors of a `TILE` command: the source's, and the ring's (R250 step 2). -/
def Core.tileDescs (x : Core) (b : Block) (i : BitVec 512) : Desc × Ring × Desc :=
  let r := x.ring (b.ring0 + cmdDring i)
  (x.desc (b.desc0 + cmdSdesc i), r, x.desc r.desc.toNat)

/-- What step 2 finds of a `TILE` command's descriptor and ring. -/
def Core.tileBad (x : Core) (b : Block) (i : BitVec 512) : Option Byte :=
  let (sd, r, _) := x.tileDescs b i
  if b.ndesc ≤ cmdSdesc i ∨ b.nring ≤ cmdDring i ∨ sd.valid = false ∨ descH sd.image ≠ 0 ∨ r.cfg = false
      ∨ cmdNslot i = 0 ∨ r.depth.toNat < cmdNslot i then some causeOperand
  else if r.iseg ≠ 0 then some causeTile
  else none

/-- The lowest offset of a window range that R164 refuses: the rule holds in the whole range when it holds at its start, at each
bank-group boundary and at the window's end. -/
def State.windowFail (s : State) (c : CoreId) (b : Block) (o n : Nat) : Option Nat :=
  let lim := min (o + n) b.dwsize
  let starts := (List.range 17).map fun k => (k + (b.dwbase + o) / 65536 + 1) * 65536 - b.dwbase
  let cands := o :: starts.filter fun p => decide (o < p) && decide (p < lim)
  let bad := (cands.filter fun p => (s.deepAt c b p 1).isNone) ++ (if b.dwsize < o + n then [max o b.dwsize] else [])
  if n = 0 then none
  else match bad with
    | [] => none
    | p :: ps => some (ps.foldl min p)

/-- Every lane of a range lies in a group of the holding in compute mode (R248). -/
def State.lanesOk (s : State) (c : CoreId) (b : Block) (lane n : Nat) : Bool :=
  let y := s.ctx b.ctx
  decide (n = 0) || (decide (lane + n ≤ 2048 * y.count)
    && (List.range y.count).all fun g =>
      !(decide (2048 * g < lane + n) && decide (lane < 2048 * (g + 1))) || decide ((s.slab c).mode (y.first + g) = some 2))

/-- One end of a command checked by step 4: the trap and TRAPADDR, which the rule does not give for a range of lanes, of the window or of the scratchpad:
the first lane's number, the lowest offset that R164 refuses, the start (log 99: DESIGN CHOICE). -/
def State.spaceBad (s : State) (c : CoreId) (b : Block) (sp addr n lanes : Nat) : Option (Byte × Nat) :=
  match sp with
  | 0 => none
  | 1 => if (b.scratchAt addr n).isNone then some (causePermission, addr) else none
  | 2 => (s.windowFail c b addr n).map fun o => (causeDeep, o)
  | _ => if s.lanesOk c b addr lanes then none else some (causeDeep, addr)

/-- Steps 2 to 4 of R250: the first check that fails; of the two ends the source's comes first (log 99: DESIGN CHOICE). -/
def State.cpyBad (s : State) (c : CoreId) (b : Block) (i : BitVec 512) : Option (Byte × Nat) :=
  if cmdBad i then some (causeOperand, 0)
  else
    match if cmdKind i = 1 then (s.core c).tileBad b i else none with
    | some cause => some (cause, 0)
    | none =>
      if cmdSync i ≠ 0xFFFFFFFF ∧ cmdSync i % 16 ≠ 0 then some (causeMisaligned, cmdSync i)
      else if cmdSync i ≠ 0xFFFFFFFF ∧ (b.scratchAt (cmdSync i) 16).isNone then some (causePermission, cmdSync i)
      else if cmdKind i = 1 then none
      else
        match s.spaceBad c b (cmdSsp i) (cmdSaddr i) (cmdBytes i) (cmdLen i) with
        | some x => some x
        | none => s.spaceBad c b (cmdDsp i) (cmdDaddr i) (cmdBytes i) (cmdLen i)

-- bytes of SRAM

/-- A byte of SRAM. -/
def sramByte (t : Sparse Unit8) (off : Nat) : PByte :=
  let u := Sparse.get {} t (off / 8)
  (u.val.extractLsb' (8 * (off % 8)) 8, u.pois)

/-- Why a unit is not delivered. -/
inductive EngStop where
  | miss (s : State)
  | fault (s : State) (cause : Byte) (va : Word)
  /-- A read that may get no answer has not left yet. -/
  | leave

/-- A command of a core at work: its core, its command slot, itself, its block. -/
structure EngAt where
  c : CoreId
  n : Nat
  m : Cmd
  b : Block

/-- The moment of the read of the unit in hand. -/
def Cmd.moment (m : Cmd) : Nat := 2 ^ 64 * (m.done + 1) + m.left

/-- A global address of a command translated (R250). -/
def State.engTr (s : State) (e : EngAt) (va : Nat) (n : Need) : Except EngStop Nat :=
  match s.translate e.c (16 + e.n) e.b.boot e.b.ctx (BitVec.ofNat 64 va) n with
  | .ok pa => .ok pa
  | .miss t => .error (.miss t)
  | .fault t cause => .error (.fault t cause (BitVec.ofNat 64 va))

/-- A byte of the base image, as an engine reads it (R159, R219), no sooner than R160's time (R379); where no answer has come 200 µs after the
unit's reads began its value is poison (R333, R347). -/
def State.globalByte (s : State) (e : EngAt) (va : Nat) : Except EngStop PByte :=
  match s.engTr e va needR with
  | .error x => .error x
  | .ok pa =>
    let lost := s.mayBeLost e.c.die pa
    if lost && e.m.reading.isNone then .error .leave
    else if lost && e.m.reading.any (s.late e.c) then .ok ((Config.freeWord (2 ^ 64 * (s.fresh + 1) + pa)).setWidth 8, true)
    else if (decide (place pa = 0) && (s.die (homeDie pa)).held) || (isPeer pa && !s.peerLive e.c.die pa) || (isHost pa && !s.hostUp e.c.die)
        || decide (s.instant e.c < e.m.issued + 16 * homeRot e.c.die pa e.m.moment) then .error (.miss s)
    else .ok ((s.baseWord (pa / 8)).extractLsb' (8 * (pa % 8)) 8, s.keyPois (pa / 8))

/-- The place in a slab of an offset of a block's window (R164). -/
def State.deepPlace (s : State) (b : Block) (o : Nat) : Nat := 65536 * (s.ctx b.ctx).first + b.dwbase + o

/-- Bytes of one of the spaces that are addressed by bytes. -/
def State.engRead (s : State) (e : EngAt) (sp addr n : Nat) : Except EngStop (List PByte) :=
  match sp with
  | 0 => (List.range n).mapM fun i => s.globalByte e (addr + i)
  | 1 => .ok ((List.range n).map fun i => sramByte (s.core e.c).scratch (e.b.scrbase + addr + i))
  | _ => .ok ((List.range n).map fun i => sramByte (s.slab e.c).units (s.deepPlace e.b (addr + i)))

-- lanes (R161, R248)

/-- The unit of a slab that holds a block of 64 lanes in a row. -/
def laneUnit (first lb row : Nat) : Nat := 8192 * (first + lb / 32) + 1024 * (lb % 32 / 4) + 4 * row + lb % 4

/-- An element of some lanes' rows: lane λ, `w` rows from `row`. -/
def readLane (t : Sparse Unit8) (first lane row w : Nat) : Nat × Bool :=
  (List.range w).foldr (fun i a =>
    let u := Sparse.get {} t (laneUnit first (lane / 64) (row + i))
    ((if u.val.getLsbD (lane % 64) then 1 else 0) + 2 * a.1, u.pois || a.2)) (0, false)

/-- Bit i of some elements written into a row of consecutive lanes, by the rules of R148. -/
def writeLaneRow (first lane row i : Nat) (vs : List (Nat × Bool)) (t : Sparse Unit8) : Sparse Unit8 :=
  let n := vs.length
  (List.range ((lane + n - 1) / 64 - lane / 64 + 1)).foldl (fun t j =>
    let lb := lane / 64 + j
    let at_ := laneUnit first lb row
    let here := (List.range 64).filterMap fun k => if 64 * lb + k < lane then none else (vs[64 * lb + k - lane]?).map fun v => (k, v)
    let u := Sparse.get {} t at_
    let mask := here.foldl (fun m e => m + 2 ^ e.1) 0
    let val := here.foldl (fun m e => m + e.2.1 / 2 ^ i % 2 * 2 ^ e.1) 0
    putUnit t at_ { val := (u.val &&& ~~~BitVec.ofNat 64 mask) ||| BitVec.ofNat 64 val,
                    pois := (here.any fun e => e.2.2) || (u.pois && decide (here.length < 64)) }) t

-- writes of a unit

/-- The key words of global bytes: address of the word, its bytes' mask, its value, its poison (R219). -/
def State.engWords (s : State) (e : EngAt) : Nat → Nat → List PByte → Except EngStop (List (Nat × Byte × Word × Bool))
  | 0, _, _ => .ok []
  | f + 1, va, bs =>
    if bs = [] then .ok []
    else
      let o := va % 8
      let h := bs.take (8 - o)
      match s.engTr e va needW with
      | .error x => .error x
      | .ok pa =>
        match s.engWords e f (va + h.length) (bs.drop (8 - o)) with
        | .error x => .error x
        | .ok ws =>
          .ok ((pa / 8, BitVec.ofNat 8 ((2 ^ h.length - 1) * 2 ^ o), BitVec.ofNat 64 (bytesVal h * 2 ^ (8 * o)), anyBad h) :: ws)

/-- The block of a command, and the name of its issuer. -/
def State.cmdName (s : State) (c : CoreId) (m : Cmd) : Nat := slotName c m.slot (s.slot c m.slot)

/-- A command's SET records, as parts of one write, on their way to their homes; their numbers (R219, R294, R338). -/
def State.engSend (s : State) (c : CoreId) (m : Cmd) (unit : Nat) : List (Nat × Byte × Word × Bool) → State × List Nat
  | [] => (s, [])
  | (key, mask, v, po) :: ws =>
    let r := { setRec key v mask m.ctx c.die (s.lnumOf c) 0 po [] true with movers := [s.cmdName c m], unit := unit }
    let (u, ids) := (s.sendRec c.die c.die.toNat r).engSend c m unit ws
    (u, s.seqno :: ids)

/-- A command of a core replaced. -/
def State.setCmd (s : State) (c : CoreId) (n : Nat) (m : Cmd) : State :=
  s.setCore c { s.core c with cmds := Sparse.set (s.core c).cmds n m }

/-- A unit of `n` bytes is delivered: its add (R150, R151), and the count of units (R251). -/
def State.counted (s : State) (c : CoreId) (n : Nat) (m : Cmd) (bytes : Nat) : State :=
  let b := (s.core c).blockAt m.blk
  let s := if cmdSync m.image = 0xFFFFFFFF then s else s.syncAdd c (b.scrbase + cmdSync m.image) bytes m.gen
  s.setCmd c n { m with done := m.done + 1, out := [], sent := false, reading := none }

/-- One of two contents of a unit, bit by bit, as a free value has it: what rows hold that a copy and a microinstruction touch at one time (R260,
R262). -/
def mixUnit (n : Nat) (old new : Unit8) : Unit8 :=
  let f := Config.freeWord n
  { val := (old.val &&& ~~~f) ||| (new.val &&& f), pois := if (Config.freeWord (n + 1)).getLsbD 0 then new.pois else old.pois }
/-- The number of the free value for a unit in this step. -/
def State.unitDraw (s : State) (i : Nat) : Nat := 2 ^ 64 * (s.fresh + 1) + 4 * i

/-- The units of a slab as the copy engine reads its lanes: those that a running microinstruction writes hold old bits or new ones (R260, R262). -/
def State.lanesSeen (s : State) (c : CoreId) : Sparse Unit8 :=
  (s.slab c).seq.wr.foldl (fun t e => Sparse.set t e.1 (mixUnit (s.unitDraw e.1) (Sparse.get {} t e.1) e.2)) (s.slab c).units

/-- Two units are of one block of 64 lanes. -/
def sameLanes (i j : Nat) : Bool := decide (i / 1024 = j / 1024 ∧ i % 4 = j % 4)
/-- The row of a unit. -/
def unitRow (i : Nat) : Nat := i % 1024 / 4

/-- A unit of lanes that the copy engine writes while a microinstruction runs: where that writes the unit too, each bit stays old or becomes either's;
where it has read it, what it writes in those lanes is free (R262; log 88: DESIGN CHOICE). -/
def State.raceUnit (s : State) (y : Slab) (i : Nat) (new : Unit8) : Slab :=
  match Sparse.find y.seq.wr i with
  | some w =>
    let u := mixUnit (s.unitDraw i) (Sparse.get {} y.units i) new
    { y with units := Sparse.set y.units i u, seq := { y.seq with wr := Sparse.set y.seq.wr i (mixUnit (s.unitDraw i + 2) u w) } }
  | none =>
    let read := y.seq.src.any fun r => decide (r.1 ≤ unitRow i ∧ unitRow i < r.1 + r.2)
    let free (e : Nat × Unit8) : Nat × Unit8 :=
      if read && sameLanes e.1 i then (e.1, mixUnit (s.unitDraw e.1) e.2 ⟨~~~e.2.val, !e.2.pois⟩) else e
    { y with units := putUnit y.units i new, seq := { y.seq with wr := y.seq.wr.map free } }

/-- The copy engine writes bits of rows of consecutive lanes (R248, R262). -/
def State.copyRows (s : State) (c : CoreId) (first lane row : Nat) (bits : List Nat) (vs : List (Nat × Bool)) : State :=
  let y := s.slab c
  let units := bits.foldl (fun t j => writeLaneRow first lane (row + j) j vs t) y.units
  if y.seq.wr = [] then s.setSlab c { y with units := units }
  else
    let ids := bits.flatMap fun j => (List.range ((lane + vs.length - 1) / 64 - lane / 64 + 1)).map fun k => laneUnit first (lane / 64 + k) (row + j)
    { s.setSlab c (ids.foldl (fun y i => s.raceUnit y i (Sparse.get {} units i)) y) with fresh := s.fresh + 1 }

/-- The next piece of a unit is written, by a grant of R294: SRAM takes one piece in each cycle, key words go on their way (R250, R251). -/
def State.grantPiece (s : State) (c : CoreId) (n : Nat) (m : Cmd) : State :=
  match m.pieces with
  | [] => s
  | p :: ps =>
    let m := { m with pieces := ps }
    match p with
    | .words ws =>
      let (t, ids) := s.engSend c m m.unit ws
      let t := t.setCmd c n { m with out := m.out ++ ids }
      t.setCore c { t.core c with lastCmd := n }
    | .bytes deep place bs =>
      let t := (s.addStores c deep (s.clock c) [(place, bs)]).setCmd c n { m with upto := s.clock c + 1 }
      t.setCore c { t.core c with cpyFree := s.clock c + 1, lastCmd := n }
    | .rows first lane row bits vs =>
      let t := (s.copyRows c first lane row bits vs).setCmd c n { m with upto := s.clock c + 1 }
      t.setCore c { t.core c with cpyFree := s.clock c + 1, lastCmd := n }

/-- A unit has been read: the write of its pieces begins with the first. -/
def State.beginUnit (s : State) (c : CoreId) (n : Nat) (m : Cmd) (ps : List Piece) : State :=
  let m := { m with sent := true, unit := s.seqno, out := [], pieces := ps }
  (s.tick1.setCmd c n m).grantPiece c n m

/-- Key words in runs of one line each. -/
def lineRuns : List (Nat × Byte × Word × Bool) → List (List (Nat × Byte × Word × Bool))
  | [] => []
  | w :: ws =>
    match lineRuns ws with
    | (v :: vs) :: rest => if w.1 / 8 = v.1 / 8 then (w :: v :: vs) :: rest else [w] :: (v :: vs) :: rest
    | rest => [w] :: rest

/-- The pieces of a unit's bytes for their space (R250, R251). -/
def State.engPieces (s : State) (e : EngAt) (sp addr : Nat) (bs : List PByte) : Except EngStop (List Piece) :=
  match sp with
  | 0 => (s.engWords e (bs.length + 1) addr bs).map fun ws => (lineRuns ws).map .words
  | _ =>
    let deep := decide (sp ≠ 1)
    .ok ((linePieces (bs.length + 1) (if deep then s.deepPlace e.b addr else e.b.scrbase + addr) bs).map fun p => .bytes deep p.1 p.2)

/-- Bytes of a unit go to their space. -/
def State.engWrite (s : State) (e : EngAt) (sp addr : Nat) (bs : List PByte) : Except EngStop State :=
  (s.engPieces e sp addr bs).map fun ps => s.beginUnit e.c e.n e.m ps

-- TILE (R249, R377)

/-- The bytes of a K slot that position j reads, from the slot's start: for SX its block's exponent and sub-shifts too, and a block that
also holds positions at or beyond `KLEN` whole. -/
def elemSpan (f j : Nat) (whole : Bool) : List Nat :=
  if fmtIsSx f then
    let b := fmtSeg f * (j / 16)
    if whole then (List.range (fmtSeg f)).map fun i => b + i
    else
      let w := fmtSx f + 1
      let o := 16 + w * (j % 16)
      [b, b + 1] ++ (List.range ((o + w + 7) / 8 - o / 8)).map fun i => b + o / 8 + i
  else
    let w := fmtBits f
    (List.range ((w * j + w + 7) / 8 - w * j / 8)).map fun i => w * j / 8 + i

/-- The value of position j from the bytes of its span, by their offset in the K slot. -/
def elemValue (f j : Nat) (fzi : Bool) (scale : Nat) (at_ : List (Nat × PByte)) : XVal :=
  let byte (o : Nat) : Nat := match at_.find? fun e => decide (e.1 = o) with
    | some e => e.2.1.toNat
    | none => 0
  if fmtIsSx f then
    let b := fmtSeg f * (j / 16)
    ((sxDecode (fmtSx f) ((List.range (fmtSeg f)).foldr (fun i a => byte (b + i) + 256 * a) 0))[j % 16]?).getD (.zero false)
  else
    let w := fmtBits f
    let lo := w * j / 8
    let v := (byte lo + 256 * byte (lo + 1) + 65536 * byte (lo + 2) + 2 ^ 24 * byte (lo + 3)) / 2 ^ (w * j % 8) % 2 ^ w
    if fmtInt f then .ofInt (intOf true w v)
    else if fmtMx f then ((mxDecode (fmtElt f) scale [v])[0]?).getD (.zero false)
    else decodeF (fmtElt f) fzi v

/-- The address of the K slot of a row that holds a position of a global tensor, and that of the position's scale byte (R228, R249). -/
def elemAt (d : BitVec 256) (row pos : Nat) : Nat := (descBase d).toNat + row * descStride d + 128 * (pos / fmtK (descFmt d))
def scaleAt (d : BitVec 256) (row pos : Nat) : Nat := (descSbase d).toNat + row * descSstride d + pos / 32
/-- The bytes of its K slot that a position reads. -/
def spanAt (d : BitVec 256) (pos : Nat) : List Nat :=
  let k := fmtK (descFmt d)
  elemSpan (descFmt d) (pos % k) (decide (descKlen d < pos / k * k + (pos % k / 16 + 1) * 16))

/-- The addresses that the read of an element reaches. -/
def elemVas (d : BitVec 256) (row pos : Nat) : List Nat :=
  if descRows d ≤ row ∨ descKlen d ≤ pos then []
  else (spanAt d pos).map (elemAt d row pos + ·) ++ if fmtMx (descFmt d) then [scaleAt d row pos] else []

/-- The element of a global tensor at a row and K position, with the poison of the bytes it reads (R249, R377). (log 41: DEDUCED) -/
def State.tensorElem (s : State) (e : EngAt) (d : BitVec 256) (fzi : Bool) (row pos : Nat) :
    Except EngStop (XVal × Bool) :=
  let f := descFmt d
  if descRows d ≤ row ∨ descKlen d ≤ pos then .ok (.zero false, false)
  else
    let j := pos % fmtK f
    match (spanAt d pos).mapM fun o => (s.globalByte e (elemAt d row pos + o)).map fun v => (o, v) with
    | .error x => .error x
    | .ok bs =>
      let po := bs.any fun x => x.2.2
      if fmtMx f then
        match s.globalByte e (scaleAt d row pos) with
        | .error x => .error x
        | .ok sc => .ok (elemValue f j fzi sc.1.toNat bs, po || sc.2)
      else .ok (elemValue f j fzi 0 bs, po)

/-- The row and K position of the source that element j of row r of slot u of a `TILE` command comes from (R249). -/
def Cmd.tilePos (m : Cmd) (u r j : Nat) : Nat × Nat :=
  let p := cmdK0 m.image + u * fmtK (descFmt m.ddesc) + j
  let o := cmdRow0 m.image + r
  if cmdT m.image then (p, o) else (o, p)

/-- Row r of slot u of a `TILE` command: its elements and its poison (R249). -/
def State.tileSource (s : State) (e : EngAt) (u r : Nat) : Except EngStop (List XVal × Bool) :=
  let m := e.m
  match (List.range (fmtK (descFmt m.ddesc))).mapM fun j => s.tensorElem e m.sdesc (fpFzi m.fpcr) (m.tilePos u r j).1 (m.tilePos u r j).2 with
  | .error x => .error x
  | .ok es => .ok (es.map Prod.fst, es.any Prod.snd)

/-- A row transformed by runs of n elements (R55). -/
def hadamardRow (fpcr : Word) (h : Nat) (xs : List XVal) : List XVal × FFlags :=
  let n := if h = 1 then 16 else 32
  if h = 0 then (xs, 0)
  else (chunks n (xs.length / n) xs).foldr (fun run a =>
    let (ys, fl) := hadamard (sumsDown fpcr) run
    (ys ++ a.1, fl ||| a.2)) ([], 0)

/-- A row rounded into a format: its bytes as a number, its eight scale bytes, the flags, the rounder after it (R53, R249). -/
def ringEncode (f : Nat) (fpcr : Word) (xs : List XVal) (r : Rounder) : Nat × Nat × FFlags × Rounder :=
  if fmtMx f then
    (chunks 32 (xs.length / 32) xs).zipIdx.foldl (fun (a : Nat × Nat × FFlags × Rounder) (g, i) =>
      let (sc, vs, fl, r) := mxEncode (fmtElt f) g a.2.2.2
      (a.1 + packBits (fmtBits f) vs * 2 ^ (32 * fmtBits f * i), a.2.1 + sc * 256 ^ i, a.2.2.1 ||| fl, r)) (0, 0, 0, r)
  else
    let (v, fl, r) := fmtEncode f fpcr xs r
    (v, 0, fl, r)

/-- The rows of a slot rounded, in ascending order: the bytes of each, their scale bytes, the flags, the generator after them (R249). -/
def tileRows (m : Cmd) : List (List XVal × Bool) → Rounder → List (List PByte) × List PByte × FFlags × Rounder
  | [], r => ([], [], 0, r)
  | (xs, po) :: rows, r =>
    let sig := xs.foldl (fun fl x => fl ||| x.sigFlag) (0 : FFlags)
    let (ys, fl1) := hadamardRow m.fpcr (descH m.ddesc) xs
    let (v, sc, fl2, r) := ringEncode (descFmt m.ddesc) m.fpcr ys r
    let (vs, scs, fl, r) := tileRows m rows r
    (bytesOf 128 v po :: vs, bytesOf 8 sc po ++ scs, sig ||| fl1 ||| fl2 ||| fl, r)

/-- A `TILE` unit is read, converted and on its way into its slot, once it is next to be committed (R235, R249, R251). -/
def State.tileUnit (s : State) (e : EngAt) : Except EngStop State :=
  let m := e.m
  let q := (s.core e.c).ring ((s.core e.c).cmdRing m)
  let count := m.base + BitVec.ofNat 12 m.done
  if q.tail ≠ count then .error (.miss s)
  else
    match (List.range 16).mapM fun r => s.tileSource e m.done r with
    | .error x => .error x
    | .ok rows =>
      let (vs, scs, fl, g) := tileRows m rows { engineRounder m.fpcr (descFmt m.ddesc) m.seed with s := m.gsr }
      let ps := vs.zipIdx.flatMap (fun (v, i) => linePieces 3 (Ring.rowAt e.b q count i) v)
        ++ if fmtMx (descFmt m.ddesc) then linePieces 3 (Ring.scaleAt e.b q (descSbase m.ddesc).toNat count 0) scs else []
      .ok ((s.raise m.ctx fl).beginUnit e.c e.n { m with gsr := g.s } (ps.map fun p => .bytes false p.1 p.2))

-- delivery (R248, R250, R251, R379)

/-- The bytes of the unit in hand. -/
def Cmd.unitBytes (m : Cmd) : Nat :=
  match cmdKind m.image with
  | 0 => min 64 (cmdLen m.image - 64 * m.done)
  | 1 => 2048
  | _ => min 256 (cmdLen m.image - 256 * m.done) * cmdEb m.image

/-- The unit in hand, up to its sending. (log 40: DEDUCED) -/
def State.unit (s : State) (c : CoreId) (n : Nat) (m : Cmd) : Except EngStop State :=
  let b := (s.core c).blockAt m.blk
  let e : EngAt := ⟨c, n, m, b⟩
  let i := m.image
  let eb := cmdEb i
  let k := min 256 (cmdLen i - 256 * m.done)
  let first := (s.ctx b.ctx).first
  match cmdKind i with
  | 0 =>
    match s.engRead e (cmdSsp i) (cmdSaddr i + 64 * m.done) m.unitBytes with
    | .error x => .error x
    | .ok bs => s.engWrite e (cmdDsp i) (cmdDaddr i + 64 * m.done) bs
  | 1 => s.tileUnit e
  | 2 =>
    match s.engRead e (cmdSsp i) (cmdSaddr i + 256 * m.done * eb) m.unitBytes with
    | .error x => .error x
    | .ok bs =>
      let vs := (chunks eb k bs).map fun x => (bytesVal x, anyBad x)
      let ps := (List.range ((m.unitBytes + 63) / 64)).map fun p =>
        Piece.rows first (cmdDaddr i + 256 * m.done) (cmdCrow i) ((List.range (8 * eb)).filter fun j => decide (j * k / 512 = p)) vs
      .ok (s.beginUnit c n m ps)
  | _ =>
    let t := s.lanesSeen c
    let vs := (List.range k).map fun j => readLane t first (cmdSaddr i + 256 * m.done + j) (cmdCrow i) (8 * eb)
    (if (s.slab c).seq.wr = [] then s else { s with fresh := s.fresh + 1 }).engWrite e (cmdDsp i) (cmdDaddr i + 256 * m.done * eb) (vs.flatMap fun v => bytesOf eb v.1 v.2)

/-- The lines of global memory that the unit in hand reads, once its addresses are translated. -/
def State.unitLines (s : State) (e : EngAt) : List Nat :=
  let m := e.m
  let i := m.image
  let vas : List Nat := match cmdKind i with
    | 0 => if cmdSsp i = 0 then (List.range m.unitBytes).map fun j => cmdSaddr i + 64 * m.done + j else []
    | 1 => (List.range 16).flatMap fun r => (List.range (fmtK (descFmt m.ddesc))).flatMap fun j =>
        elemVas m.sdesc (m.tilePos m.done r j).1 (m.tilePos m.done r j).2
    | 2 => if cmdSsp i = 0 then (List.range m.unitBytes).map fun j => cmdSaddr i + 256 * m.done * cmdEb i + j else []
    | _ => []
  vas.foldl (fun l va => match s.engTr e va needR with
    | .ok pa => insertNum (pa / 64) l
    | .error _ => l) []

/-- A unit that has been sent is delivered: a `TILE` slot is committed (R235, R251). -/
def State.deliverUnit (s : State) (c : CoreId) (n : Nat) (m : Cmd) : State :=
  let qn := (s.core c).cmdRing m
  let q := (s.core c).ring qn
  (if cmdKind m.image = 1 then s.setRing c qn { q with tail := q.tail + 1 } else s).counted c n m m.unitBytes

/-- Rotations of a source of a command that is no global memory (R160): scratchpad 1, deep scratch and lanes 3. -/
def cmdRot (i : BitVec 512) : Nat := if cmdKind i = 1 ∨ cmdSsp i = 0 then 0 else if cmdSsp i = 1 then 1 else 3

/-- A command may take up its next unit: the core's clocks run, the engine is free, a source in the core has had its R160 time. -/
def State.unitDue (s : State) (c : CoreId) (m : Cmd) : Bool :=
  let now := s.clock c
  s.coreRuns c && decide (m.st = .running) && decide ((s.core c).cpyFree ≤ now) && decide (m.issued + 16 * cmdRot m.image ≤ s.instant c)

/-- The next piece of the unit in hand can be written now. -/
def State.pieceDue (s : State) (c : CoreId) (m : Cmd) : Bool :=
  s.coreRuns c && match m.pieces with
  | [] => false
  | .words _ :: _ => true
  | .bytes _ _ _ :: _ => decide ((s.core c).cpyFree ≤ s.clock c)
  | .rows _ _ _ _ _ :: _ => decide ((s.core c).cpyFree ≤ s.clock c)

/-- A command could be granted a piece now: one of the unit in hand, or the first of its next, for which it waits for no translation and for no
other command's slots of its ring. -/
def State.cmdWants (s : State) (c : CoreId) (n : Nat) (m : Cmd) : Bool :=
  s.pieceDue c m || s.unitDue c m && !m.sent && !m.closing && decide (m.done < cmdTotal m.image)
    && !((s.die c.die).misses.any fun x => decide (x.core = c ∧ x.who = 16 + n ∧ x.fault = none))
    && (decide (cmdKind m.image ≠ 1) || decide (((s.core c).ring ((s.core c).cmdRing m)).tail = m.base + BitVec.ofNat 12 m.done))

/-- The command's turn in the round of the core's commands (R294): none that could be granted a piece comes before it. -/
def State.cmdTurn (s : State) (c : CoreId) (n : Nat) : Bool :=
  let rank (k : Nat) : Nat := (k + 7 - (s.core c).lastCmd % 8) % 8
  !(s.core c).cmds.any fun e => decide (rank e.1 < rank n) && s.cmdWants c e.1 e.2

/-- The progress record (R253). -/
def precWords (total done clock : Nat) (cause : Byte) (va : Word) (st : Nat) : List Word :=
  [BitVec.ofNat 64 (done % 2 ^ 32 * 2 ^ 32 + cause.toNat * 256 + st), BitVec.ofNat 64 (total + clock % 2 ^ 32 * 2 ^ 32), va, 0]

/-- The progress record sent, where the command has one, once the tables can be walked; the numbers of its records (R253, R296, R305). In boot state its
address is physical (R372). -/
def State.writePrec (s : State) (c : CoreId) (m : Cmd) (cause : Byte) (va : Word) (st : Nat) : Option (State × List Nat) :=
  let b := (s.core c).blockAt m.blk
  let ws := precWords (cmdTotal m.image) m.done (s.clock c) cause va st
  let send (t : State) (pa : Nat) : State × List Nat := t.tick1.engSend c m t.seqno (ws.zipIdx.map fun (w, i) => (pa / 8 + i, 0xFF, w, false))
  if m.prec = 0 then some (s, [])
  else if b.boot then some (match bootAccess m.prec needW with
    | none => (s, [])
    | some pa => send s pa)
  else
    (s.hubWalk c.die m.ctx m.prec).map fun t => match t.hubWrite m.ctx m.prec with
      | none => (t.logEvent c.die 0x13 (some m.ctx) c.pos 0 0 m.prec, [])
      | some pa => send t pa

/-- A command of a core is gone, and the misses of its translations with it (R306). -/
def State.dropCmd (s : State) (c : CoreId) (n : Nat) : State :=
  let t := s.dropMisses c.die fun x => decide (x.core = c ∧ x.who = 16 + n)
  t.setCore c { t.core c with cmds := Sparse.del (t.core c).cmds n }

/-- A command that has delivered every unit: its progress record is sent, and then the slot frees (R251). -/
def State.closeCmd (s : State) (c : CoreId) (n : Nat) (m : Cmd) : Option State :=
  (s.writePrec c m 0 0 1).map fun (t, ids) => if ids = [] then t.dropCmd c n else t.setCmd c n { m with closing := true, out := ids }

/-- R251: a command's next step: a unit's write begins or goes on by a piece, the unit is counted once it is written and applied, or the command completes. -/
def tryCopyUnitDeliver (c : CoreId) (cmd : BitVec 3) (s : State) : Option State :=
  let n := cmd.toNat
  match Sparse.find (s.core c).cmds n with
  | none => none
  | some m =>
    if m.closing then
      if s.unapplied m.out then none else some (s.dropCmd c n)
    else if m.pieces ≠ [] then (if s.pieceDue c m && s.cmdTurn c n then some (s.grantPiece c n m) else none)
    else if m.sent then
      if s.unapplied m.out || decide (s.clock c < m.upto) || !s.coreRuns c then none else some (s.deliverUnit c n m)
    else if !s.unitDue c m then none
    else if cmdTotal m.image ≤ m.done then s.closeCmd c n m
    else if !s.cmdTurn c n then none
    else
      match s.unit c n m with
      | .ok t =>
        let lost := m.reading.any (s.late c)
        (if lost then { t with fresh := t.fresh + 1 } else t).openRows m.moment (s.unitLines ⟨c, n, m, (s.core c).blockAt m.blk⟩)
      | .error (.miss t) => if t.seqno = s.seqno then none else some t
      | .error .leave => some (s.setCmd c n { m with reading := some (s.clock c) })
      | .error (.fault _ _ _) => none
def execCopyUnitDeliver (c : CoreId) (cmd : BitVec 3) (s : State) : Out := orSame s (tryCopyUnitDeliver c cmd s)

/-- R252, R312: a translation of a running command faults: it stays faulted at its unit; the issuing slot traps later, or the host is
told. -/
def tryCopyTranslationFault (c : CoreId) (cmd : BitVec 3) (s : State) : Option State :=
  let n := cmd.toNat
  match Sparse.find (s.core c).cmds n with
  | none => none
  | some m =>
    if m.closing || m.sent || !s.unitDue c m || decide (cmdTotal m.image ≤ m.done) then none
    else
      match s.unit c n m with
      | .error (.fault t cause va) =>
        ((t.setCmd c n { m with st := .faulted cause va }).writePrec c m cause va 2).map fun (t, _) =>
          let b := (t.core c).blockAt m.blk
          let y := t.ctx m.ctx
          if !b.boot && y.rply && decide (y.fqbase ≠ 0) then
            let f : FaultRec :=
              { seq := y.fseq, kind := 4, cause := cause, va := va, pc := 0, core := c, slot := m.slot, score := t.lnumOf c, cmd := cmd,
                gen := (t.slot c m.slot).gen, clock := t.clock c }
            t.setCtx m.ctx { y with fseq := y.fseq + 1, faults := y.faults ++ [f] }
          else
            let x := t.slot c m.slot
            if x.st = .running then t.setSlot c m.slot { x with epend := x.epend ++ [(causeEngine, va)] } else t
      | _ => none
def execCopyTranslationFault (c : CoreId) (cmd : BitVec 3) (s : State) : Out := orSame s (tryCopyTranslationFault c cmd s)

-- CPY, CPYSTAT, CPYRES

/-- The wait of R246: the taints of the registers an instruction reads, of its guard and of control are empty. -/
def State.unquiet (s : State) (gd : Guard) (rs : List RegId) : Bool :=
  decide (s.cs.taints (.p gd.p :: rs) ||| s.cs.ctaint ≠ 0)

/-- R250: reads its image. -/
def execCpy (gd : Guard) (d : GIx) (a : GIx) (disp : BitVec 32) (s : State) : Out :=
  s.issue { gd := gd, len := 12, reads := [.g a], writes := [.g d], traps := [.g a] } false fun env =>
    s.issueImage env (.cpy d) (s.baseDisp a disp) 64 8

/-- A command that issues in `rsr` and converts takes the engine generator from a slot's generator, which steps (R52). -/
def State.cmdSeed (s : State) (c : CoreId) (k : BitVec 4) (m : Cmd) : State :=
  if cmdKind m.image = 1 ∧ fpRm m.fpcr = 5 ∧ descFmt m.ddesc ≠ 9 then s.setSlot c k
    { s.slot c k with fpcr := lfsrStep (s.srSeed c (s.slot c k)) (fpSr (s.slot c k).fpcr) ++ (s.slot c k).fpcr.extractLsb' 0 32 }
  else s
/-- The engine generator after that. -/
def State.cmdGen (s : State) (c : CoreId) (k : BitVec 4) : BitVec 32 := (fpSr (s.slot c k).fpcr).reverse

/-- The free command slot that a new command takes: the lowest. (log 34: DESIGN CHOICE) -/
def Core.freeCmd (x : Core) : Option Nat := (List.range 8).find? fun n => (Sparse.find x.cmds n).isNone

/-- The ring of a `TILE` command that waits at step 6 of R250. -/
def Core.cpyRing (x : Core) (y : Slot) (i : BitVec 512) : Option Nat :=
  if cmdKind i = 1 then some ((x.blockAt (y.blk.getD 0)).ring0 + cmdDring i) else none
/-- What a CPY at step 6 needs beside a command slot is there: its ring slots, and room for a word to g61. -/
def Core.cpyFits (x : Core) (y : Slot) (d : GIx) (i : BitVec 512) : Bool :=
  (match x.cpyRing y i with
    | none => true
    | some q => decide (((x.ring q).resv - (x.ring q).head).toNat + cmdNslot i ≤ (x.ring q).depth.toNat))
  && !(decide (d = 61) && decide (8 ≤ x.outq.length))

/-- Another slot of the core has waited longer at step 6 for slots of the same ring (R235). -/
def Core.cpyBehind (x : Core) (y : Slot) (i : BitVec 512) (since : Nat) : Bool :=
  (x.cpyRing y i).isSome && x.slots.toList.any fun z => match z.busy with
    | some (.cpy _ j _ t) => decide (t < since) && decide (x.cpyRing z j = x.cpyRing y i)
    | _ => false
/-- A CPY at step 6 could go, given a command slot: what it needs is there, and no older one waits for its ring (R235). -/
def Core.cpyCan (x : Core) (y : Slot) (d : GIx) (i : BitVec 512) (since : Nat) : Bool := x.cpyFits y d i && !x.cpyBehind y i since
/-- No other slot of the core has waited longer at step 6 and could go (R294). -/
def Core.cpyFirst (x : Core) (since : Nat) : Bool :=
  !x.slots.toList.any fun z => match z.busy with
    | some (.cpy d j _ t) => decide (t < since) && x.cpyCan z d j t
    | _ => false

/-- R250 steps 6 and 7: a command slot, and the ring slots, are there for the CPY that has waited longest. -/
def tryCopySlotReserve (c : CoreId) (k : BitVec 4) (s : State) : Option State :=
  let x := s.slot c k
  match x.busy, (s.core c).freeCmd with
  | some (.cpy d i prec since), some n =>
    let blk := x.blk.getD 0
    let b := (s.core c).blockAt blk
    let qn := b.ring0 + cmdDring i
    let q := (s.core c).ring qn
    let tile := decide (cmdKind i = 1)
    if !(s.core c).cpyFirst since || !(s.core c).cpyCan x d i since || !s.coreRuns c then none
    else
      let (sd, _, rd) := (s.core c).tileDescs b i
      let sync := (readSync (s.core c).scratch (b.scrbase + cmdSync i)).1.gen
      let m : Cmd :=
        { blk := blk, slot := k, ctx := b.ctx, image := i, prec := prec, gen := if cmdSync i = 0xFFFFFFFF then 0 else sync,
          fpcr := x.fpcr, seed := 0, gsr := 0, sdesc := if tile then sd.image else 0, ddesc := if tile then rd.image else 0,
          base := q.resv, issued := s.clock c, left := since }
      let s := s.cmdSeed c k m
      let s := s.setCmd c n { m with seed := s.cmdGen c k, gsr := s.cmdGen c k }
      let s := if tile then s.setRing c qn { q with resv := q.resv + BitVec.ofNat 12 (cmdNslot i) } else s
      let s := { ({ s with cur := (c, k) }.putG d (BitVec.ofNat 64 n) 0 false) with cur := s.cur }
      some (s.endBusy c k)
  | _, _ => none
def execCopySlotReserve (c : CoreId) (k : BitVec 4) (s : State) : Out := orSame s (tryCopySlotReserve c k s)

/-- The CPYSTAT value of a command (R254). -/
def Cmd.stat (m : Cmd) : Word :=
  let (st, cause) : BitVec 2 × Byte := match m.st with
    | .faulted cause _ => (2, cause)
    | .running => (1, 0)
    | .paused => (1, 0)
  st ++ (0 : BitVec 2) ++ cause ++ (0 : BitVec 20) ++ BitVec.ofNat 32 m.done

/-- R254. -/
def execCpystat (gd : Guard) (d : GIx) (a : GIx) (s : State) : Out :=
  s.issue { gd := gd, len := 12, reads := [.g a], writes := [.g d], traps := [.g a] } (s.unquiet gd [.g a]) fun env =>
    let v := s.g a
    if v.extractLsb' 3 61 ≠ 0 then .trap s causeOperand 0
    else
      let r := match Sparse.find (s.core s.cc).cmds v.toNat with
        | some m => if m.blk = s.curBlk then m.stat else 0
        | none => 0
      .done (s.putG d r env.gt false)

/-- A faulted command goes on from its unit, with its generator taken anew from its slot (R52, R254). -/
def State.resumeCmd (s : State) (c : CoreId) (n : Nat) (m : Cmd) : State :=
  let s := s.cmdSeed c m.slot m
  let conv := decide (cmdKind m.image = 1 ∧ fpRm m.fpcr = 5 ∧ descFmt m.ddesc ≠ 9)
  let g := if conv then s.cmdGen c m.slot else m.gsr
  let s := s.dropMisses c.die fun x => decide (x.core = c ∧ x.who = 16 + n)
  s.setCmd c n { m with st := .running, issued := s.clock c, seed := g, gsr := g, reading := none }

/-- R254. -/
def execCpyres (gd : Guard) (a : GIx) (s : State) : Out :=
  s.issue { gd := gd, len := 12, reads := [.g a], writes := [], traps := [.g a] } (s.unquiet gd [.g a]) fun _ =>
    let v := s.g a
    let n := v.toNat % 8
    if v &&& 0xFFFFFFFFFFFFFEF8 ≠ 0 then .trap s causeOperand 0
    else
      match Sparse.find (s.core s.cc).cmds n with
      | none => .trap s causeOperand 0
      | some m =>
        match m.st with
        | .faulted _ _ =>
          if m.blk ≠ s.curBlk then .trap s causeOperand 0
          else if v.getLsbD 8 then .done (s.dropCmd s.cc n)
          else .done (s.resumeCmd s.cc n m)
        | .running => .trap s causeOperand 0
        | .paused => .trap s causeOperand 0

-- image reads (R231, R232, R234, R250, R257)

/-- A ring image refused by R234. -/
def State.ringBad (s : State) (c : CoreId) (b : Block) (v : BitVec 128) : Bool :=
  let dn := (v.extractLsb' 32 6).toNat
  let depth := (v.extractLsb' 24 7).toNat
  let slots := (v.extractLsb' 0 18).toNat
  let d := (s.core c).desc (b.desc0 + dn)
  let sbase := (descSbase d.image).toNat
  decide (v.extractLsb' 38 90 ≠ 0) || v.getLsbD 31 || decide (v.extractLsb' 18 6 ≠ 0) || decide (depth = 0) || decide (64 < depth)
    || decide (slots % 2048 ≠ 0) || decide (b.scrsize < slots + 2048 * depth) || decide (b.ndesc ≤ dn) || !d.valid
    || (fmtMx (descFmt d.image) && (decide (sbase % 128 ≠ 0) || decide (b.scrsize < sbase + 128 * depth)))

/-- An image of 32, 16 or 64 bytes that has been read takes its effect. A ring that has become busy again since RINGCFG found it idle is waited for a
second time (log 97: DESIGN CHOICE). -/
def State.imageDone (s : State) (c : CoreId) (k : BitVec 4) (what : ImageFor) (mask : Byte) (issued left : Nat) (ws : List WordRead) :
    Option State :=
  let x := s.slot c k
  let b := (s.blockOf c x).getD { rec0 := 0 }
  let v := packBits 64 (ws.map fun w => w.val.toNat)
  if ws.any WordRead.pois then some (s.trapBusy c k causePoison 0)
  else
    match what with
    | .tdset d =>
      let i := BitVec.ofNat 256 v
      if descBad i then some (s.trapBusy c k causeOperand 0)
      else some ((s.setCore c { s.core c with descs := Sparse.set (s.core c).descs d.toNat { image := i, valid := true } }).endBusy c k)
    | .ringcfg q =>
      let i := BitVec.ofNat 128 v
      let n := b.ring0 + q.toNat
      if s.ringBad c b i then some (s.trapBusy c k causeOperand 0)
      else if !(s.core c).ringIdle n then none
      else
        let r : Ring :=
          { cfg := true, slots := i.extractLsb' 0 18, depth := i.extractLsb' 24 7, desc := BitVec.ofNat 6 (b.desc0 + (i.extractLsb' 32 6).toNat) }
        some ((s.setRing c n r).endBusy c k)
    | .cpy d =>
      let i := BitVec.ofNat 512 v
      match s.cpyBad c b i with
      | some (cause, addr) => some (s.trapBusy c k cause (BitVec.ofNat 64 addr))
      | none =>
        let ready (t : State) : State :=
          t.tick1.setSlot c k { t.slot c k with busy := some (.cpy d i (cmdPrec i) t.seqno) }
        if cmdPrec i = 0 then some (ready s)
        else
          match s.translate c k.toNat b.boot b.ctx (BitVec.ofNat 64 (cmdPrec i)) needW with
          | .ok _ => some (ready s)
          | .miss t =>
            if t.seqno = s.seqno then none
            else some (t.setSlot c k { t.slot c k with busy := some (.image what mask issued ws left) })
          | .fault t cause =>
            let t := t.setSlot c k { t.slot c k with busy := none }
            some (t.deliverFault c k cause (BitVec.ofNat 64 (cmdPrec i)) needW.kind (t.slot c k).pc)
    | .bsld ix => some (s.setSlot c k { x with busy := some (.bsld ix (ws.map fun w => ⟨w.val, w.pois⟩)) })

/-- Every word is marked as read, from one value. -/
def markRead (v : Nat) (po : Bool) (ws : List WordRead) : List WordRead :=
  ws.zipIdx.map fun (w, i) => { w with got := some (BitVec.ofNat 64 (v / 2 ^ (64 * i)), po) }

/-- The words of a microprogram image stored (R257). -/
def storeMicro (q : Sequencer) (ix : Nat) (vals : List MsgWord) : Sequencer :=
  vals.zipIdx.foldl (fun (q : Sequencer) (w, i) => { q with
    store := Sparse.set q.store (ix + i) w.val
    storePois := q.storePois.filter fun j => decide (j ≠ ix + i) }) q

/-- R231, R257: an image read returns. Word `n` of BSLD's image is read at its own instant, any other image in one. A BSLD whose words
are read stores them once the sequencer is not running. -/
def tryImageReadReturn (c : CoreId) (k : BitVec 4) (n : Nat) (s : State) : Option State :=
  let x := s.slot c k
  match x.busy with
  | some (.image what mask issued ws left) =>
    if x.hold ≠ [] ∨ mask ≠ 0 ∨ s.coreRuns c = false then none
    else if ws.all fun w => w.got.isSome then s.imageDone c k what mask issued left ws
    else
      match what, ws with
      | .bsld _, _ =>
        (s.readWordAt c issued left n ws).map fun (ws, t) => t.setSlot c k { t.slot c k with busy := some (.image what mask issued ws left) }
      | _, w :: _ =>
        match s.readOrLost c issued left w.pa (8 * ws.length) with
        | none => none
        | some (v, po, t) =>
          let ws := markRead v po ws
          match t.imageDone c k what mask issued left ws with
          | some u => some u
          | none => some (t.setSlot c k { t.slot c k with busy := some (.image what mask issued ws left) })
      | _, [] => none
  | some (.bsld ix vals) =>
    let y := s.slab c
    if y.seq.st = .running ∨ s.coreRuns c = false then none
    else some ((s.setSlab c { y with seq := storeMicro y.seq ix.toNat vals }).endBusy c k)
  | _ => none
def execImageReadReturn (c : CoreId) (k : BitVec 4) (n : Nat) (s : State) : Out := orSame s (tryImageReadReturn c k n s)

-- DSMODE (R255)

/-- The groups that a mask names. -/
def maskGroups (v : Word) : List Nat := (List.range 12).filter fun g => v.getLsbD g

/-- An image names deep scratch or compute lanes. -/
def namesDeep (i : BitVec 512) : Bool := decide (2 ≤ cmdSsp i) || decide (2 ≤ cmdDsp i)

/-- What DSMODE waits for: the sequencer, the core's commands that name the slab, its outstanding LDDs, and a change already under way
in a group it names. -/
def State.dsBusy (s : State) (c : CoreId) (grps : List Nat) : Bool :=
  let x := s.core c
  let y := s.slab c
  decide (y.seq.st = .running)
    || x.cmds.any (fun e => namesDeep e.2.image)
    || x.slots.toList.any (fun z => (match z.busy with
        | some (.cpy _ i _ _) => namesDeep i
        | _ => false) || z.longs.any fun l => l.ldd)
    || grps.any fun g => (Sparse.find y.changing g).isSome

/-- R255: its first wait stands before every effect, so that the checks are made once it is over (R8, R380). -/
def execDsmode (gd : Guard) (mode : BitVec 2) (a : GIx) (s : State) : Out :=
  s.issue { gd := gd, len := 12, reads := [.g a], writes := [], traps := [.g a] }
    (s.unquiet gd [.g a] || (decide (maskGroups (s.g a) ≠ []) && s.dsBusy s.cc (maskGroups (s.g a)))) fun _ =>
    let v := s.g a
    let y := s.ctx s.block.ctx
    let grps := maskGroups v
    if v.extractLsb' 12 52 ≠ 0 ∨ grps.any (fun g => decide (g < y.first) || decide (y.first + y.count ≤ g) || (s.slab s.cc).fenced.contains g) then
      .trap s causeOperand 0
    else if grps = [] then .done s
    else
      let x := s.slab s.cc
      let moved := grps.filter fun g => decide (Sparse.get 0 x.modes g ≠ mode)
      if moved = [] then .done s
      else
        let s := s.setSlab s.cc { x with changing := moved.foldl (fun t g => Sparse.set t g mode) x.changing }
        .holds (s.hold (.dsmode (v.setWidth 12)))

/-- The group of a unit. -/
def unitGroup (i : Nat) : Nat := i / 8192

/-- A group put into a mode with its data gone: it reads as zero with clear poison (R255). A fenced group stays in cache mode (R346). -/
def Slab.putMode (x : Slab) (g : Nat) (mode : BitVec 2) : Slab :=
  let mode := if x.fenced.contains g then 0 else mode
  { x with
    modes := if mode = 0 then Sparse.del x.modes g else Sparse.set x.modes g mode
    units := x.units.filter fun e => decide (unitGroup e.1 ≠ g)
    changing := Sparse.del x.changing g }

/-- R255: a group's change is done; the DSMODE that waits for it ends with its last group. -/
def tryDsmodeGroupChangeDone (c : CoreId) (grp : BitVec 4) (s : State) : Option State :=
  let x := s.slab c
  match Sparse.find x.changing grp.toNat with
  | none => none
  | some mode =>
    if (s.die c.die).held then none
    else
      let y := x.putMode grp.toNat mode
      let s := s.setSlab c y
      some ((List.range 16).foldl (fun t j =>
        let k := BitVec.ofNat 4 j
        match (t.slot c k).busy with
        | some (.dsmode gs) =>
          if (List.range 12).any (fun g => gs.getLsbD g && (Sparse.find y.changing g).isSome) then t else t.endBusy c k
        | _ => t) s)
def execDsmodeGroupChangeDone (c : CoreId) (grp : BitVec 4) (s : State) : Out := orSame s (tryDsmodeGroupChangeDone c grp s)

end Sys2Proof.Machine
end

