-- ==== Sys2Proof/Machine/Barrier.lean ====
section
/-! DEFINITION. Barriers (spec/12 R263 to R265): the registers, the done signals and the release through the mesh routers. -/

namespace Sys2Proof.Machine

def State.bar (s : State) (c : CoreId) (n : Nat) : Barrier := Sparse.get {} (s.core c).bars n
def State.setBar (s : State) (c : CoreId) (n : Nat) (b : Barrier) : State :=
  s.setCore c { s.core c with bars := Sparse.set (s.core c).bars n b }

/-- Two registers hold one rectangle for one context (R264). -/
def Barrier.same (a b : Barrier) : Bool :=
  decide (a.ctx = b.ctx) && decide (a.x0 = b.x0) && decide (a.y0 = b.y0) && decide (a.x1 = b.x1) && decide (a.y1 = b.y1)

/-- A position lies in a rectangle. -/
def Barrier.covers (b : Barrier) (c : CoreId) : Bool :=
  decide (b.x0.toNat ≤ c.x.toNat ∧ c.x.toNat ≤ b.x1.toNat) && decide (b.y0.toNat ≤ c.y.toNat ∧ c.y.toNat ≤ b.y1.toNat)

-- the router's view (R264)

/-- Every position east of a position, to the rectangle's last column, is off: it counts as arrived. -/
def State.autoEast (s : State) (c : CoreId) (b : Barrier) : Bool :=
  (List.range 32).all fun x => !(decide (c.x.toNat < x) && decide (x ≤ b.x1.toNat)) || !s.enabled c.die (32 * c.y.toNat + x)

/-- Every position of the rectangle's rows below a position is off. -/
def State.autoBelow (s : State) (c : CoreId) (b : Barrier) : Bool :=
  (List.range 32).all fun y => !(decide (c.y.toNat < y) && decide (y ≤ b.y1.toNat))
    || (List.range 32).all fun x => !(decide (b.x0.toNat ≤ x) && decide (x ≤ b.x1.toNat)) || !s.enabled c.die (32 * y + x)

/-- A position is row-done. One that is off takes part once a signal has reached it. -/
def State.rowDone (s : State) (c : CoreId) (n : Nat) : Bool :=
  let b := s.bar c n
  let here := if s.enabled c.die c.pos then decide (b.narr.toNat < b.count.toNat) else b.east || b.below
  here && b.covers c && (b.east || s.autoEast c b)

/-- A position of the first column is column-done. -/
def State.colDone (s : State) (c : CoreId) (n : Nat) : Bool :=
  let b := s.bar c n
  decide (c.x = b.x0) && s.rowDone c n && (b.below || s.autoBelow c b)

/-- A signal of a register reaches a position: it is taken, or discarded where the register there is another's; a position that is off
takes the signal's rectangle. -/
def State.signal (s : State) (c : CoreId) (n : Nat) (src : Barrier) (f : Barrier → Barrier) : State :=
  let b := s.bar c n
  if b.same src then s.setBar c n (f b)
  else if s.enabled c.die c.pos then s
  else s.setBar c n (f { ctx := src.ctx, x0 := src.x0, y0 := src.y0, x1 := src.x1, y1 := src.y1 })

/-- R264: a position's row-done signal goes west, or its column-done signal up. (log 29: DEDUCED) -/
def tryBarrierDoneSignal (c : CoreId) (bb : BitVec 2) (col : Bool) (s : State) : Option State :=
  let n := bb.toNat
  let b := s.bar c n
  if (s.die c.die).held then none
  else if col then
    if s.colDone c n && !b.colOut && decide (b.y0.toNat < c.y.toNat) then
      some ((s.setBar c n { b with colOut := true }).signal { c with y := c.y - 1 } n b fun x => { x with below := true })
    else none
  else
    if s.rowDone c n && !b.rowOut && decide (b.x0.toNat < c.x.toNat) then
      some ((s.setBar c n { b with rowOut := true }).signal { c with x := c.x - 1 } n b fun x => { x with east := true })
    else none
def execBarrierDoneSignal (c : CoreId) (bb : BitVec 2) (col : Bool) (s : State) : Out := orSame s (tryBarrierDoneSignal c bb col s)

/-- A register after its release: no arrivals, the next phase (R264). -/
def Barrier.next (b : Barrier) : Barrier :=
  { b with count := 0, phase := b.phase + 1, east := false, below := false, rowOut := false, colOut := false, rel := false }

/-- R264: the release is taken at a position, and goes on along its row, and down the first column. -/
def tryBarrierRelease (c : CoreId) (bb : BitVec 2) (s : State) : Option State :=
  let n := bb.toNat
  let b := s.bar c n
  let corner := decide (c.x = b.x0) && decide (c.y = b.y0)
  if (s.die c.die).held then none
  else if b.rel || (corner && s.colDone c n) then
    let t := s.setBar c n b.next
    let t := if c.x.toNat < b.x1.toNat then t.signal { c with x := c.x + 1 } n b fun x => { x with rel := true } else t
    some (if c.x = b.x0 ∧ c.y.toNat < b.y1.toNat then t.signal { c with y := c.y + 1 } n b fun x => { x with rel := true } else t)
  else none
def execBarrierRelease (c : CoreId) (bb : BitVec 2) (s : State) : Out := orSame s (tryBarrierRelease c bb s)

-- the instructions

/-- Runs an effect on a barrier register of the current block, or takes its trap (R245). -/
def State.onBar (s : State) (bb : BitVec 2) (k : Nat → Res) : Res :=
  if bb.toNat < s.block.nbar then k (s.block.bar0 + bb.toNat) else .trap s causeOperand 0

/-- The register of a BARCFG value (R263). -/
def barOf (n : BitVec 6) (v : Word) : Barrier :=
  { ctx := n, x0 := v.extractLsb' 0 5, y0 := v.extractLsb' 8 5, x1 := v.extractLsb' 16 5, y1 := v.extractLsb' 24 5, narr := v.extractLsb' 32 4 }

/-- The BARCFG value of a register. -/
def Barrier.cfg (b : Barrier) : Word :=
  (0 : BitVec 28) ++ b.narr ++ (0 : BitVec 3) ++ b.y1 ++ (0 : BitVec 3) ++ b.x1 ++ (0 : BitVec 3) ++ b.y0 ++ (0 : BitVec 3) ++ b.x0

/-- A block's captured phases of a register dropped (R263). -/
def Core.dropCaps (x : Core) (blk bb : Nat) : Core :=
  { x with slots := x.slots.map fun y => if y.blk = some blk then { y with caps := Sparse.del y.caps bb } else y }

/-- R263. Signals that have reached the register for the same rectangle and context stay (log 25: DEDUCED). -/
def execBarcfg (gd : Guard) (bb : BitVec 2) (a : GIx) (s : State) : Out :=
  s.issue { gd := gd, len := 12, reads := [.g a], writes := [], traps := [.g a] } (s.unquiet gd [.g a]) fun _ =>
    s.onBar bb fun n =>
      let v := s.g a
      let old := s.bar s.cc n
      let b := barOf s.block.ctx v
      if v &&& 0xFFFFFFF0E0E0E0E0 ≠ 0 ∨ b.x1.toNat < b.x0.toNat ∨ b.y1.toNat < b.y0.toNat ∨ b.covers s.cc = false ∨ old.count ≠ 0 then
        .trap s causeOperand 0
      else
        let b := if old.same b then { b with east := old.east, below := old.below } else b
        let t := s.setBar s.cc n b
        .done (t.setCore t.cc ((t.core t.cc).dropCaps s.curBlk bb.toNat))

/-- A register of the current block has its NARR + 1 arrivals (R265). -/
def State.barFull (s : State) (bb : BitVec 2) : Bool :=
  let b := s.bar s.cc (s.block.bar0 + bb.toNat)
  decide (bb.toNat < s.block.nbar) && decide (b.narr.toNat < b.count.toNat)
/-- Its phase is still the one that the current slot has captured (R265). -/
def State.barHolds (s : State) (bb : BitVec 2) : Bool :=
  decide (bb.toNat < s.block.nbar)
    && decide (Sparse.find s.cs.caps bb.toNat = some (s.bar s.cc (s.block.bar0 + bb.toNat)).phase)

/-- R265: once the count is below `NARR` + 1. -/
def execBararr (gd : Guard) (bb : BitVec 2) (s : State) : Out :=
  s.issue { gd := gd, len := 12, reads := [], writes := [] } (s.unquiet gd [] || s.barFull bb) fun _ =>
    s.onBar bb fun n =>
      let b := s.bar s.cc n
      let t := s.setBar s.cc n { b with count := b.count + 1 }
      .done (t.setCs { t.cs with caps := Sparse.set t.cs.caps bb.toNat b.phase })

/-- R265: once the phase differs from the captured one. -/
def execBarwait (gd : Guard) (bb : BitVec 2) (s : State) : Out :=
  s.issue { gd := gd, len := 12, reads := [], writes := [] } (s.unquiet gd [] || s.barHolds bb) fun _ =>
    s.onBar bb fun _ => .done s

end Sys2Proof.Machine
end

