-- ==== Sys2Proof/WellFormed.lean ====
section
/-! DEFINITION. Which instructions are well formed: the values that the encoding's fields may hold (spec/04 R96, R97, R101,
R102, R105 and the instruction chapters), and the microinstructions' used fields (spec/12 R260). -/

namespace Sys2Proof

/-- A register number fits its kind's field (R90, R97): 0 g, 1 p, 2 v, 3 m. -/
def kindFits (kind : BitVec 2) (r : BitVec 6) : Bool :=
  if kind = 0 then true else if kind = 2 then decide (r.toNat < 32) else decide (r.toNat < 8)

/-- A floating type code (R98). -/
def isFloatCode (ty : BitVec 5) : Bool := decide (8 ≤ ty.toNat) && decide (ty.toNat ≤ 16)

/-- A pair of types that a conversion takes: codes of R98, one at least floating (R124, R138). -/
def cvtPair (dst src : BitVec 5) : Bool :=
  decide (dst.toNat ≤ 16) && decide (src.toNat ≤ 16) && (isFloatCode dst || isFloatCode src)

/-- The container width in bits of a type code in a vector (R138). -/
def typeBits (ty : BitVec 5) : Nat :=
  match ty.toNat with
  | 0 => 8 | 1 => 16 | 2 => 32 | 3 => 64 | 4 => 8 | 5 => 16 | 6 => 32 | 7 => 64
  | 8 => 64 | 9 => 32 | 10 => 16 | 11 => 16 | 16 => 4
  | _ => 8

/-- `PART` is below the ratio of the two widths (R138). -/
def cvtPart (dst src : BitVec 5) (part : BitVec 4) : Bool :=
  decide (part.toNat < max (typeBits dst) (typeBits src) / min (typeBits dst) (typeBits src))

/-- An operator, width and type select that an update may have (R197). -/
def opTriple (op : BitVec 4) (w : BitVec 2) (k : Bool) : Bool :=
  match op.toNat with
  | 0 => true
  | 1 => true
  | 2 => decide (w ≠ 0) && (decide (w = 1) || !k)
  | 3 => k
  | 4 => k
  | 5 => !k
  | 6 => !k
  | 7 => decide (w ≠ 0) && (decide (w = 1) || !k)
  | 8 => decide (w ≠ 0) && (decide (w = 1) || !k)
  | 9 => true
  | 10 => true
  | 11 => true
  | 12 => true
  | _ => false

/-- The range of a DRAIN or INVAL: `B` = 0 with `A` nonzero is not an instruction (R202). -/
def rangeFields (a b : GIx) : Bool := decide (a = 0) || decide (b ≠ 0)

/-- The microinstruction uses no offset bit but these, and no field but these (R260). -/
def Micro.uses (u : Micro) (d a b c w imm : Bool) : Bool :=
  (d || (decide (u.drow = 0) && !u.od)) && (a || (decide (u.arow = 0) && !u.oa)) &&
  (b || (decide (u.brow = 0) && !u.ob)) && (c || decide (u.crow = 0)) && (w || decide (u.wm1 = 0)) && (imm || decide (u.imm = 0))

/-- The width field that MFADD and MFMUL must have for their type: `bf16`, `fp16`, `fp32` (R260). -/
def Micro.floatWidth (u : Micro) : Bool :=
  match u.imm.toNat with
  | 0 => decide (u.wm1 = 15)
  | 1 => decide (u.wm1 = 15)
  | 2 => decide (u.wm1 = 31)
  | _ => false

/-- The fields a microinstruction may hold (R260). -/
def Micro.wfFor (u : Micro) : MicroOp → Bool
  | .mzero => u.uses true false false false true false
  | .mcopy => u.uses true true false false true false
  | .microMnot => u.uses true true false false true false
  | .microMand => u.uses true true true false true false
  | .microMor => u.uses true true true false true false
  | .microMxor => u.uses true true true false true false
  | .madd => u.uses true true true false true false
  | .msub => u.uses true true true false true false
  | .mcmp => u.uses true true true false true true && decide (u.imm.toNat < 16) && decide (u.imm.toNat % 8 < 6)
  | .msel => u.uses true true true true true false
  | .mshl => u.uses true true false false true true && decide (u.imm.toNat < u.wm1.toNat + 1)
  | .mshr => u.uses true true false false true true && decide (u.imm.toNat < 128) && decide (u.imm.toNat % 64 < u.wm1.toNat + 1)
  | .mfadd => u.uses true true true false true true && u.floatWidth
  | .mfmul => u.uses true true true false true true && u.floatWidth
  | .mloop => u.uses false true false true false true && !u.oa && decide (u.imm.toNat < 1024)
  | .mend => u.uses false false false false false false

/-- The values an instruction's fields may hold. A constructor that is not named has no rule of its own. -/
def Instr.wf : Instr → Bool
  | .cmpSignedReg _ _ cc _ _ _ => decide (cc.toNat < 6)
  | .cmpSignedImm _ _ cc _ _ _ => decide (cc.toNat < 6)
  | .cmpSignedLit _ _ cc _ _ _ => decide (cc.toNat < 6)
  | .cmpNaturalReg _ _ cc _ _ _ => decide (cc.toNat < 6)
  | .cmpNaturalImm _ _ cc _ _ _ => decide (cc.toNat < 6)
  | .cmpNaturalLit _ _ cc _ _ _ => decide (cc.toNat < 6)
  | .btag _ _ off => decide (off.extractLsb' 0 2 = 0)
  | .tclr _ dc d _ => kindFits dc d
  | .tdep _ dc d ac a => kindFits dc d && kindFits ac a
  | .tget _ _ ac a => kindFits ac a
  | .faddExt _ _ rmo _ _ _ => decide (rmo.toNat < 7)
  | .fsubExt _ _ rmo _ _ _ => decide (rmo.toNat < 7)
  | .fmulExt _ _ rmo _ _ _ => decide (rmo.toNat < 7)
  | .fdivExt _ _ rmo _ _ _ => decide (rmo.toNat < 7)
  | .ffma _ _ rmo _ _ _ _ => decide (rmo.toNat < 7)
  | .fsqrt _ _ rmo _ _ => decide (rmo.toNat < 7)
  | .fminExt _ _ rmo _ _ _ => decide (rmo.toNat < 7)
  | .fmax _ _ rmo _ _ _ => decide (rmo.toNat < 7)
  | .fcmpExt _ _ rmo _ _ _ _ => decide (rmo.toNat < 7)
  | .fcvt _ rmo dst src _ _ => decide (rmo.toNat < 7) && cvtPair dst src
  | .fclass _ ty _ _ => isFloatCode ty
  | .vaddExt _ _ rmo _ _ _ => decide (rmo.toNat < 7)
  | .vsubExt _ _ rmo _ _ _ => decide (rmo.toNat < 7)
  | .vmulExt _ _ rmo _ _ _ => decide (rmo.toNat < 7)
  | .vminExt _ _ rmo _ _ _ => decide (rmo.toNat < 7)
  | .vmaxExt _ _ rmo _ _ _ => decide (rmo.toNat < 7)
  | .vfma _ _ rmo _ _ _ _ => decide (rmo.toNat < 7)
  | .vshlExt _ _ s _ _ b => decide ((s = true ∨ b.toNat < 32))
  | .vshrExt _ _ s _ _ b => decide ((s = true ∨ b.toNat < 32))
  | .vsraExt _ _ s _ _ b => decide ((s = true ∨ b.toNat < 32))
  | .vredaddExt _ _ rmo _ _ => decide (rmo.toNat < 7)
  | .vredminExt _ _ rmo _ _ => decide (rmo.toNat < 7)
  | .vredmaxExt _ _ rmo _ _ => decide (rmo.toNat < 7)
  | .vdot _ _ rmo _ _ _ => decide (rmo.toNat < 7)
  | .vsfu _ _ fn _ _ => decide (fn.toNat < 7)
  | .vcvt _ _ rmo part dst src _ _ => decide (rmo.toNat < 7) && cvtPair dst src && cvtPart dst src part
  | .vqnt _ rmo fmt _ _ c => decide (rmo.toNat < 7) && decide (10 ≤ fmt.toNat) && decide ((fmt.toNat ≤ 12 ∨ c = 0))
  | .vdqnt _ fmt _ _ c => decide (10 ≤ fmt.toNat) && decide ((fmt.toNat ≤ 12 ∨ c = 0))
  | .vbaddq _ rmo fmt _ _ _ _ => decide (rmo.toNat < 7) && decide (13 ≤ fmt.toNat)
  | .ld _ t _ _ => decide (t.scope.toNat < 5)
  | .ldro _ t _ _ => decide (t.scope = 0)
  | .ldx _ t _ _ => decide (t.scope.toNat < 5) && decide (t.w = 3) && decide (t.k = false)
  | .ldv _ t _ _ => decide (t.scope.toNat < 5) && decide (t.w = 0) && decide (t.k = false)
  | .ldvGather _ t _ _ _ _ => decide (t.scope.toNat < 5) && decide (2 ≤ t.w.toNat)
  | .lds _ t _ _ => decide (t.scope = 0)
  | .sts _ t _ _ => decide (t.scope = 0)
  | .ldd _ t _ _ => decide (t.scope = 0)
  | .std _ t _ _ => decide (t.scope = 0)
  | .upd _ op t _ _ => decide (t.scope.toNat < 5) && opTriple op t.w t.k
  | .updx _ op t _ _ => decide (t.scope.toNat < 5) && opTriple op t.w t.k
  | .updv _ op t _ _ => decide (t.scope.toNat < 5) && opTriple op t.w t.k
  | .updvScatter _ op t _ _ _ _ => decide (t.scope.toNat < 5) && opTriple op t.w t.k && decide (2 ≤ t.w.toNat)
  | .atom _ op t _ _ _ => decide (t.scope.toNat < 5) && opTriple op t.w t.k
  | .cas _ t _ _ _ _ _ => decide (t.scope.toNat < 5)
  | .drain _ scope a b => decide (scope.toNat < 5) && rangeFields a b
  | .inval _ scope a b => decide (scope.toNat < 5) && rangeFields a b
  | .fence _ scope _ => decide (scope.toNat < 5)
  | .tupd _ op t _ _ => decide (t.scope.toNat < 5) && opTriple op t.w t.k && decide (t.w = 2)
  | .dsmode _ mode _ => decide (mode.toNat < 3)
  | .send _ tag _ _ _ => decide (tag.toNat < 240)
  | .mzero u => u.wfFor .mzero
  | .mcopy u => u.wfFor .mcopy
  | .microMnot u => u.wfFor .microMnot
  | .microMand u => u.wfFor .microMand
  | .microMor u => u.wfFor .microMor
  | .microMxor u => u.wfFor .microMxor
  | .madd u => u.wfFor .madd
  | .msub u => u.wfFor .msub
  | .mcmp u => u.wfFor .mcmp
  | .msel u => u.wfFor .msel
  | .mshl u => u.wfFor .mshl
  | .mshr u => u.wfFor .mshr
  | .mfadd u => u.wfFor .mfadd
  | .mfmul u => u.wfFor .mfmul
  | .mloop u => u.wfFor .mloop
  | .mend u => u.wfFor .mend
  | _ => true

/-- The instruction is one that the encoding can hold (R96). -/
abbrev Instr.WellFormed (i : Instr) : Prop := i.wf = true

end Sys2Proof
end

