-- ==== Sys2Proof/Decode.lean ====
section
/-! DEFINITION. Instruction words (spec/04): the fields, the one table from instructions to fields, the decoder and the
encoder; and the sequencer's microinstructions (spec/12 R260). The decoder finds the row that the major, the length and
the selectors name (R99), builds that row's instruction from the fields, and accepts it only when the instruction is well
formed and its own fields are exactly the ones that were read: so a nonzero bit that the instruction does not use, a bit
above a register number (R90) and a `B` beside a literal (R89) are all refused. -/

namespace Sys2Proof

/-- The fields of an instruction (R86 to R89), those that its length has; the others are 0. -/
structure Fields where
  len   : BitVec 2 := 0
  maj   : BitVec 7
  gd    : Guard
  d     : BitVec 6 := 0
  a     : BitVec 6 := 0
  b     : BitVec 6 := 0
  s     : Bool := false
  c     : BitVec 6 := 0
  min   : BitVec 4 := 0
  attr  : BitVec 6 := 0
  imm16 : BitVec 16 := 0
  imm32 : BitVec 32 := 0
  lit   : BitVec 64 := 0
  deriving DecidableEq, Repr

/-- The first word (R86). -/
def Fields.first (f : Fields) : BitVec 32 :=
  BitVec.ofBool f.s ++ f.b ++ f.a ++ f.d ++ BitVec.ofBool f.gd.neg ++ f.gd.p ++ f.maj ++ f.len

/-- Bits 95:32 of an extended instruction (R88). -/
def Fields.ext (f : Fields) : BitVec 64 := f.imm32 ++ f.imm16 ++ f.attr ++ f.min ++ f.c

/-- All the bits, the first word lowest (R83). -/
def Fields.bits (f : Fields) : BitVec 160 :=
  if f.len = 0 then f.first.setWidth 160
  else if f.len = 1 then 0#64 ++ f.lit ++ f.first
  else f.lit ++ f.ext ++ f.first

/-- The first word's fields. -/
def Fields.ofFirst (w : BitVec 32) : Fields :=
  { len := w.extractLsb' 0 2, maj := w.extractLsb' 2 7, gd := ⟨w.getLsbD 12, w.extractLsb' 9 3⟩, d := w.extractLsb' 13 6,
    a := w.extractLsb' 19 6, b := w.extractLsb' 25 6, s := w.getLsbD 31 }

/-- The extended fields of bits 95:32, with a literal. -/
def Fields.withExt (f : Fields) (e : BitVec 64) (lit : BitVec 64) : Fields :=
  { f with c := e.extractLsb' 0 6, min := e.extractLsb' 6 4, attr := e.extractLsb' 10 6, imm16 := e.extractLsb' 16 16,
           imm32 := e.extractLsb' 32 32, lit := lit }

/-- The fields of the instruction that starts with these bits (R83). -/
def Fields.ofBits (x : BitVec 160) : Fields :=
  let f := Fields.ofFirst (x.extractLsb' 0 32)
  if f.len = 0 then f
  else if f.len = 1 then { f with lit := x.extractLsb' 32 64 }
  else if f.len = 2 then f.withExt (x.extractLsb' 32 64) 0
  else f.withExt (x.extractLsb' 32 64) (x.extractLsb' 96 64)

/-- Bytes of an instruction of a given `LEN` (R83). -/
def lenBytes (len : BitVec 2) : Nat := if len = 0 then 4 else if len = 3 then 20 else 12

/-- Operand B: the literal where there is one (R89). -/
def Fields.opB (f : Fields) : OpB := if f.len = 3 then .lit f.lit else .reg f.b
/-- FSQRT's operand: gA, or the literal (R103, R121). -/
def Fields.opA (f : Fields) : OpB := if f.len = 3 then .lit f.lit else .reg f.a
/-- The length that an operand gives its instruction (R89). -/
def OpB.len : OpB → BitVec 2
  | .reg _ => 2
  | .lit _ => 3
/-- The register field of an operand: 0 beside a literal (R89). -/
def OpB.fld : OpB → BitVec 6
  | .reg b => b
  | .lit _ => 0
/-- The literal of an operand. -/
def OpB.litw : OpB → BitVec 64
  | .reg _ => 0
  | .lit w => w

/-- THE ENCODING TABLE (R99 to R105): the fields of every fetched instruction. The machine's other steps have none. -/
def fieldsOf : Instr → Option Fields
  | .addReg gd s d a b => some {len := 0, maj := 0x01, gd := gd, s := s, d := d, a := a, b := b}
  | .addImm gd s d a imm => some {len := 0, maj := 0x02, gd := gd, s := s, d := d, a := a, b := imm}
  | .addLit gd s d a w => some {len := 1, maj := 0x01, gd := gd, s := s, d := d, a := a, lit := w}
  | .subReg gd s d a b => some {len := 0, maj := 0x03, gd := gd, s := s, d := d, a := a, b := b}
  | .subImm gd s d a imm => some {len := 0, maj := 0x04, gd := gd, s := s, d := d, a := a, b := imm}
  | .subLit gd s d a w => some {len := 1, maj := 0x03, gd := gd, s := s, d := d, a := a, lit := w}
  | .mulReg gd s d a b => some {len := 0, maj := 0x05, gd := gd, s := s, d := d, a := a, b := b}
  | .mulImm gd s d a imm => some {len := 0, maj := 0x06, gd := gd, s := s, d := d, a := a, b := imm}
  | .mulLit gd s d a w => some {len := 1, maj := 0x05, gd := gd, s := s, d := d, a := a, lit := w}
  | .andReg gd s d a b => some {len := 0, maj := 0x07, gd := gd, s := s, d := d, a := a, b := b}
  | .andImm gd s d a imm => some {len := 0, maj := 0x08, gd := gd, s := s, d := d, a := a, b := imm}
  | .andLit gd s d a w => some {len := 1, maj := 0x07, gd := gd, s := s, d := d, a := a, lit := w}
  | .orReg gd s d a b => some {len := 0, maj := 0x09, gd := gd, s := s, d := d, a := a, b := b}
  | .orImm gd s d a imm => some {len := 0, maj := 0x0A, gd := gd, s := s, d := d, a := a, b := imm}
  | .orLit gd s d a w => some {len := 1, maj := 0x09, gd := gd, s := s, d := d, a := a, lit := w}
  | .xorReg gd s d a b => some {len := 0, maj := 0x0B, gd := gd, s := s, d := d, a := a, b := b}
  | .xorImm gd s d a imm => some {len := 0, maj := 0x0C, gd := gd, s := s, d := d, a := a, b := imm}
  | .xorLit gd s d a w => some {len := 1, maj := 0x0B, gd := gd, s := s, d := d, a := a, lit := w}
  | .shlReg gd s d a b => some {len := 0, maj := 0x0D, gd := gd, s := s, d := d, a := a, b := b}
  | .shlImm gd s d a imm => some {len := 0, maj := 0x0E, gd := gd, s := s, d := d, a := a, b := imm}
  | .shlLit gd s d a w => some {len := 1, maj := 0x0D, gd := gd, s := s, d := d, a := a, lit := w}
  | .shrReg gd s d a b => some {len := 0, maj := 0x0F, gd := gd, s := s, d := d, a := a, b := b}
  | .shrImm gd s d a imm => some {len := 0, maj := 0x10, gd := gd, s := s, d := d, a := a, b := imm}
  | .shrLit gd s d a w => some {len := 1, maj := 0x0F, gd := gd, s := s, d := d, a := a, lit := w}
  | .sraReg gd s d a b => some {len := 0, maj := 0x11, gd := gd, s := s, d := d, a := a, b := b}
  | .sraImm gd s d a imm => some {len := 0, maj := 0x12, gd := gd, s := s, d := d, a := a, b := imm}
  | .sraLit gd s d a w => some {len := 1, maj := 0x11, gd := gd, s := s, d := d, a := a, lit := w}
  | .rolReg gd s d a b => some {len := 0, maj := 0x13, gd := gd, s := s, d := d, a := a, b := b}
  | .rolImm gd s d a imm => some {len := 0, maj := 0x14, gd := gd, s := s, d := d, a := a, b := imm}
  | .rolLit gd s d a w => some {len := 1, maj := 0x13, gd := gd, s := s, d := d, a := a, lit := w}
  | .minReg gd s d a b => some {len := 0, maj := 0x15, gd := gd, s := s, d := d, a := a, b := b}
  | .minImm gd s d a imm => some {len := 0, maj := 0x16, gd := gd, s := s, d := d, a := a, b := imm}
  | .minLit gd s d a w => some {len := 1, maj := 0x15, gd := gd, s := s, d := d, a := a, lit := w}
  | .maxReg gd s d a b => some {len := 0, maj := 0x17, gd := gd, s := s, d := d, a := a, b := b}
  | .maxImm gd s d a imm => some {len := 0, maj := 0x18, gd := gd, s := s, d := d, a := a, b := imm}
  | .maxLit gd s d a w => some {len := 1, maj := 0x17, gd := gd, s := s, d := d, a := a, lit := w}
  | .minnReg gd s d a b => some {len := 0, maj := 0x19, gd := gd, s := s, d := d, a := a, b := b}
  | .minnLit gd s d a w => some {len := 1, maj := 0x19, gd := gd, s := s, d := d, a := a, lit := w}
  | .maxnReg gd s d a b => some {len := 0, maj := 0x1A, gd := gd, s := s, d := d, a := a, b := b}
  | .maxnLit gd s d a w => some {len := 1, maj := 0x1A, gd := gd, s := s, d := d, a := a, lit := w}
  | .andnReg gd s d a b => some {len := 0, maj := 0x1B, gd := gd, s := s, d := d, a := a, b := b}
  | .andnLit gd s d a w => some {len := 1, maj := 0x1B, gd := gd, s := s, d := d, a := a, lit := w}
  | .ornReg gd s d a b => some {len := 0, maj := 0x1C, gd := gd, s := s, d := d, a := a, b := b}
  | .ornLit gd s d a w => some {len := 1, maj := 0x1C, gd := gd, s := s, d := d, a := a, lit := w}
  | .mulh gd s d a b => some {len := b.len, maj := 0x1D, gd := gd, s := s, d := d, a := a, min := 0#4, b := b.fld, lit := b.litw}
  | .mulhn gd s d a b => some {len := b.len, maj := 0x1D, gd := gd, s := s, d := d, a := a, min := 1#4, b := b.fld, lit := b.litw}
  | .div gd s d a b => some {len := b.len, maj := 0x1D, gd := gd, s := s, d := d, a := a, min := 2#4, b := b.fld, lit := b.litw}
  | .divn gd s d a b => some {len := b.len, maj := 0x1D, gd := gd, s := s, d := d, a := a, min := 3#4, b := b.fld, lit := b.litw}
  | .rem gd s d a b => some {len := b.len, maj := 0x1D, gd := gd, s := s, d := d, a := a, min := 4#4, b := b.fld, lit := b.litw}
  | .remn gd s d a b => some {len := b.len, maj := 0x1D, gd := gd, s := s, d := d, a := a, min := 5#4, b := b.fld, lit := b.litw}
  | .mad gd s d a b c => some {len := b.len, maj := 0x1D, gd := gd, s := s, d := d, a := a, c := c, min := 6#4, b := b.fld, lit := b.litw}
  | .clz gd s d a => some {len := 0, maj := 0x1E, gd := gd, s := s, d := d, a := a, b := 0#6}
  | .ctz gd s d a => some {len := 0, maj := 0x1E, gd := gd, s := s, d := d, a := a, b := 1#6}
  | .popc gd s d a => some {len := 0, maj := 0x1E, gd := gd, s := s, d := d, a := a, b := 2#6}
  | .brev gd s d a => some {len := 0, maj := 0x1E, gd := gd, s := s, d := d, a := a, b := 3#6}
  | .bswap gd s d a => some {len := 0, maj := 0x1E, gd := gd, s := s, d := d, a := a, b := 4#6}
  | .abs gd s d a => some {len := 0, maj := 0x1E, gd := gd, s := s, d := d, a := a, b := 5#6}
  | .bfx gd s d a pos wm => some {len := 2, maj := 0x1F, gd := gd, s := s, d := d, a := a, min := 0#4, imm16 := 0#4 ++ wm ++ pos}
  | .bfxs gd s d a pos wm => some {len := 2, maj := 0x1F, gd := gd, s := s, d := d, a := a, min := 1#4, imm16 := 0#4 ++ wm ++ pos}
  | .bfi gd s d a pos wm => some {len := 2, maj := 0x1F, gd := gd, s := s, d := d, a := a, min := 2#4, imm16 := 0#4 ++ wm ++ pos}
  | .sel gd s d q a b => some {len := b.len, maj := 0x1F, gd := gd, s := s, d := d, a := a, c := q.setWidth 6, min := 3#4, b := b.fld, lit := b.litw}
  | .lea gd s d a b off => some {len := b.len, maj := 0x1F, gd := gd, s := s, d := d, a := a, min := 4#4, imm16 := 0#15 ++ 0#1, imm32 := off, b := b.fld, lit := b.litw}
  | .leaPcr gd s d b off => some {len := b.len, maj := 0x1F, gd := gd, s := s, d := d, min := 4#4, imm16 := 0#15 ++ 1#1, imm32 := off, b := b.fld, lit := b.litw}
  | .cmpSignedReg gd s cc q a b => some {len := 0, maj := 0x20, gd := gd, s := s, d := cc ++ q, a := a, b := b}
  | .cmpSignedImm gd s cc q a imm => some {len := 0, maj := 0x21, gd := gd, s := s, d := cc ++ q, a := a, b := imm}
  | .cmpSignedLit gd s cc q a w => some {len := 1, maj := 0x20, gd := gd, s := s, d := cc ++ q, a := a, lit := w}
  | .cmpNaturalReg gd s cc q a b => some {len := 0, maj := 0x22, gd := gd, s := s, d := cc ++ q, a := a, b := b}
  | .cmpNaturalImm gd s cc q a imm => some {len := 0, maj := 0x23, gd := gd, s := s, d := cc ++ q, a := a, b := imm}
  | .cmpNaturalLit gd s cc q a w => some {len := 1, maj := 0x22, gd := gd, s := s, d := cc ++ q, a := a, lit := w}
  | .pand gd s d a b => some {len := 0, maj := 0x24, gd := gd, s := s, d := d.setWidth 6, a := a.setWidth 6, b := 0#3 ++ b}
  | .por gd s d a b => some {len := 0, maj := 0x24, gd := gd, s := s, d := d.setWidth 6, a := a.setWidth 6, b := 1#3 ++ b}
  | .pxor gd s d a b => some {len := 0, maj := 0x24, gd := gd, s := s, d := d.setWidth 6, a := a.setWidth 6, b := 2#3 ++ b}
  | .pmov gd s d a => some {len := 0, maj := 0x24, gd := gd, s := s, d := d.setWidth 6, a := a.setWidth 6, b := 3#3 ++ 0#3}
  | .bra gd ob oa od => some {len := 0, maj := 0x28, gd := gd, d := od, a := oa, b := ob}
  | .call gd ob oa od => some {len := 0, maj := 0x29, gd := gd, d := od, a := oa, b := ob}
  | .brx gd a => some {len := 0, maj := 0x2A, gd := gd, a := a, b := 0#6}
  | .callx gd a => some {len := 0, maj := 0x2A, gd := gd, a := a, b := 1#6}
  | .ret gd => some {len := 0, maj := 0x2A, gd := gd, b := 2#6}
  | .btag gd tag off => some {len := 2, maj := 0x2B, gd := gd, imm16 := tag.setWidth 16, imm32 := off}
  | .loopImm gd n endo => some {len := 2, maj := 0x2C, gd := gd, s := true, imm16 := endo, imm32 := n}
  | .loopReg gd a endo => some {len := 2, maj := 0x2C, gd := gd, a := a, imm16 := endo}
  | .lexit gd => some {len := 0, maj := 0x2D, gd := gd}
  | .tclr gd dc d mask => some {len := 2, maj := 0x2E, gd := gd, d := d, min := 0#4, attr := dc.setWidth 6, imm16 := mask.setWidth 16}
  | .tdep gd dc d ac a => some {len := 2, maj := 0x2E, gd := gd, d := d, a := a, min := 1#4, attr := 0#2 ++ ac ++ dc}
  | .twait gd mask => some {len := 2, maj := 0x2E, gd := gd, min := 2#4, imm16 := mask.setWidth 16}
  | .tget gd d ac a => some {len := 2, maj := 0x2E, gd := gd, d := d, a := a, min := 3#4, attr := 0#2 ++ ac ++ 0#2}
  | .fadd gd s d a b => some {len := 0, maj := 0x30, gd := gd, s := s, d := d, a := a, b := b}
  | .faddLit gd s d a w => some {len := 1, maj := 0x30, gd := gd, s := s, d := d, a := a, lit := w}
  | .faddExt gd ft rmo d a b => some {len := b.len, maj := 0x30, gd := gd, d := d, a := a, attr := ft.setWidth 6, imm16 := 0#8 ++ rmo ++ 0#5, b := b.fld, lit := b.litw}
  | .fsub gd s d a b => some {len := 0, maj := 0x31, gd := gd, s := s, d := d, a := a, b := b}
  | .fsubLit gd s d a w => some {len := 1, maj := 0x31, gd := gd, s := s, d := d, a := a, lit := w}
  | .fsubExt gd ft rmo d a b => some {len := b.len, maj := 0x31, gd := gd, d := d, a := a, attr := ft.setWidth 6, imm16 := 0#8 ++ rmo ++ 0#5, b := b.fld, lit := b.litw}
  | .fmul gd s d a b => some {len := 0, maj := 0x32, gd := gd, s := s, d := d, a := a, b := b}
  | .fmulLit gd s d a w => some {len := 1, maj := 0x32, gd := gd, s := s, d := d, a := a, lit := w}
  | .fmulExt gd ft rmo d a b => some {len := b.len, maj := 0x32, gd := gd, d := d, a := a, attr := ft.setWidth 6, imm16 := 0#8 ++ rmo ++ 0#5, b := b.fld, lit := b.litw}
  | .fdiv gd s d a b => some {len := 0, maj := 0x35, gd := gd, s := s, d := d, a := a, b := b}
  | .fdivLit gd s d a w => some {len := 1, maj := 0x35, gd := gd, s := s, d := d, a := a, lit := w}
  | .fdivExt gd ft rmo d a b => some {len := b.len, maj := 0x35, gd := gd, d := d, a := a, attr := ft.setWidth 6, imm16 := 0#8 ++ rmo ++ 0#5, b := b.fld, lit := b.litw}
  | .ffma gd ft rmo d a b c => some {len := b.len, maj := 0x34, gd := gd, d := d, a := a, c := c, attr := ft.setWidth 6, imm16 := 0#8 ++ rmo ++ 0#5, b := b.fld, lit := b.litw}
  | .fsqrt gd ft rmo d a => some {len := a.len, maj := 0x37, gd := gd, d := d, min := 0#4, attr := ft.setWidth 6, imm16 := 0#8 ++ rmo ++ 0#5, a := a.fld, lit := a.litw}
  | .fmin gd s d a b => some {len := 0, maj := 0x33, gd := gd, s := s, d := d, a := a, b := b}
  | .fminLit gd s d a w => some {len := 1, maj := 0x33, gd := gd, s := s, d := d, a := a, lit := w}
  | .fminExt gd ft rmo d a b => some {len := b.len, maj := 0x33, gd := gd, d := d, a := a, c := 0#6, attr := ft.setWidth 6, imm16 := 0#8 ++ rmo ++ 0#5, b := b.fld, lit := b.litw}
  | .fmax gd ft rmo d a b => some {len := b.len, maj := 0x33, gd := gd, d := d, a := a, c := 1#6, attr := ft.setWidth 6, imm16 := 0#8 ++ rmo ++ 0#5, b := b.fld, lit := b.litw}
  | .fcmp gd s cc q a b => some {len := 0, maj := 0x36, gd := gd, s := s, d := cc ++ q, a := a, b := b}
  | .fcmpLit gd s cc q a w => some {len := 1, maj := 0x36, gd := gd, s := s, d := cc ++ q, a := a, lit := w}
  | .fcmpExt gd ft rmo cc q a b => some {len := b.len, maj := 0x36, gd := gd, d := cc ++ q, a := a, attr := ft.setWidth 6, imm16 := 0#8 ++ rmo ++ 0#5, b := b.fld, lit := b.litw}
  | .fcvt gd rmo dst src d a => some {len := 2, maj := 0x37, gd := gd, d := d, a := a, c := src.setWidth 6, min := 1#4, imm16 := 0#8 ++ rmo ++ dst}
  | .fclass gd ty d a => some {len := 2, maj := 0x37, gd := gd, d := d, a := a, c := ty.setWidth 6, min := 2#4}
  | .rds gd d h l => some {len := 0, maj := 0x38, gd := gd, d := d, a := l, b := h.setWidth 6}
  | .wrs gd h l a => some {len := 0, maj := 0x39, gd := gd, d := l, a := a, b := h.setWidth 6}
  | .vadd gd d a b => some {len := 0, maj := 0x40, gd := gd, d := d.setWidth 6, a := a.setWidth 6, b := b.setWidth 6}
  | .vaddExt gd x rmo d a b => some {len := 2, maj := 0x40, gd := gd, d := d.setWidth 6, a := a.setWidth 6, b := b.setWidth 6, attr := 0#2 ++ BitVec.ofBool x.vz ++ x.vm, imm16 := 0#8 ++ rmo ++ 0#5}
  | .vsub gd d a b => some {len := 0, maj := 0x41, gd := gd, d := d.setWidth 6, a := a.setWidth 6, b := b.setWidth 6}
  | .vsubExt gd x rmo d a b => some {len := 2, maj := 0x41, gd := gd, d := d.setWidth 6, a := a.setWidth 6, b := b.setWidth 6, attr := 0#2 ++ BitVec.ofBool x.vz ++ x.vm, imm16 := 0#8 ++ rmo ++ 0#5}
  | .vmul gd d a b => some {len := 0, maj := 0x42, gd := gd, d := d.setWidth 6, a := a.setWidth 6, b := b.setWidth 6}
  | .vmulExt gd x rmo d a b => some {len := 2, maj := 0x42, gd := gd, d := d.setWidth 6, a := a.setWidth 6, b := b.setWidth 6, attr := 0#2 ++ BitVec.ofBool x.vz ++ x.vm, imm16 := 0#8 ++ rmo ++ 0#5}
  | .vmin gd d a b => some {len := 0, maj := 0x43, gd := gd, d := d.setWidth 6, a := a.setWidth 6, b := b.setWidth 6}
  | .vminExt gd x rmo d a b => some {len := 2, maj := 0x43, gd := gd, d := d.setWidth 6, a := a.setWidth 6, b := b.setWidth 6, attr := 0#2 ++ BitVec.ofBool x.vz ++ x.vm, imm16 := 0#8 ++ rmo ++ 0#5}
  | .vmax gd d a b => some {len := 0, maj := 0x44, gd := gd, d := d.setWidth 6, a := a.setWidth 6, b := b.setWidth 6}
  | .vmaxExt gd x rmo d a b => some {len := 2, maj := 0x44, gd := gd, d := d.setWidth 6, a := a.setWidth 6, b := b.setWidth 6, attr := 0#2 ++ BitVec.ofBool x.vz ++ x.vm, imm16 := 0#8 ++ rmo ++ 0#5}
  | .vfma gd x rmo d a b c => some {len := 2, maj := 0x4B, gd := gd, d := d.setWidth 6, a := a.setWidth 6, b := b.setWidth 6, c := c.setWidth 6, attr := 0#2 ++ BitVec.ofBool x.vz ++ x.vm, imm16 := 0#8 ++ rmo ++ 0#5}
  | .vabs gd d a => some {len := 0, maj := 0x4C, gd := gd, d := d.setWidth 6, a := a.setWidth 6, b := 0#6}
  | .vabsExt gd x d a => some {len := 2, maj := 0x4C, gd := gd, d := d.setWidth 6, a := a.setWidth 6, b := 0#6, attr := 0#2 ++ BitVec.ofBool x.vz ++ x.vm}
  | .vmov gd d a => some {len := 0, maj := 0x4C, gd := gd, d := d.setWidth 6, a := a.setWidth 6, b := 1#6}
  | .vmovExt gd x d a => some {len := 2, maj := 0x4C, gd := gd, d := d.setWidth 6, a := a.setWidth 6, b := 1#6, attr := 0#2 ++ BitVec.ofBool x.vz ++ x.vm}
  | .vand gd d a b => some {len := 0, maj := 0x45, gd := gd, d := d.setWidth 6, a := a.setWidth 6, b := b.setWidth 6}
  | .vandExt gd x d a b => some {len := 2, maj := 0x45, gd := gd, d := d.setWidth 6, a := a.setWidth 6, b := b.setWidth 6, attr := 0#2 ++ BitVec.ofBool x.vz ++ x.vm}
  | .vor gd d a b => some {len := 0, maj := 0x46, gd := gd, d := d.setWidth 6, a := a.setWidth 6, b := b.setWidth 6}
  | .vorExt gd x d a b => some {len := 2, maj := 0x46, gd := gd, d := d.setWidth 6, a := a.setWidth 6, b := b.setWidth 6, attr := 0#2 ++ BitVec.ofBool x.vz ++ x.vm}
  | .vxor gd d a b => some {len := 0, maj := 0x47, gd := gd, d := d.setWidth 6, a := a.setWidth 6, b := b.setWidth 6}
  | .vxorExt gd x d a b => some {len := 2, maj := 0x47, gd := gd, d := d.setWidth 6, a := a.setWidth 6, b := b.setWidth 6, attr := 0#2 ++ BitVec.ofBool x.vz ++ x.vm}
  | .vshlReg gd d a b => some {len := 0, maj := 0x48, gd := gd, d := d.setWidth 6, a := a.setWidth 6, b := b.setWidth 6}
  | .vshlImm gd d a imm => some {len := 0, maj := 0x48, gd := gd, s := true, d := d.setWidth 6, a := a.setWidth 6, b := imm}
  | .vshlExt gd x s d a b => some {len := 2, maj := 0x48, gd := gd, s := s, d := d.setWidth 6, a := a.setWidth 6, b := b, attr := 0#2 ++ BitVec.ofBool x.vz ++ x.vm}
  | .vshrReg gd d a b => some {len := 0, maj := 0x49, gd := gd, d := d.setWidth 6, a := a.setWidth 6, b := b.setWidth 6}
  | .vshrImm gd d a imm => some {len := 0, maj := 0x49, gd := gd, s := true, d := d.setWidth 6, a := a.setWidth 6, b := imm}
  | .vshrExt gd x s d a b => some {len := 2, maj := 0x49, gd := gd, s := s, d := d.setWidth 6, a := a.setWidth 6, b := b, attr := 0#2 ++ BitVec.ofBool x.vz ++ x.vm}
  | .vsraReg gd d a b => some {len := 0, maj := 0x4A, gd := gd, d := d.setWidth 6, a := a.setWidth 6, b := b.setWidth 6}
  | .vsraImm gd d a imm => some {len := 0, maj := 0x4A, gd := gd, s := true, d := d.setWidth 6, a := a.setWidth 6, b := imm}
  | .vsraExt gd x s d a b => some {len := 2, maj := 0x4A, gd := gd, s := s, d := d.setWidth 6, a := a.setWidth 6, b := b, attr := 0#2 ++ BitVec.ofBool x.vz ++ x.vm}
  | .vcmp gd cc q a b => some {len := 0, maj := 0x4D, gd := gd, d := cc ++ q, a := a.setWidth 6, b := b.setWidth 6}
  | .vcmpExt gd x cc q a b => some {len := 2, maj := 0x4D, gd := gd, d := cc ++ q, a := a.setWidth 6, b := b.setWidth 6, attr := 0#2 ++ BitVec.ofBool x.vz ++ x.vm}
  | .vsel gd x d q a b => some {len := 2, maj := 0x4E, gd := gd, d := d.setWidth 6, a := a.setWidth 6, b := b.setWidth 6, c := q.setWidth 6, attr := 0#2 ++ BitVec.ofBool x.vz ++ x.vm}
  | .vbcast gd d a => some {len := 0, maj := 0x4F, gd := gd, d := d.setWidth 6, a := a}
  | .vbcastExt gd x d a => some {len := 2, maj := 0x4F, gd := gd, d := d.setWidth 6, a := a, attr := 0#2 ++ BitVec.ofBool x.vz ++ x.vm}
  | .vins gd d a lane => some {len := 0, maj := 0x50, gd := gd, d := d.setWidth 6, a := a, b := lane}
  | .vinsExt gd d a lane => some {len := 2, maj := 0x50, gd := gd, d := d.setWidth 6, a := a, b := lane}
  | .vext gd d a lane => some {len := 0, maj := 0x51, gd := gd, d := d, a := a.setWidth 6, b := lane}
  | .vextExt gd d a lane => some {len := 2, maj := 0x51, gd := gd, d := d, a := a.setWidth 6, b := lane}
  | .vshuf gd d a b => some {len := 0, maj := 0x52, gd := gd, d := d.setWidth 6, a := a.setWidth 6, b := b.setWidth 6}
  | .vshufExt gd x d a b => some {len := 2, maj := 0x52, gd := gd, d := d.setWidth 6, a := a.setWidth 6, b := b.setWidth 6, attr := 0#2 ++ BitVec.ofBool x.vz ++ x.vm}
  | .vslideUp gd d a n => some {len := 0, maj := 0x53, gd := gd, d := d.setWidth 6, a := a.setWidth 6, b := n.setWidth 6}
  | .vslideUpExt gd x d a n => some {len := 2, maj := 0x53, gd := gd, d := d.setWidth 6, a := a.setWidth 6, b := n.setWidth 6, attr := 0#2 ++ BitVec.ofBool x.vz ++ x.vm}
  | .vslideDown gd d a n => some {len := 0, maj := 0x53, gd := gd, s := true, d := d.setWidth 6, a := a.setWidth 6, b := n.setWidth 6}
  | .vslideDownExt gd x d a n => some {len := 2, maj := 0x53, gd := gd, s := true, d := d.setWidth 6, a := a.setWidth 6, b := n.setWidth 6, attr := 0#2 ++ BitVec.ofBool x.vz ++ x.vm}
  | .vredadd gd d a => some {len := 0, maj := 0x54, gd := gd, d := d, a := a.setWidth 6, b := 0#6}
  | .vredaddExt gd vm rmo d a => some {len := 2, maj := 0x54, gd := gd, d := d, a := a.setWidth 6, b := 0#6, attr := vm.setWidth 6, imm16 := 0#8 ++ rmo ++ 0#5}
  | .vredmin gd d a => some {len := 0, maj := 0x54, gd := gd, d := d, a := a.setWidth 6, b := 1#6}
  | .vredminExt gd vm rmo d a => some {len := 2, maj := 0x54, gd := gd, d := d, a := a.setWidth 6, b := 1#6, attr := vm.setWidth 6, imm16 := 0#8 ++ rmo ++ 0#5}
  | .vredmax gd d a => some {len := 0, maj := 0x54, gd := gd, d := d, a := a.setWidth 6, b := 2#6}
  | .vredmaxExt gd vm rmo d a => some {len := 2, maj := 0x54, gd := gd, d := d, a := a.setWidth 6, b := 2#6, attr := vm.setWidth 6, imm16 := 0#8 ++ rmo ++ 0#5}
  | .vdot gd x rmo d a b => some {len := 2, maj := 0x55, gd := gd, d := d.setWidth 6, a := a.setWidth 6, b := b.setWidth 6, attr := 0#2 ++ BitVec.ofBool x.vz ++ x.vm, imm16 := 0#8 ++ rmo ++ 0#5}
  | .vsfu gd x fn d a => some {len := 2, maj := 0x5A, gd := gd, d := d.setWidth 6, a := a.setWidth 6, min := fn, attr := 0#2 ++ BitVec.ofBool x.vz ++ x.vm}
  | .vcvt gd x rmo part dst src d a => some {len := 2, maj := 0x56, gd := gd, d := d.setWidth 6, a := a.setWidth 6, c := src.setWidth 6, attr := 0#2 ++ BitVec.ofBool x.vz ++ x.vm, imm16 := 0#4 ++ part ++ rmo ++ dst}
  | .vqnt gd rmo fmt d a c => some {len := 2, maj := 0x57, gd := gd, d := d.setWidth 6, a := a.setWidth 6, c := c, min := 0#4, imm16 := 0#8 ++ rmo ++ 0#1 ++ fmt}
  | .vdqnt gd fmt d a c => some {len := 2, maj := 0x57, gd := gd, d := d.setWidth 6, a := a.setWidth 6, c := c, min := 1#4, imm16 := fmt.setWidth 16}
  | .vhad gd h32 d a => some {len := 2, maj := 0x58, gd := gd, d := d.setWidth 6, a := a.setWidth 6, imm16 := (BitVec.ofBool h32).setWidth 16}
  | .vbaddq gd rmo fmt d a b c => some {len := 2, maj := 0x59, gd := gd, d := d.setWidth 6, a := a.setWidth 6, b := b.setWidth 6, c := c.setWidth 6, imm16 := 0#8 ++ rmo ++ 0#1 ++ fmt}
  | .mand gd d a b => some {len := 0, maj := 0x5B, gd := gd, d := d.setWidth 6, a := a.setWidth 6, b := 0#3 ++ b}
  | .mor gd d a b => some {len := 0, maj := 0x5B, gd := gd, d := d.setWidth 6, a := a.setWidth 6, b := 1#3 ++ b}
  | .mxor gd d a b => some {len := 0, maj := 0x5B, gd := gd, d := d.setWidth 6, a := a.setWidth 6, b := 2#3 ++ b}
  | .mnot gd d a => some {len := 0, maj := 0x5B, gd := gd, d := d.setWidth 6, a := a.setWidth 6, b := 3#3 ++ 0#3}
  | .mpop gd d a => some {len := 0, maj := 0x5C, gd := gd, d := d, a := a.setWidth 6, b := 0#6}
  | .gtom gd d a => some {len := 0, maj := 0x5C, gd := gd, d := d.setWidth 6, a := a, b := 1#6}
  | .mtog gd d a => some {len := 0, maj := 0x5C, gd := gd, d := d.setWidth 6, a := a, b := 2#6}
  | .ld gd t d ea => some {len := 2, maj := 0x60, gd := gd, d := d, a := ea.a, b := ea.b, min := 0#4, attr := BitVec.ofBool t.k ++ t.w ++ t.scope, imm32 := ea.disp}
  | .ldro gd t d ea => some {len := 2, maj := 0x60, gd := gd, d := d, a := ea.a, b := ea.b, min := 1#4, attr := BitVec.ofBool t.k ++ t.w ++ t.scope, imm32 := ea.disp}
  | .ldx gd t d ea => some {len := 2, maj := 0x60, gd := gd, d := d, a := ea.a, b := ea.b, min := 2#4, attr := BitVec.ofBool t.k ++ t.w ++ t.scope, imm32 := ea.disp}
  | .ldv gd t d ea => some {len := 2, maj := 0x61, gd := gd, d := d.setWidth 6, a := ea.a, b := ea.b, min := 0#4, attr := BitVec.ofBool t.k ++ t.w ++ t.scope, imm16 := 0#15 ++ 0#1, imm32 := ea.disp}
  | .ldvGather gd t d va b disp => some {len := 2, maj := 0x61, gd := gd, d := d.setWidth 6, a := va.setWidth 6, b := b, min := 0#4, attr := BitVec.ofBool t.k ++ t.w ++ t.scope, imm16 := 0#15 ++ 1#1, imm32 := disp}
  | .lds gd t d ea => some {len := 2, maj := 0x62, gd := gd, d := d, a := ea.a, b := ea.b, min := 0#4, attr := BitVec.ofBool t.k ++ t.w ++ t.scope, imm32 := ea.disp}
  | .ldsv gd d ea => some {len := 2, maj := 0x62, gd := gd, d := d.setWidth 6, a := ea.a, b := ea.b, min := 1#4, imm32 := ea.disp}
  | .sts gd t d ea => some {len := 2, maj := 0x63, gd := gd, d := d, a := ea.a, b := ea.b, min := 0#4, attr := BitVec.ofBool t.k ++ t.w ++ t.scope, imm32 := ea.disp}
  | .stsv gd d ea => some {len := 2, maj := 0x63, gd := gd, d := d.setWidth 6, a := ea.a, b := ea.b, min := 1#4, imm32 := ea.disp}
  | .ldd gd t d ea => some {len := 2, maj := 0x64, gd := gd, d := d, a := ea.a, b := ea.b, min := 0#4, attr := BitVec.ofBool t.k ++ t.w ++ t.scope, imm32 := ea.disp}
  | .std gd t d ea => some {len := 2, maj := 0x64, gd := gd, d := d, a := ea.a, b := ea.b, min := 1#4, attr := BitVec.ofBool t.k ++ t.w ++ t.scope, imm32 := ea.disp}
  | .upd gd op t d ea => some {len := 2, maj := 0x65, gd := gd, d := d, a := ea.a, b := ea.b, min := op, attr := BitVec.ofBool t.k ++ t.w ++ t.scope, imm32 := ea.disp}
  | .updx gd op t d ea => some {len := 2, maj := 0x67, gd := gd, d := d, a := ea.a, b := ea.b, min := op, attr := BitVec.ofBool t.k ++ t.w ++ t.scope, imm32 := ea.disp}
  | .updv gd op t d ea => some {len := 2, maj := 0x66, gd := gd, d := d.setWidth 6, a := ea.a, b := ea.b, min := op, attr := BitVec.ofBool t.k ++ t.w ++ t.scope, imm16 := 0#15 ++ 0#1, imm32 := ea.disp}
  | .updvScatter gd op t d va b disp => some {len := 2, maj := 0x66, gd := gd, d := d.setWidth 6, a := va.setWidth 6, b := b, min := op, attr := BitVec.ofBool t.k ++ t.w ++ t.scope, imm16 := 0#15 ++ 1#1, imm32 := disp}
  | .atom gd op t d ea c => some {len := 2, maj := 0x68, gd := gd, d := d, a := ea.a, b := ea.b, c := c, min := op, attr := BitVec.ofBool t.k ++ t.w ++ t.scope, imm32 := ea.disp}
  | .cas gd t d a disp b c => some {len := 2, maj := 0x69, gd := gd, d := d, a := a, b := b, c := c, min := 0#4, attr := BitVec.ofBool t.k ++ t.w ++ t.scope, imm32 := disp}
  | .drain gd scope a b => some {len := 2, maj := 0x6A, gd := gd, a := a, b := b, min := 0#4, attr := scope.setWidth 6}
  | .inval gd scope a b => some {len := 2, maj := 0x6A, gd := gd, a := a, b := b, min := 1#4, attr := scope.setWidth 6}
  | .fence gd scope eng => some {len := 2, maj := 0x6A, gd := gd, min := 2#4, attr := scope.setWidth 6, imm16 := (BitVec.ofBool eng).setWidth 16}
  | .syncinit gd a disp b => some {len := 2, maj := 0x6C, gd := gd, a := a, b := b, min := 0#4, imm32 := disp}
  | .syncadd gd a disp b => some {len := 2, maj := 0x6D, gd := gd, a := a, b := b, min := 0#4, imm32 := disp}
  | .syncwait gd a disp => some {len := 2, maj := 0x6E, gd := gd, a := a, min := 0#4, imm32 := disp}
  | .syncget gd d a disp => some {len := 2, maj := 0x6F, gd := gd, d := d, a := a, min := 0#4, imm32 := disp}
  | .tdset gd dd a disp => some {len := 2, maj := 0x70, gd := gd, d := dd, a := a, min := 0#4, imm32 := disp}
  | .tdget gd a disp dd => some {len := 2, maj := 0x70, gd := gd, d := dd, a := a, min := 1#4, imm32 := disp}
  | .ringcfg gd q a disp => some {len := 2, maj := 0x71, gd := gd, d := q.setWidth 6, a := a, min := 0#4, imm32 := disp}
  | .ringstat gd d q => some {len := 2, maj := 0x71, gd := gd, d := d, a := q.setWidth 6, min := 1#4}
  | .ringdrop gd q count => some {len := 2, maj := 0x71, gd := gd, d := q.setWidth 6, min := 2#4, imm16 := count}
  | .tilecfg gd a => some {len := 0, maj := 0x72, gd := gd, a := a, b := 0#6}
  | .tilerel gd => some {len := 0, maj := 0x72, gd := gd, b := 1#6}
  | .tzero gd ta => some {len := 0, maj := 0x72, gd := gd, d := ta.setWidth 6, b := 2#6}
  | .tld gd ta a disp => some {len := 2, maj := 0x73, gd := gd, d := ta.setWidth 6, a := a, min := 0#4, imm32 := disp}
  | .tsts gd a disp ta => some {len := 2, maj := 0x73, gd := gd, d := ta.setWidth 6, a := a, min := 1#4, imm32 := disp}
  | .tupd gd op t ea ta => some {len := 2, maj := 0x74, gd := gd, d := ta.setWidth 6, a := ea.a, b := ea.b, min := op, attr := BitVec.ofBool t.k ++ t.w ++ t.scope, imm32 := ea.disp}
  | .mma gd ta qa qb => some {len := 0, maj := 0x75, gd := gd, d := ta.setWidth 6, a := qa.setWidth 6, b := qb.setWidth 6}
  | .tcvt gd q ta => some {len := 0, maj := 0x76, gd := gd, d := q.setWidth 6, a := ta.setWidth 6}
  | .cpy gd d a disp => some {len := 2, maj := 0x78, gd := gd, d := d, a := a, min := 0#4, imm32 := disp}
  | .cpystat gd d a => some {len := 2, maj := 0x79, gd := gd, d := d, a := a, min := 0#4}
  | .cpyres gd a => some {len := 2, maj := 0x79, gd := gd, a := a, min := 1#4}
  | .dsmode gd mode a => some {len := 2, maj := 0x7A, gd := gd, a := a, min := 0#4, imm16 := mode.setWidth 16}
  | .bsld gd idx a disp b => some {len := 2, maj := 0x7B, gd := gd, a := a, b := b, min := 0#4, imm16 := idx.setWidth 16, imm32 := disp}
  | .bsrun gd a b => some {len := 2, maj := 0x7B, gd := gd, a := a, b := b, min := 1#4}
  | .bsres gd => some {len := 2, maj := 0x7B, gd := gd, min := 2#4}
  | .bsstat gd d => some {len := 2, maj := 0x7B, gd := gd, d := d, min := 3#4}
  | .barcfg gd bb a => some {len := 2, maj := 0x7C, gd := gd, d := bb.setWidth 6, a := a, min := 0#4}
  | .bararr gd bb => some {len := 2, maj := 0x7C, gd := gd, d := bb.setWidth 6, min := 1#4}
  | .barwait gd bb => some {len := 2, maj := 0x7C, gd := gd, d := bb.setWidth 6, min := 2#4}
  | .send gd tag nw a disp => some {len := 2, maj := 0x7D, gd := gd, a := a, min := 0#4, imm16 := tag ++ 0#4 ++ nw, imm32 := disp}
  | .inpop gd d => some {len := 2, maj := 0x7D, gd := gd, d := d, min := 1#4}
  | .gqtake gd d => some {len := 2, maj := 0x7D, gd := gd, d := d, min := 2#4}
  | .gqput gd a => some {len := 2, maj := 0x7D, gd := gd, a := a, min := 3#4}
  | .trap gd code => some {len := 2, maj := 0x7E, gd := gd, min := 0#4, imm16 := code}
  | .tret gd => some {len := 2, maj := 0x7E, gd := gd, min := 1#4}
  | .exit gd => some {len := 2, maj := 0x7E, gd := gd, min := 2#4}
  | .brk gd code => some {len := 2, maj := 0x7E, gd := gd, min := 3#4, imm16 := code}
  | .hubcall gd code d a => some {len := 2, maj := 0x7E, gd := gd, d := d, a := a, min := 4#4, imm16 := code}
  | .chkpt gd a => some {len := 2, maj := 0x7E, gd := gd, a := a, min := 5#4}
  | _ => none

/-- The rows of majors 0x00 to 0x07 (R99). -/
def pickRow0 (f : Fields) : Option Instr :=
  if f.maj = 0x01 then
    if f.len = 0 then some (.addReg f.gd f.s f.d f.a f.b)
    else if f.len = 1 then some (.addLit f.gd f.s f.d f.a f.lit)
    else none
  else if f.maj = 0x02 then
    if f.len = 0 then some (.addImm f.gd f.s f.d f.a f.b)
    else none
  else if f.maj = 0x03 then
    if f.len = 0 then some (.subReg f.gd f.s f.d f.a f.b)
    else if f.len = 1 then some (.subLit f.gd f.s f.d f.a f.lit)
    else none
  else if f.maj = 0x04 then
    if f.len = 0 then some (.subImm f.gd f.s f.d f.a f.b)
    else none
  else if f.maj = 0x05 then
    if f.len = 0 then some (.mulReg f.gd f.s f.d f.a f.b)
    else if f.len = 1 then some (.mulLit f.gd f.s f.d f.a f.lit)
    else none
  else if f.maj = 0x06 then
    if f.len = 0 then some (.mulImm f.gd f.s f.d f.a f.b)
    else none
  else if f.maj = 0x07 then
    if f.len = 0 then some (.andReg f.gd f.s f.d f.a f.b)
    else if f.len = 1 then some (.andLit f.gd f.s f.d f.a f.lit)
    else none
  else none

/-- The rows of majors 0x08 to 0x0F (R99). -/
def pickRow1 (f : Fields) : Option Instr :=
  if f.maj = 0x08 then
    if f.len = 0 then some (.andImm f.gd f.s f.d f.a f.b)
    else none
  else if f.maj = 0x09 then
    if f.len = 0 then some (.orReg f.gd f.s f.d f.a f.b)
    else if f.len = 1 then some (.orLit f.gd f.s f.d f.a f.lit)
    else none
  else if f.maj = 0x0A then
    if f.len = 0 then some (.orImm f.gd f.s f.d f.a f.b)
    else none
  else if f.maj = 0x0B then
    if f.len = 0 then some (.xorReg f.gd f.s f.d f.a f.b)
    else if f.len = 1 then some (.xorLit f.gd f.s f.d f.a f.lit)
    else none
  else if f.maj = 0x0C then
    if f.len = 0 then some (.xorImm f.gd f.s f.d f.a f.b)
    else none
  else if f.maj = 0x0D then
    if f.len = 0 then some (.shlReg f.gd f.s f.d f.a f.b)
    else if f.len = 1 then some (.shlLit f.gd f.s f.d f.a f.lit)
    else none
  else if f.maj = 0x0E then
    if f.len = 0 then some (.shlImm f.gd f.s f.d f.a f.b)
    else none
  else if f.maj = 0x0F then
    if f.len = 0 then some (.shrReg f.gd f.s f.d f.a f.b)
    else if f.len = 1 then some (.shrLit f.gd f.s f.d f.a f.lit)
    else none
  else none

/-- The rows of majors 0x10 to 0x17 (R99). -/
def pickRow2 (f : Fields) : Option Instr :=
  if f.maj = 0x10 then
    if f.len = 0 then some (.shrImm f.gd f.s f.d f.a f.b)
    else none
  else if f.maj = 0x11 then
    if f.len = 0 then some (.sraReg f.gd f.s f.d f.a f.b)
    else if f.len = 1 then some (.sraLit f.gd f.s f.d f.a f.lit)
    else none
  else if f.maj = 0x12 then
    if f.len = 0 then some (.sraImm f.gd f.s f.d f.a f.b)
    else none
  else if f.maj = 0x13 then
    if f.len = 0 then some (.rolReg f.gd f.s f.d f.a f.b)
    else if f.len = 1 then some (.rolLit f.gd f.s f.d f.a f.lit)
    else none
  else if f.maj = 0x14 then
    if f.len = 0 then some (.rolImm f.gd f.s f.d f.a f.b)
    else none
  else if f.maj = 0x15 then
    if f.len = 0 then some (.minReg f.gd f.s f.d f.a f.b)
    else if f.len = 1 then some (.minLit f.gd f.s f.d f.a f.lit)
    else none
  else if f.maj = 0x16 then
    if f.len = 0 then some (.minImm f.gd f.s f.d f.a f.b)
    else none
  else if f.maj = 0x17 then
    if f.len = 0 then some (.maxReg f.gd f.s f.d f.a f.b)
    else if f.len = 1 then some (.maxLit f.gd f.s f.d f.a f.lit)
    else none
  else none

/-- The rows of majors 0x18 to 0x1F (R99). -/
def pickRow3 (f : Fields) : Option Instr :=
  if f.maj = 0x18 then
    if f.len = 0 then some (.maxImm f.gd f.s f.d f.a f.b)
    else none
  else if f.maj = 0x19 then
    if f.len = 0 then some (.minnReg f.gd f.s f.d f.a f.b)
    else if f.len = 1 then some (.minnLit f.gd f.s f.d f.a f.lit)
    else none
  else if f.maj = 0x1A then
    if f.len = 0 then some (.maxnReg f.gd f.s f.d f.a f.b)
    else if f.len = 1 then some (.maxnLit f.gd f.s f.d f.a f.lit)
    else none
  else if f.maj = 0x1B then
    if f.len = 0 then some (.andnReg f.gd f.s f.d f.a f.b)
    else if f.len = 1 then some (.andnLit f.gd f.s f.d f.a f.lit)
    else none
  else if f.maj = 0x1C then
    if f.len = 0 then some (.ornReg f.gd f.s f.d f.a f.b)
    else if f.len = 1 then some (.ornLit f.gd f.s f.d f.a f.lit)
    else none
  else if f.maj = 0x1D then
    if f.len.getLsbD 1 = true ∧ f.min = 0 then some (.mulh f.gd f.s f.d f.a f.opB)
    else if f.len.getLsbD 1 = true ∧ f.min = 1 then some (.mulhn f.gd f.s f.d f.a f.opB)
    else if f.len.getLsbD 1 = true ∧ f.min = 2 then some (.div f.gd f.s f.d f.a f.opB)
    else if f.len.getLsbD 1 = true ∧ f.min = 3 then some (.divn f.gd f.s f.d f.a f.opB)
    else if f.len.getLsbD 1 = true ∧ f.min = 4 then some (.rem f.gd f.s f.d f.a f.opB)
    else if f.len.getLsbD 1 = true ∧ f.min = 5 then some (.remn f.gd f.s f.d f.a f.opB)
    else if f.len.getLsbD 1 = true ∧ f.min = 6 then some (.mad f.gd f.s f.d f.a f.opB f.c)
    else none
  else if f.maj = 0x1E then
    if f.len = 0 ∧ f.b = 0 then some (.clz f.gd f.s f.d f.a)
    else if f.len = 0 ∧ f.b = 1 then some (.ctz f.gd f.s f.d f.a)
    else if f.len = 0 ∧ f.b = 2 then some (.popc f.gd f.s f.d f.a)
    else if f.len = 0 ∧ f.b = 3 then some (.brev f.gd f.s f.d f.a)
    else if f.len = 0 ∧ f.b = 4 then some (.bswap f.gd f.s f.d f.a)
    else if f.len = 0 ∧ f.b = 5 then some (.abs f.gd f.s f.d f.a)
    else none
  else if f.maj = 0x1F then
    if f.len = 2 ∧ f.min = 0 then some (.bfx f.gd f.s f.d f.a (f.imm16.extractLsb' 0 6) (f.imm16.extractLsb' 6 6))
    else if f.len = 2 ∧ f.min = 1 then some (.bfxs f.gd f.s f.d f.a (f.imm16.extractLsb' 0 6) (f.imm16.extractLsb' 6 6))
    else if f.len = 2 ∧ f.min = 2 then some (.bfi f.gd f.s f.d f.a (f.imm16.extractLsb' 0 6) (f.imm16.extractLsb' 6 6))
    else if f.len.getLsbD 1 = true ∧ f.min = 3 then some (.sel f.gd f.s f.d (f.c.setWidth 3) f.a f.opB)
    else if f.len.getLsbD 1 = true ∧ f.min = 4 ∧ f.imm16.extractLsb' 0 1 = 0 then some (.lea f.gd f.s f.d f.a f.opB f.imm32)
    else if f.len.getLsbD 1 = true ∧ f.min = 4 ∧ f.imm16.extractLsb' 0 1 = 1 then some (.leaPcr f.gd f.s f.d f.opB f.imm32)
    else none
  else none

/-- The rows of majors 0x20 to 0x27 (R99). -/
def pickRow4 (f : Fields) : Option Instr :=
  if f.maj = 0x20 then
    if f.len = 0 then some (.cmpSignedReg f.gd f.s (f.d.extractLsb' 3 3) (f.d.extractLsb' 0 3) f.a f.b)
    else if f.len = 1 then some (.cmpSignedLit f.gd f.s (f.d.extractLsb' 3 3) (f.d.extractLsb' 0 3) f.a f.lit)
    else none
  else if f.maj = 0x21 then
    if f.len = 0 then some (.cmpSignedImm f.gd f.s (f.d.extractLsb' 3 3) (f.d.extractLsb' 0 3) f.a f.b)
    else none
  else if f.maj = 0x22 then
    if f.len = 0 then some (.cmpNaturalReg f.gd f.s (f.d.extractLsb' 3 3) (f.d.extractLsb' 0 3) f.a f.b)
    else if f.len = 1 then some (.cmpNaturalLit f.gd f.s (f.d.extractLsb' 3 3) (f.d.extractLsb' 0 3) f.a f.lit)
    else none
  else if f.maj = 0x23 then
    if f.len = 0 then some (.cmpNaturalImm f.gd f.s (f.d.extractLsb' 3 3) (f.d.extractLsb' 0 3) f.a f.b)
    else none
  else if f.maj = 0x24 then
    if f.len = 0 ∧ f.b.extractLsb' 3 3 = 0 then some (.pand f.gd f.s (f.d.setWidth 3) (f.a.setWidth 3) (f.b.extractLsb' 0 3))
    else if f.len = 0 ∧ f.b.extractLsb' 3 3 = 1 then some (.por f.gd f.s (f.d.setWidth 3) (f.a.setWidth 3) (f.b.extractLsb' 0 3))
    else if f.len = 0 ∧ f.b.extractLsb' 3 3 = 2 then some (.pxor f.gd f.s (f.d.setWidth 3) (f.a.setWidth 3) (f.b.extractLsb' 0 3))
    else if f.len = 0 ∧ f.b.extractLsb' 3 3 = 3 then some (.pmov f.gd f.s (f.d.setWidth 3) (f.a.setWidth 3))
    else none
  else none

/-- The rows of majors 0x28 to 0x2F (R99). -/
def pickRow5 (f : Fields) : Option Instr :=
  if f.maj = 0x28 then
    if f.len = 0 then some (.bra f.gd f.b f.a f.d)
    else none
  else if f.maj = 0x29 then
    if f.len = 0 then some (.call f.gd f.b f.a f.d)
    else none
  else if f.maj = 0x2A then
    if f.len = 0 ∧ f.b = 0 then some (.brx f.gd f.a)
    else if f.len = 0 ∧ f.b = 1 then some (.callx f.gd f.a)
    else if f.len = 0 ∧ f.b = 2 then some (.ret f.gd)
    else none
  else if f.maj = 0x2B then
    if f.len = 2 then some (.btag f.gd (f.imm16.setWidth 8) f.imm32)
    else none
  else if f.maj = 0x2C then
    if f.len = 2 ∧ f.s = true then some (.loopImm f.gd f.imm32 f.imm16)
    else if f.len = 2 ∧ f.s = false then some (.loopReg f.gd f.a f.imm16)
    else none
  else if f.maj = 0x2D then
    if f.len = 0 then some (.lexit f.gd)
    else none
  else if f.maj = 0x2E then
    if f.len = 2 ∧ f.min = 0 then some (.tclr f.gd (f.attr.setWidth 2) f.d (f.imm16.setWidth 8))
    else if f.len = 2 ∧ f.min = 1 then some (.tdep f.gd (f.attr.extractLsb' 0 2) f.d (f.attr.extractLsb' 2 2) f.a)
    else if f.len = 2 ∧ f.min = 2 then some (.twait f.gd (f.imm16.setWidth 8))
    else if f.len = 2 ∧ f.min = 3 then some (.tget f.gd f.d (f.attr.extractLsb' 2 2) f.a)
    else none
  else none

/-- The rows of majors 0x30 to 0x37 (R99). -/
def pickRow6 (f : Fields) : Option Instr :=
  if f.maj = 0x30 then
    if f.len = 0 then some (.fadd f.gd f.s f.d f.a f.b)
    else if f.len = 1 then some (.faddLit f.gd f.s f.d f.a f.lit)
    else if f.len.getLsbD 1 = true then some (.faddExt f.gd (f.attr.setWidth 2) (f.imm16.extractLsb' 5 3) f.d f.a f.opB)
    else none
  else if f.maj = 0x31 then
    if f.len = 0 then some (.fsub f.gd f.s f.d f.a f.b)
    else if f.len = 1 then some (.fsubLit f.gd f.s f.d f.a f.lit)
    else if f.len.getLsbD 1 = true then some (.fsubExt f.gd (f.attr.setWidth 2) (f.imm16.extractLsb' 5 3) f.d f.a f.opB)
    else none
  else if f.maj = 0x32 then
    if f.len = 0 then some (.fmul f.gd f.s f.d f.a f.b)
    else if f.len = 1 then some (.fmulLit f.gd f.s f.d f.a f.lit)
    else if f.len.getLsbD 1 = true then some (.fmulExt f.gd (f.attr.setWidth 2) (f.imm16.extractLsb' 5 3) f.d f.a f.opB)
    else none
  else if f.maj = 0x33 then
    if f.len = 0 then some (.fmin f.gd f.s f.d f.a f.b)
    else if f.len = 1 then some (.fminLit f.gd f.s f.d f.a f.lit)
    else if f.len.getLsbD 1 = true ∧ f.c = 0 then some (.fminExt f.gd (f.attr.setWidth 2) (f.imm16.extractLsb' 5 3) f.d f.a f.opB)
    else if f.len.getLsbD 1 = true ∧ f.c = 1 then some (.fmax f.gd (f.attr.setWidth 2) (f.imm16.extractLsb' 5 3) f.d f.a f.opB)
    else none
  else if f.maj = 0x34 then
    if f.len.getLsbD 1 = true then some (.ffma f.gd (f.attr.setWidth 2) (f.imm16.extractLsb' 5 3) f.d f.a f.opB f.c)
    else none
  else if f.maj = 0x35 then
    if f.len = 0 then some (.fdiv f.gd f.s f.d f.a f.b)
    else if f.len = 1 then some (.fdivLit f.gd f.s f.d f.a f.lit)
    else if f.len.getLsbD 1 = true then some (.fdivExt f.gd (f.attr.setWidth 2) (f.imm16.extractLsb' 5 3) f.d f.a f.opB)
    else none
  else if f.maj = 0x36 then
    if f.len = 0 then some (.fcmp f.gd f.s (f.d.extractLsb' 3 3) (f.d.extractLsb' 0 3) f.a f.b)
    else if f.len = 1 then some (.fcmpLit f.gd f.s (f.d.extractLsb' 3 3) (f.d.extractLsb' 0 3) f.a f.lit)
    else if f.len.getLsbD 1 = true then some (.fcmpExt f.gd (f.attr.setWidth 2) (f.imm16.extractLsb' 5 3) (f.d.extractLsb' 3 3) (f.d.extractLsb' 0 3) f.a f.opB)
    else none
  else if f.maj = 0x37 then
    if f.len.getLsbD 1 = true ∧ f.min = 0 then some (.fsqrt f.gd (f.attr.setWidth 2) (f.imm16.extractLsb' 5 3) f.d f.opA)
    else if f.len = 2 ∧ f.min = 1 then some (.fcvt f.gd (f.imm16.extractLsb' 5 3) (f.imm16.extractLsb' 0 5) (f.c.setWidth 5) f.d f.a)
    else if f.len = 2 ∧ f.min = 2 then some (.fclass f.gd (f.c.setWidth 5) f.d f.a)
    else none
  else none

/-- The rows of majors 0x38 to 0x3F (R99). -/
def pickRow7 (f : Fields) : Option Instr :=
  if f.maj = 0x38 then
    if f.len = 0 then some (.rds f.gd f.d (f.b.setWidth 4) f.a)
    else none
  else if f.maj = 0x39 then
    if f.len = 0 then some (.wrs f.gd (f.b.setWidth 4) f.d f.a)
    else none
  else none

/-- The rows of majors 0x40 to 0x47 (R99). -/
def pickRow8 (f : Fields) : Option Instr :=
  if f.maj = 0x40 then
    if f.len = 0 then some (.vadd f.gd (f.d.setWidth 5) (f.a.setWidth 5) (f.b.setWidth 5))
    else if f.len = 2 then some (.vaddExt f.gd ⟨f.attr.extractLsb' 0 3, f.attr.getLsbD 3⟩ (f.imm16.extractLsb' 5 3) (f.d.setWidth 5) (f.a.setWidth 5) (f.b.setWidth 5))
    else none
  else if f.maj = 0x41 then
    if f.len = 0 then some (.vsub f.gd (f.d.setWidth 5) (f.a.setWidth 5) (f.b.setWidth 5))
    else if f.len = 2 then some (.vsubExt f.gd ⟨f.attr.extractLsb' 0 3, f.attr.getLsbD 3⟩ (f.imm16.extractLsb' 5 3) (f.d.setWidth 5) (f.a.setWidth 5) (f.b.setWidth 5))
    else none
  else if f.maj = 0x42 then
    if f.len = 0 then some (.vmul f.gd (f.d.setWidth 5) (f.a.setWidth 5) (f.b.setWidth 5))
    else if f.len = 2 then some (.vmulExt f.gd ⟨f.attr.extractLsb' 0 3, f.attr.getLsbD 3⟩ (f.imm16.extractLsb' 5 3) (f.d.setWidth 5) (f.a.setWidth 5) (f.b.setWidth 5))
    else none
  else if f.maj = 0x43 then
    if f.len = 0 then some (.vmin f.gd (f.d.setWidth 5) (f.a.setWidth 5) (f.b.setWidth 5))
    else if f.len = 2 then some (.vminExt f.gd ⟨f.attr.extractLsb' 0 3, f.attr.getLsbD 3⟩ (f.imm16.extractLsb' 5 3) (f.d.setWidth 5) (f.a.setWidth 5) (f.b.setWidth 5))
    else none
  else if f.maj = 0x44 then
    if f.len = 0 then some (.vmax f.gd (f.d.setWidth 5) (f.a.setWidth 5) (f.b.setWidth 5))
    else if f.len = 2 then some (.vmaxExt f.gd ⟨f.attr.extractLsb' 0 3, f.attr.getLsbD 3⟩ (f.imm16.extractLsb' 5 3) (f.d.setWidth 5) (f.a.setWidth 5) (f.b.setWidth 5))
    else none
  else if f.maj = 0x45 then
    if f.len = 0 then some (.vand f.gd (f.d.setWidth 5) (f.a.setWidth 5) (f.b.setWidth 5))
    else if f.len = 2 then some (.vandExt f.gd ⟨f.attr.extractLsb' 0 3, f.attr.getLsbD 3⟩ (f.d.setWidth 5) (f.a.setWidth 5) (f.b.setWidth 5))
    else none
  else if f.maj = 0x46 then
    if f.len = 0 then some (.vor f.gd (f.d.setWidth 5) (f.a.setWidth 5) (f.b.setWidth 5))
    else if f.len = 2 then some (.vorExt f.gd ⟨f.attr.extractLsb' 0 3, f.attr.getLsbD 3⟩ (f.d.setWidth 5) (f.a.setWidth 5) (f.b.setWidth 5))
    else none
  else if f.maj = 0x47 then
    if f.len = 0 then some (.vxor f.gd (f.d.setWidth 5) (f.a.setWidth 5) (f.b.setWidth 5))
    else if f.len = 2 then some (.vxorExt f.gd ⟨f.attr.extractLsb' 0 3, f.attr.getLsbD 3⟩ (f.d.setWidth 5) (f.a.setWidth 5) (f.b.setWidth 5))
    else none
  else none

/-- The rows of majors 0x48 to 0x4F (R99). -/
def pickRow9 (f : Fields) : Option Instr :=
  if f.maj = 0x48 then
    if f.len = 0 ∧ f.s = false then some (.vshlReg f.gd (f.d.setWidth 5) (f.a.setWidth 5) (f.b.setWidth 5))
    else if f.len = 0 ∧ f.s = true then some (.vshlImm f.gd (f.d.setWidth 5) (f.a.setWidth 5) f.b)
    else if f.len = 2 then some (.vshlExt f.gd ⟨f.attr.extractLsb' 0 3, f.attr.getLsbD 3⟩ f.s (f.d.setWidth 5) (f.a.setWidth 5) f.b)
    else none
  else if f.maj = 0x49 then
    if f.len = 0 ∧ f.s = false then some (.vshrReg f.gd (f.d.setWidth 5) (f.a.setWidth 5) (f.b.setWidth 5))
    else if f.len = 0 ∧ f.s = true then some (.vshrImm f.gd (f.d.setWidth 5) (f.a.setWidth 5) f.b)
    else if f.len = 2 then some (.vshrExt f.gd ⟨f.attr.extractLsb' 0 3, f.attr.getLsbD 3⟩ f.s (f.d.setWidth 5) (f.a.setWidth 5) f.b)
    else none
  else if f.maj = 0x4A then
    if f.len = 0 ∧ f.s = false then some (.vsraReg f.gd (f.d.setWidth 5) (f.a.setWidth 5) (f.b.setWidth 5))
    else if f.len = 0 ∧ f.s = true then some (.vsraImm f.gd (f.d.setWidth 5) (f.a.setWidth 5) f.b)
    else if f.len = 2 then some (.vsraExt f.gd ⟨f.attr.extractLsb' 0 3, f.attr.getLsbD 3⟩ f.s (f.d.setWidth 5) (f.a.setWidth 5) f.b)
    else none
  else if f.maj = 0x4B then
    if f.len = 2 then some (.vfma f.gd ⟨f.attr.extractLsb' 0 3, f.attr.getLsbD 3⟩ (f.imm16.extractLsb' 5 3) (f.d.setWidth 5) (f.a.setWidth 5) (f.b.setWidth 5) (f.c.setWidth 5))
    else none
  else if f.maj = 0x4C then
    if f.len = 0 ∧ f.b = 0 then some (.vabs f.gd (f.d.setWidth 5) (f.a.setWidth 5))
    else if f.len = 2 ∧ f.b = 0 then some (.vabsExt f.gd ⟨f.attr.extractLsb' 0 3, f.attr.getLsbD 3⟩ (f.d.setWidth 5) (f.a.setWidth 5))
    else if f.len = 0 ∧ f.b = 1 then some (.vmov f.gd (f.d.setWidth 5) (f.a.setWidth 5))
    else if f.len = 2 ∧ f.b = 1 then some (.vmovExt f.gd ⟨f.attr.extractLsb' 0 3, f.attr.getLsbD 3⟩ (f.d.setWidth 5) (f.a.setWidth 5))
    else none
  else if f.maj = 0x4D then
    if f.len = 0 then some (.vcmp f.gd (f.d.extractLsb' 3 3) (f.d.extractLsb' 0 3) (f.a.setWidth 5) (f.b.setWidth 5))
    else if f.len = 2 then some (.vcmpExt f.gd ⟨f.attr.extractLsb' 0 3, f.attr.getLsbD 3⟩ (f.d.extractLsb' 3 3) (f.d.extractLsb' 0 3) (f.a.setWidth 5) (f.b.setWidth 5))
    else none
  else if f.maj = 0x4E then
    if f.len = 2 then some (.vsel f.gd ⟨f.attr.extractLsb' 0 3, f.attr.getLsbD 3⟩ (f.d.setWidth 5) (f.c.setWidth 3) (f.a.setWidth 5) (f.b.setWidth 5))
    else none
  else if f.maj = 0x4F then
    if f.len = 0 then some (.vbcast f.gd (f.d.setWidth 5) f.a)
    else if f.len = 2 then some (.vbcastExt f.gd ⟨f.attr.extractLsb' 0 3, f.attr.getLsbD 3⟩ (f.d.setWidth 5) f.a)
    else none
  else none

/-- The rows of majors 0x50 to 0x57 (R99). -/
def pickRow10 (f : Fields) : Option Instr :=
  if f.maj = 0x50 then
    if f.len = 0 then some (.vins f.gd (f.d.setWidth 5) f.a f.b)
    else if f.len = 2 then some (.vinsExt f.gd (f.d.setWidth 5) f.a f.b)
    else none
  else if f.maj = 0x51 then
    if f.len = 0 then some (.vext f.gd f.d (f.a.setWidth 5) f.b)
    else if f.len = 2 then some (.vextExt f.gd f.d (f.a.setWidth 5) f.b)
    else none
  else if f.maj = 0x52 then
    if f.len = 0 then some (.vshuf f.gd (f.d.setWidth 5) (f.a.setWidth 5) (f.b.setWidth 5))
    else if f.len = 2 then some (.vshufExt f.gd ⟨f.attr.extractLsb' 0 3, f.attr.getLsbD 3⟩ (f.d.setWidth 5) (f.a.setWidth 5) (f.b.setWidth 5))
    else none
  else if f.maj = 0x53 then
    if f.len = 0 ∧ f.s = false then some (.vslideUp f.gd (f.d.setWidth 5) (f.a.setWidth 5) (f.b.setWidth 5))
    else if f.len = 2 ∧ f.s = false then some (.vslideUpExt f.gd ⟨f.attr.extractLsb' 0 3, f.attr.getLsbD 3⟩ (f.d.setWidth 5) (f.a.setWidth 5) (f.b.setWidth 5))
    else if f.len = 0 ∧ f.s = true then some (.vslideDown f.gd (f.d.setWidth 5) (f.a.setWidth 5) (f.b.setWidth 5))
    else if f.len = 2 ∧ f.s = true then some (.vslideDownExt f.gd ⟨f.attr.extractLsb' 0 3, f.attr.getLsbD 3⟩ (f.d.setWidth 5) (f.a.setWidth 5) (f.b.setWidth 5))
    else none
  else if f.maj = 0x54 then
    if f.len = 0 ∧ f.b = 0 then some (.vredadd f.gd f.d (f.a.setWidth 5))
    else if f.len = 2 ∧ f.b = 0 then some (.vredaddExt f.gd (f.attr.setWidth 3) (f.imm16.extractLsb' 5 3) f.d (f.a.setWidth 5))
    else if f.len = 0 ∧ f.b = 1 then some (.vredmin f.gd f.d (f.a.setWidth 5))
    else if f.len = 2 ∧ f.b = 1 then some (.vredminExt f.gd (f.attr.setWidth 3) (f.imm16.extractLsb' 5 3) f.d (f.a.setWidth 5))
    else if f.len = 0 ∧ f.b = 2 then some (.vredmax f.gd f.d (f.a.setWidth 5))
    else if f.len = 2 ∧ f.b = 2 then some (.vredmaxExt f.gd (f.attr.setWidth 3) (f.imm16.extractLsb' 5 3) f.d (f.a.setWidth 5))
    else none
  else if f.maj = 0x55 then
    if f.len = 2 then some (.vdot f.gd ⟨f.attr.extractLsb' 0 3, f.attr.getLsbD 3⟩ (f.imm16.extractLsb' 5 3) (f.d.setWidth 5) (f.a.setWidth 5) (f.b.setWidth 5))
    else none
  else if f.maj = 0x56 then
    if f.len = 2 then some (.vcvt f.gd ⟨f.attr.extractLsb' 0 3, f.attr.getLsbD 3⟩ (f.imm16.extractLsb' 5 3) (f.imm16.extractLsb' 8 4) (f.imm16.extractLsb' 0 5) (f.c.setWidth 5) (f.d.setWidth 5) (f.a.setWidth 5))
    else none
  else if f.maj = 0x57 then
    if f.len = 2 ∧ f.min = 0 then some (.vqnt f.gd (f.imm16.extractLsb' 5 3) (f.imm16.extractLsb' 0 4) (f.d.setWidth 5) (f.a.setWidth 5) f.c)
    else if f.len = 2 ∧ f.min = 1 then some (.vdqnt f.gd (f.imm16.setWidth 4) (f.d.setWidth 5) (f.a.setWidth 5) f.c)
    else none
  else none

/-- The rows of majors 0x58 to 0x5F (R99). -/
def pickRow11 (f : Fields) : Option Instr :=
  if f.maj = 0x58 then
    if f.len = 2 then some (.vhad f.gd (f.imm16.getLsbD 0) (f.d.setWidth 5) (f.a.setWidth 5))
    else none
  else if f.maj = 0x59 then
    if f.len = 2 then some (.vbaddq f.gd (f.imm16.extractLsb' 5 3) (f.imm16.extractLsb' 0 4) (f.d.setWidth 5) (f.a.setWidth 5) (f.b.setWidth 5) (f.c.setWidth 5))
    else none
  else if f.maj = 0x5A then
    if f.len = 2 then some (.vsfu f.gd ⟨f.attr.extractLsb' 0 3, f.attr.getLsbD 3⟩ f.min (f.d.setWidth 5) (f.a.setWidth 5))
    else none
  else if f.maj = 0x5B then
    if f.len = 0 ∧ f.b.extractLsb' 3 3 = 0 then some (.mand f.gd (f.d.setWidth 3) (f.a.setWidth 3) (f.b.extractLsb' 0 3))
    else if f.len = 0 ∧ f.b.extractLsb' 3 3 = 1 then some (.mor f.gd (f.d.setWidth 3) (f.a.setWidth 3) (f.b.extractLsb' 0 3))
    else if f.len = 0 ∧ f.b.extractLsb' 3 3 = 2 then some (.mxor f.gd (f.d.setWidth 3) (f.a.setWidth 3) (f.b.extractLsb' 0 3))
    else if f.len = 0 ∧ f.b.extractLsb' 3 3 = 3 then some (.mnot f.gd (f.d.setWidth 3) (f.a.setWidth 3))
    else none
  else if f.maj = 0x5C then
    if f.len = 0 ∧ f.b = 0 then some (.mpop f.gd f.d (f.a.setWidth 3))
    else if f.len = 0 ∧ f.b = 1 then some (.gtom f.gd (f.d.setWidth 3) f.a)
    else if f.len = 0 ∧ f.b = 2 then some (.mtog f.gd (f.d.setWidth 3) f.a)
    else none
  else none

/-- The rows of majors 0x60 to 0x67 (R99). -/
def pickRow12 (f : Fields) : Option Instr :=
  if f.maj = 0x60 then
    if f.len = 2 ∧ f.min = 0 then some (.ld f.gd ⟨f.attr.getLsbD 5, f.attr.extractLsb' 3 2, f.attr.extractLsb' 0 3⟩ f.d ⟨f.a, f.b, f.imm32⟩)
    else if f.len = 2 ∧ f.min = 1 then some (.ldro f.gd ⟨f.attr.getLsbD 5, f.attr.extractLsb' 3 2, f.attr.extractLsb' 0 3⟩ f.d ⟨f.a, f.b, f.imm32⟩)
    else if f.len = 2 ∧ f.min = 2 then some (.ldx f.gd ⟨f.attr.getLsbD 5, f.attr.extractLsb' 3 2, f.attr.extractLsb' 0 3⟩ f.d ⟨f.a, f.b, f.imm32⟩)
    else none
  else if f.maj = 0x61 then
    if f.len = 2 ∧ f.min = 0 ∧ f.imm16.extractLsb' 0 1 = 0 then some (.ldv f.gd ⟨f.attr.getLsbD 5, f.attr.extractLsb' 3 2, f.attr.extractLsb' 0 3⟩ (f.d.setWidth 5) ⟨f.a, f.b, f.imm32⟩)
    else if f.len = 2 ∧ f.min = 0 ∧ f.imm16.extractLsb' 0 1 = 1 then some (.ldvGather f.gd ⟨f.attr.getLsbD 5, f.attr.extractLsb' 3 2, f.attr.extractLsb' 0 3⟩ (f.d.setWidth 5) (f.a.setWidth 5) f.b f.imm32)
    else none
  else if f.maj = 0x62 then
    if f.len = 2 ∧ f.min = 0 then some (.lds f.gd ⟨f.attr.getLsbD 5, f.attr.extractLsb' 3 2, f.attr.extractLsb' 0 3⟩ f.d ⟨f.a, f.b, f.imm32⟩)
    else if f.len = 2 ∧ f.min = 1 then some (.ldsv f.gd (f.d.setWidth 5) ⟨f.a, f.b, f.imm32⟩)
    else none
  else if f.maj = 0x63 then
    if f.len = 2 ∧ f.min = 0 then some (.sts f.gd ⟨f.attr.getLsbD 5, f.attr.extractLsb' 3 2, f.attr.extractLsb' 0 3⟩ f.d ⟨f.a, f.b, f.imm32⟩)
    else if f.len = 2 ∧ f.min = 1 then some (.stsv f.gd (f.d.setWidth 5) ⟨f.a, f.b, f.imm32⟩)
    else none
  else if f.maj = 0x64 then
    if f.len = 2 ∧ f.min = 0 then some (.ldd f.gd ⟨f.attr.getLsbD 5, f.attr.extractLsb' 3 2, f.attr.extractLsb' 0 3⟩ f.d ⟨f.a, f.b, f.imm32⟩)
    else if f.len = 2 ∧ f.min = 1 then some (.std f.gd ⟨f.attr.getLsbD 5, f.attr.extractLsb' 3 2, f.attr.extractLsb' 0 3⟩ f.d ⟨f.a, f.b, f.imm32⟩)
    else none
  else if f.maj = 0x65 then
    if f.len = 2 then some (.upd f.gd f.min ⟨f.attr.getLsbD 5, f.attr.extractLsb' 3 2, f.attr.extractLsb' 0 3⟩ f.d ⟨f.a, f.b, f.imm32⟩)
    else none
  else if f.maj = 0x66 then
    if f.len = 2 ∧ f.imm16.extractLsb' 0 1 = 0 then some (.updv f.gd f.min ⟨f.attr.getLsbD 5, f.attr.extractLsb' 3 2, f.attr.extractLsb' 0 3⟩ (f.d.setWidth 5) ⟨f.a, f.b, f.imm32⟩)
    else if f.len = 2 ∧ f.imm16.extractLsb' 0 1 = 1 then some (.updvScatter f.gd f.min ⟨f.attr.getLsbD 5, f.attr.extractLsb' 3 2, f.attr.extractLsb' 0 3⟩ (f.d.setWidth 5) (f.a.setWidth 5) f.b f.imm32)
    else none
  else if f.maj = 0x67 then
    if f.len = 2 then some (.updx f.gd f.min ⟨f.attr.getLsbD 5, f.attr.extractLsb' 3 2, f.attr.extractLsb' 0 3⟩ f.d ⟨f.a, f.b, f.imm32⟩)
    else none
  else none

/-- The rows of majors 0x68 to 0x6F (R99). -/
def pickRow13 (f : Fields) : Option Instr :=
  if f.maj = 0x68 then
    if f.len = 2 then some (.atom f.gd f.min ⟨f.attr.getLsbD 5, f.attr.extractLsb' 3 2, f.attr.extractLsb' 0 3⟩ f.d ⟨f.a, f.b, f.imm32⟩ f.c)
    else none
  else if f.maj = 0x69 then
    if f.len = 2 ∧ f.min = 0 then some (.cas f.gd ⟨f.attr.getLsbD 5, f.attr.extractLsb' 3 2, f.attr.extractLsb' 0 3⟩ f.d f.a f.imm32 f.b f.c)
    else none
  else if f.maj = 0x6A then
    if f.len = 2 ∧ f.min = 0 then some (.drain f.gd (f.attr.setWidth 3) f.a f.b)
    else if f.len = 2 ∧ f.min = 1 then some (.inval f.gd (f.attr.setWidth 3) f.a f.b)
    else if f.len = 2 ∧ f.min = 2 then some (.fence f.gd (f.attr.setWidth 3) (f.imm16.getLsbD 0))
    else none
  else if f.maj = 0x6C then
    if f.len = 2 ∧ f.min = 0 then some (.syncinit f.gd f.a f.imm32 f.b)
    else none
  else if f.maj = 0x6D then
    if f.len = 2 ∧ f.min = 0 then some (.syncadd f.gd f.a f.imm32 f.b)
    else none
  else if f.maj = 0x6E then
    if f.len = 2 ∧ f.min = 0 then some (.syncwait f.gd f.a f.imm32)
    else none
  else if f.maj = 0x6F then
    if f.len = 2 ∧ f.min = 0 then some (.syncget f.gd f.d f.a f.imm32)
    else none
  else none

/-- The rows of majors 0x70 to 0x77 (R99). -/
def pickRow14 (f : Fields) : Option Instr :=
  if f.maj = 0x70 then
    if f.len = 2 ∧ f.min = 0 then some (.tdset f.gd f.d f.a f.imm32)
    else if f.len = 2 ∧ f.min = 1 then some (.tdget f.gd f.a f.imm32 f.d)
    else none
  else if f.maj = 0x71 then
    if f.len = 2 ∧ f.min = 0 then some (.ringcfg f.gd (f.d.setWidth 3) f.a f.imm32)
    else if f.len = 2 ∧ f.min = 1 then some (.ringstat f.gd f.d (f.a.setWidth 3))
    else if f.len = 2 ∧ f.min = 2 then some (.ringdrop f.gd (f.d.setWidth 3) f.imm16)
    else none
  else if f.maj = 0x72 then
    if f.len = 0 ∧ f.b = 0 then some (.tilecfg f.gd f.a)
    else if f.len = 0 ∧ f.b = 1 then some (.tilerel f.gd)
    else if f.len = 0 ∧ f.b = 2 then some (.tzero f.gd (f.d.setWidth 5))
    else none
  else if f.maj = 0x73 then
    if f.len = 2 ∧ f.min = 0 then some (.tld f.gd (f.d.setWidth 5) f.a f.imm32)
    else if f.len = 2 ∧ f.min = 1 then some (.tsts f.gd f.a f.imm32 (f.d.setWidth 5))
    else none
  else if f.maj = 0x74 then
    if f.len = 2 then some (.tupd f.gd f.min ⟨f.attr.getLsbD 5, f.attr.extractLsb' 3 2, f.attr.extractLsb' 0 3⟩ ⟨f.a, f.b, f.imm32⟩ (f.d.setWidth 5))
    else none
  else if f.maj = 0x75 then
    if f.len = 0 then some (.mma f.gd (f.d.setWidth 5) (f.a.setWidth 3) (f.b.setWidth 3))
    else none
  else if f.maj = 0x76 then
    if f.len = 0 then some (.tcvt f.gd (f.d.setWidth 3) (f.a.setWidth 5))
    else none
  else none

/-- The rows of majors 0x78 to 0x7F (R99). -/
def pickRow15 (f : Fields) : Option Instr :=
  if f.maj = 0x78 then
    if f.len = 2 ∧ f.min = 0 then some (.cpy f.gd f.d f.a f.imm32)
    else none
  else if f.maj = 0x79 then
    if f.len = 2 ∧ f.min = 0 then some (.cpystat f.gd f.d f.a)
    else if f.len = 2 ∧ f.min = 1 then some (.cpyres f.gd f.a)
    else none
  else if f.maj = 0x7A then
    if f.len = 2 ∧ f.min = 0 then some (.dsmode f.gd (f.imm16.setWidth 2) f.a)
    else none
  else if f.maj = 0x7B then
    if f.len = 2 ∧ f.min = 0 then some (.bsld f.gd (f.imm16.setWidth 10) f.a f.imm32 f.b)
    else if f.len = 2 ∧ f.min = 1 then some (.bsrun f.gd f.a f.b)
    else if f.len = 2 ∧ f.min = 2 then some (.bsres f.gd)
    else if f.len = 2 ∧ f.min = 3 then some (.bsstat f.gd f.d)
    else none
  else if f.maj = 0x7C then
    if f.len = 2 ∧ f.min = 0 then some (.barcfg f.gd (f.d.setWidth 2) f.a)
    else if f.len = 2 ∧ f.min = 1 then some (.bararr f.gd (f.d.setWidth 2))
    else if f.len = 2 ∧ f.min = 2 then some (.barwait f.gd (f.d.setWidth 2))
    else none
  else if f.maj = 0x7D then
    if f.len = 2 ∧ f.min = 0 then some (.send f.gd (f.imm16.extractLsb' 8 8) (f.imm16.extractLsb' 0 4) f.a f.imm32)
    else if f.len = 2 ∧ f.min = 1 then some (.inpop f.gd f.d)
    else if f.len = 2 ∧ f.min = 2 then some (.gqtake f.gd f.d)
    else if f.len = 2 ∧ f.min = 3 then some (.gqput f.gd f.a)
    else none
  else if f.maj = 0x7E then
    if f.len = 2 ∧ f.min = 0 then some (.trap f.gd f.imm16)
    else if f.len = 2 ∧ f.min = 1 then some (.tret f.gd)
    else if f.len = 2 ∧ f.min = 2 then some (.exit f.gd)
    else if f.len = 2 ∧ f.min = 3 then some (.brk f.gd f.imm16)
    else if f.len = 2 ∧ f.min = 4 then some (.hubcall f.gd f.imm16 f.d f.a)
    else if f.len = 2 ∧ f.min = 5 then some (.chkpt f.gd f.a)
    else none
  else none

/-- The row that the major, the length and the selectors name, with its operands read from the fields (R99). -/
def pickRow (f : Fields) : Option Instr :=
  if f.maj.extractLsb' 3 4 = 0 then pickRow0 f
  else if f.maj.extractLsb' 3 4 = 1 then pickRow1 f
  else if f.maj.extractLsb' 3 4 = 2 then pickRow2 f
  else if f.maj.extractLsb' 3 4 = 3 then pickRow3 f
  else if f.maj.extractLsb' 3 4 = 4 then pickRow4 f
  else if f.maj.extractLsb' 3 4 = 5 then pickRow5 f
  else if f.maj.extractLsb' 3 4 = 6 then pickRow6 f
  else if f.maj.extractLsb' 3 4 = 7 then pickRow7 f
  else if f.maj.extractLsb' 3 4 = 8 then pickRow8 f
  else if f.maj.extractLsb' 3 4 = 9 then pickRow9 f
  else if f.maj.extractLsb' 3 4 = 10 then pickRow10 f
  else if f.maj.extractLsb' 3 4 = 11 then pickRow11 f
  else if f.maj.extractLsb' 3 4 = 12 then pickRow12 f
  else if f.maj.extractLsb' 3 4 = 13 then pickRow13 f
  else if f.maj.extractLsb' 3 4 = 14 then pickRow14 f
  else if f.maj.extractLsb' 3 4 = 15 then pickRow15 f
  else none

/-- Why a word is not an instruction. Each of these traps with illegal instruction, 0x01 (R95 step 2, R96). -/
inductive DecodeErr where
  /-- No row has this major with this length and these selectors. -/
  | unassigned
  /-- A bit is set in a field the instruction does not use, or above a register number (R90), or `B` beside a literal. -/
  | unusedBits
  /-- A value that the instruction's fields may not hold: a type, a scope, an operator, a rounding mode (R96). -/
  | illFormed
  deriving DecidableEq, Repr

/-- The instruction that some fields stand for. -/
def decodeFields (f : Fields) : Except DecodeErr Instr :=
  match pickRow f with
  | none => .error .unassigned
  | some i =>
    if fieldsOf i = some f then
      if i.wf then .ok i else .error .illFormed
    else .error .unusedBits

/-- The decoder: the instruction that starts with these bits, first word lowest. Total; every refusal has a name. -/
def decode (x : BitVec 160) : Except DecodeErr Instr := decodeFields (Fields.ofBits x)

/-- Little-endian value of bytes, the first lowest (R4). -/
def leNat : List Byte → Nat
  | [] => 0
  | b :: bs => b.toNat + 256 * leNat bs

/-- The bytes of a value, little-endian. -/
def leBytes : Nat → Nat → List Byte
  | 0, _ => []
  | n + 1, v => BitVec.ofNat 8 v :: leBytes n (v / 256)

/-- The decoder on bytes as they lie in memory; bytes that are missing read as 0. -/
def decodeBytes (bs : List Byte) : Except DecodeErr Instr := decode (BitVec.ofNat 160 (leNat (bs.take 20)))

/-- The encoder: the 32-bit words of a fetched instruction, the first word first; none for the machine's other steps. -/
def encode (i : Instr) : List (BitVec 32) :=
  match fieldsOf i with
  | none => []
  | some f => (List.range (lenBytes f.len / 4)).map fun k => f.bits.extractLsb' (32 * k) 32

/-- The encoding as one string of bits, zero above the instruction. -/
def encodeBits (i : Instr) : BitVec 160 :=
  match fieldsOf i with
  | none => 0
  | some f => f.bits

/-- Words as bits, the first lowest. -/
def bitsOfWords (ws : List (BitVec 32)) : BitVec 160 :=
  BitVec.ofNat 160 (ws.foldr (fun w n => w.toNat + 4294967296 * n) 0)

/-- The bytes an instruction takes; 0 for the machine's other steps (R83). -/
def instrLen (i : Instr) : Nat :=
  match fieldsOf i with
  | none => 0
  | some f => lenBytes f.len

/-- A microinstruction's fields above and below the operation code (R260). -/
def Micro.bits (opc : BitVec 5) (u : Micro) : BitVec 64 :=
  opc ++ u.wm1 ++ u.drow ++ u.arow ++ u.brow ++ u.crow ++ BitVec.ofBool u.od ++ BitVec.ofBool u.oa ++ BitVec.ofBool u.ob ++ u.imm

/-- The fields of a 64-bit microinstruction word (R260). -/
def Micro.ofBits (w : Word) : Micro :=
  { wm1 := w.extractLsb' 53 6, drow := w.extractLsb' 45 8, arow := w.extractLsb' 37 8, brow := w.extractLsb' 29 8,
    crow := w.extractLsb' 21 8, od := w.getLsbD 20, oa := w.getLsbD 19, ob := w.getLsbD 18, imm := w.extractLsb' 0 18 }


/-- The operation of an operation code (R260); 16 to 31 are none. -/
def MicroOp.ofCode (opc : BitVec 5) : Option MicroOp :=
  match opc.toNat with
  | 0 => some .mzero
  | 1 => some .mcopy
  | 2 => some .microMnot
  | 3 => some .microMand
  | 4 => some .microMor
  | 5 => some .microMxor
  | 6 => some .madd
  | 7 => some .msub
  | 8 => some .mcmp
  | 9 => some .msel
  | 10 => some .mshl
  | 11 => some .mshr
  | 12 => some .mfadd
  | 13 => some .mfmul
  | 14 => some .mloop
  | 15 => some .mend
  | _ => none

/-- Decodes a word of the microprogram store; what is refused stops the run with `SCAUSE` 1 (R260). -/
def decodeMicro (w : Word) : Except DecodeErr (MicroOp × Micro) :=
  match MicroOp.ofCode (w.extractLsb' 59 5) with
  | none => .error .unassigned
  | some op => if (Micro.ofBits w).wfFor op then .ok (op, Micro.ofBits w) else .error .illFormed

/-- The word of a microinstruction (R260); 0 for every other step. -/
def encodeMicro : Instr → Word
  | .mzero u => u.bits 0
  | .mcopy u => u.bits 1
  | .microMnot u => u.bits 2
  | .microMand u => u.bits 3
  | .microMor u => u.bits 4
  | .microMxor u => u.bits 5
  | .madd u => u.bits 6
  | .msub u => u.bits 7
  | .mcmp u => u.bits 8
  | .msel u => u.bits 9
  | .mshl u => u.bits 10
  | .mshr u => u.bits 11
  | .mfadd u => u.bits 12
  | .mfmul u => u.bits 13
  | .mloop u => u.bits 14
  | .mend u => u.bits 15
  | _ => 0

/-- The host's question: the instruction read from `nbits` bits numbered from the first word up. -/
def decodeTableWord (nbits w : Nat) : Option Instr :=
  match decode (BitVec.ofNat 160 (w % 2 ^ nbits)) with
  | .ok i => some i
  | .error _ => none

end Sys2Proof
end

