-- ==== Sys2Proof/Machine/Sequencer.lean ====
section
/-! DEFINITION. The bit-serial sequencer (spec/12 R256 to R262): its microinstructions on the lanes of compute-mode groups, the end of a
run and its message, and BSLD, BSRUN, BSRES and BSSTAT. -/

namespace Sys2Proof.Machine

/-- The BSSTAT value (R256). -/
def Sequencer.stat (q : Sequencer) : Word :=
  let st : BitVec 2 := match q.st with
    | .idle => 0
    | .running => 1
    | .stopped => 2
  let owner : BitVec 4 := if q.st = .idle then 0 else q.owner
  st ++ owner ++ (0 : BitVec 2) ++ q.scause ++ (0 : BitVec 2) ++ BitVec.ofBool q.lact ++ q.lc ++ q.ofs ++ q.lidx ++ (0 : BitVec 13) ++ q.pc

def State.setSeq (s : State) (c : CoreId) (q : Sequencer) : State := s.setSlab c { s.slab c with seq := q }

/-- The bank groups of a context's holding that are in compute mode. -/
def State.computeGroups (s : State) (c : CoreId) (n : BitVec 6) : List Nat :=
  let y := s.ctx n
  ((List.range y.count).map fun g => y.first + g).filter fun g => decide ((s.slab c).mode g = some 2) && !(s.slab c).fenced.contains g

-- the end of a run (R259)

/-- The two-word message of a run that has ended, offered to the owner's inbox. -/
def State.offer (s : State) (c : CoreId) (q : Sequencer) (owner : BitVec 4) : State :=
  let m : SeqMsg := { slot := owner, gen := (s.slot c owner).gen, ctx := q.ctx, w0 := ⟨q.stat, false⟩, w1 := ⟨q.param, q.ppois⟩ }
  s.setSeq c { q with msgs := q.msgs ++ [m] }

/-- A run stops precisely (R259): for causes 1 to 4 its owner, if it runs, traps at its next turn. -/
def State.seqStop (s : State) (c : CoreId) (cause : BitVec 4) : State :=
  let q := { (s.slab c).seq with st := .stopped, scause := cause }
  let s := s.offer c q q.owner
  let x := s.slot c q.owner
  if cause.toNat ≤ 4 ∧ x.st = .running then
    s.setSlot c q.owner { x with epend := x.epend ++ [(causeBitSerial, q.pc.setWidth 64)] }
  else s

/-- The cycles that a number of microcycles takes (R161, R166). -/
def State.microTime (s : State) (c : CoreId) (n : Nat) : Nat := if (s.die c.die).therm then 4 * n else 2 * n

/-- A microinstruction has begun, and the next follows it in the store; behind index 1,023 there is none (R259, R260). -/
def State.seqNext (s : State) (c : CoreId) (cost : Nat) : State :=
  let q := (s.slab c).seq
  let q := { q with due := s.instant c + s.microTime c cost }
  s.setSeq c (if q.pc = 1023 then { q with last := true } else { q with pc := q.pc + 1 })

/-- The units that a microinstruction writes are written: those of groups that are still in compute mode (R260). -/
def Slab.commitMicro (y : Slab) : Slab :=
  let units := y.seq.wr.foldl (fun t e => if Sparse.get 0 y.modes (unitGroup e.1) = 2 then putUnit t e.1 e.2 else t) y.units
  { y with units := units, seq := { y.seq with wr := [], src := [], last := false } }

-- fields and lanes (R256, R260, R262)

/-- The rows of a block of 64 lanes of a group: the units from a row up. -/
def blockRows (t : Sparse Unit8) (g lb row w : Nat) : List Unit8 := (List.range w).map fun i => Sparse.get {} t (laneUnit g lb (row + i))
/-- A lane's value of some rows, bit i in row i. -/
def laneValue (rows : List Unit8) (lane : Nat) : Nat := rows.foldr (fun u a => (if u.val.getLsbD lane then 1 else 0) + 2 * a) 0

/-- Rows written from a row up with the values of 64 lanes. -/
def putRows (t : Sparse Unit8) (g lb row w : Nat) (vs : List Nat) (po : Bool) : Sparse Unit8 :=
  (List.range w).foldl (fun t i =>
    putUnit t (laneUnit g lb (row + i)) { val := BitVec.ofNat 64 (packBits 1 (vs.map fun v => v / 2 ^ i % 2)), pois := po }) t

/-- The source fields of an operation: start row and width. -/
structure Fields where
  d   : Nat × Nat
  src : List (Nat × Nat)
  deriving DecidableEq, Repr

/-- An effective start row (R260). -/
def effRow (row : Byte) (o : Bool) (ofs : Byte) : Nat := row.toNat + if o then ofs.toNat else 0

/-- The fields that an operation names, sources in the order A, B, C. -/
def microFields (u : Micro) (op : MicroOp) (ofs : Byte) : Fields :=
  let w := u.wm1.toNat + 1
  let d := (effRow u.drow u.od ofs, w)
  let a := (effRow u.arow u.oa ofs, w)
  let b := (effRow u.brow u.ob ofs, w)
  match op with
  | .mzero => ⟨d, []⟩
  | .mcopy => ⟨d, [a]⟩
  | .microMnot => ⟨d, [a]⟩
  | .mshl => ⟨d, [a]⟩
  | .mshr => ⟨d, [a]⟩
  | .mcmp => ⟨(d.1, 1), [a, b]⟩
  | .msel => ⟨d, [a, b, (u.crow.toNat, 1)]⟩
  | .mloop => ⟨(0, 0), []⟩
  | .mend => ⟨(0, 0), []⟩
  | _ => ⟨d, [a, b]⟩

/-- A field ends beyond row 255 (R260). -/
def Fields.out (f : Fields) : Bool := (f.d :: f.src).any fun x => decide (256 < x.1 + x.2)

/-- The type of MFADD and MFMUL (R260). -/
def microFmt (u : Micro) : FFmt :=
  match u.imm.toNat with
  | 0 => .bf16
  | 1 => .fp16
  | _ => .fp32

/-- The conditions of MCMP, coded as CMP's (R101). -/
def microCond (cc : Nat) (x y : Int) : Bool :=
  match cc with
  | 0 => decide (x = y)
  | 1 => decide (x ≠ y)
  | 2 => decide (x < y)
  | 3 => decide (x ≤ y)
  | 4 => decide (y < x)
  | _ => decide (y ≤ x)

/-- The effect of an operation in one lane, from the lane's source values (R260). -/
def microLane (op : MicroOp) (u : Micro) (src : List Nat) : Nat :=
  let w := u.wm1.toNat + 1
  let a := src.headD 0
  let b := (src.drop 1).headD 0
  let c := (src.drop 2).headD 0
  let imm := u.imm.toNat
  let n := imm % 64
  match op with
  | .mzero => 0
  | .mcopy => a
  | .microMnot => 2 ^ w - 1 - a
  | .microMand => a &&& b
  | .microMor => a ||| b
  | .microMxor => a ^^^ b
  | .madd => (a + b) % 2 ^ w
  | .msub => (a + 2 ^ w - b) % 2 ^ w
  | .mcmp => if microCond (imm % 8) (intOf (u.imm.getLsbD 3) w a) (intOf (u.imm.getLsbD 3) w b) then 1 else 0
  | .msel => if c = 1 then a else b
  | .mshl => a * 2 ^ n % 2 ^ w
  | .mshr => if u.imm.getLsbD 6 then wrap w (intOf true w a / 2 ^ n) else a / 2 ^ n
  | .mfadd => (roundF (microFmt u) .rne false false (xadd false (decodeF (microFmt u) false a) (decodeF (microFmt u) false b)).1).1
  | .mfmul => (roundF (microFmt u) .rne false false (xmul (decodeF (microFmt u) false a) (decodeF (microFmt u) false b)).1).1
  | .mloop => 0
  | .mend => 0

/-- The microcycles of an operation (R260). -/
def microCost (op : MicroOp) (u : Micro) : Nat :=
  let w := u.wm1.toNat + 1
  match op with
  | .madd => w + 1
  | .msub => w + 1
  | .mcmp => w + 1
  | .mfadd => (match u.imm.toNat with | 0 => 112 | 1 => 144 | _ => 256)
  | .mfmul => (match u.imm.toNat with | 0 => 96 | 1 => 160 | _ => 640)
  | .mloop => 1
  | .mend => 1
  | _ => w

/-- An operation on one block of 64 lanes: every source row is read before a destination row is written; poison by units (R260, R262). -/
def microBlock (op : MicroOp) (u : Micro) (f : Fields) (g lb : Nat) (t : Sparse Unit8) : Sparse Unit8 :=
  let src := f.src.map fun x => blockRows t g lb x.1 x.2
  let po := src.any fun rows => rows.any fun y => y.pois
  let vs := (List.range 64).map fun lane => microLane op u (src.map fun rows => laneValue rows lane)
  putRows t g lb f.d.1 f.d.2 vs po

/-- The units of some groups that an operation writes, with what it writes there. -/
def microWrites (f : Fields) (grps : List Nat) (t : Sparse Unit8) : Sparse Unit8 :=
  grps.foldl (fun w g => (List.range 32).foldl (fun w lb => (List.range f.d.2).foldl (fun w i =>
    let at_ := laneUnit g lb (f.d.1 + i)
    Sparse.set w at_ (Sparse.get {} t at_)) w) w) []

/-- An operation on every lane of some groups. -/
def microLanes (op : MicroOp) (u : Micro) (f : Fields) (grps : List Nat) (t : Sparse Unit8) : Sparse Unit8 :=
  grps.foldl (fun t g => (List.range 32).foldl (fun t lb => microBlock op u f g lb t) t) t

-- a microinstruction (R259 to R261)

/-- The loop's step at index `PC` (R261): the sequencer after it; none where it stops with `SCAUSE` 3. -/
def Sequencer.loop (q : Sequencer) (u : Micro) : Option (Sequencer × Bool) :=
  if q.lact ∧ q.lidx ≠ q.pc then none
  else
    let lc := if q.lact then q.lc else u.crow
    if lc ≠ 0 then
      some ({ q with lact := true, lidx := q.pc, lc := lc - 1, ofs := q.ofs + u.arow, pc := u.imm.setWidth 10 }, true)
    else some ({ q with lact := false, lidx := q.pc, lc := 0, ofs := q.ofs - u.arow * u.crow }, false)

/-- The slab's sequencer goes on: it is running, and the last microinstruction has had its microcycles. -/
def State.seqReady (s : State) (c : CoreId) : Bool :=
  let q := (s.slab c).seq
  decide (q.st = .running) && decide (q.due ≤ s.instant c) && !(s.die c.die).held

/-- A microinstruction at `PC` of the sequencer beneath the current core. It reads its source rows as it begins; its destination rows hold what it writes
once its microcycles are over, and until then either that or what they held, for a copy (R260, R262; log 88: DESIGN CHOICE). -/
def State.micro (s : State) (op : MicroOp) (u : Micro) : Option State :=
  let c := s.cc
  let last := (s.slab c).seq.last
  if !s.seqReady c then none
  else
  let s := s.setSlab c (s.slab c).commitMicro
  let q := (s.slab c).seq
  if last then some (s.seqStop c 4)
  else if !u.wfFor op then some (s.seqStop c 1)
  else
    match op with
    | .mend =>
      let q := { q with st := .idle, due := s.instant c + s.microTime c 1 }
      some (s.offer c q q.owner)
    | .mloop =>
      if q.pc.toNat < u.imm.toNat then some (s.seqStop c 1)
      else
        match q.loop u with
        | none => some (s.seqStop c 3)
        | some (q', true) => some (s.setSeq c { q' with due := s.instant c + s.microTime c 1 })
        | some (q', false) => some ((s.setSeq c q').seqNext c 1)
    | _ =>
      let f := microFields u op q.ofs
      if f.out then some (s.seqStop c 2)
      else
        let y := s.slab c
        let grps := s.computeGroups c q.ctx
        let wr := microWrites f grps (microLanes op u f grps y.units)
        some ((s.setSeq c { q with wr := wr, src := f.src }).seqNext c (microCost op u))

/-- R260. -/
def execMzero (u : Micro) (s : State) : Out := orSame s (s.micro .mzero u)
/-- R260. -/
def execMcopy (u : Micro) (s : State) : Out := orSame s (s.micro .mcopy u)
/-- R260. -/
def execMicroMnot (u : Micro) (s : State) : Out := orSame s (s.micro .microMnot u)
/-- R260. -/
def execMicroMand (u : Micro) (s : State) : Out := orSame s (s.micro .microMand u)
/-- R260. -/
def execMicroMor (u : Micro) (s : State) : Out := orSame s (s.micro .microMor u)
/-- R260. -/
def execMicroMxor (u : Micro) (s : State) : Out := orSame s (s.micro .microMxor u)
/-- R260. -/
def execMadd (u : Micro) (s : State) : Out := orSame s (s.micro .madd u)
/-- R260. -/
def execMsub (u : Micro) (s : State) : Out := orSame s (s.micro .msub u)
/-- R260. -/
def execMcmp (u : Micro) (s : State) : Out := orSame s (s.micro .mcmp u)
/-- R260. -/
def execMsel (u : Micro) (s : State) : Out := orSame s (s.micro .msel u)
/-- R260. -/
def execMshl (u : Micro) (s : State) : Out := orSame s (s.micro .mshl u)
/-- R260. -/
def execMshr (u : Micro) (s : State) : Out := orSame s (s.micro .mshr u)
/-- R260. -/
def execMfadd (u : Micro) (s : State) : Out := orSame s (s.micro .mfadd u)
/-- R260. -/
def execMfmul (u : Micro) (s : State) : Out := orSame s (s.micro .mfmul u)
/-- R261. -/
def execMloop (u : Micro) (s : State) : Out := orSame s (s.micro .mloop u)
/-- R259. -/
def execMend (u : Micro) (s : State) : Out := orSame s (s.micro .mend u)

/-- The sequencer of a slab ends the microinstruction that has run; then it stops behind index 1,023, or reads the entry at `PC` and begins it; one it does
not know stops the run (R259, R260). An entry with an uncorrectable error has no stated content: a free value (log 5: DESIGN CHOICE). -/
def State.seqStep (s : State) (c : CoreId) : State :=
  if !s.seqReady c then s
  else if (s.slab c).seq.last then (s.setSlab c (s.slab c).commitMicro).seqStop c 4
  else
    let s := s.setSlab c (s.slab c).commitMicro
    let q := (s.slab c).seq
    let bad := q.storePois.contains q.pc.toNat
    let w := if bad then Config.freeWord s.fresh else Sparse.get 0 q.store q.pc.toNat
    let t := { s with cur := (c, s.cur.2), fresh := s.fresh + if bad then 1 else 0 }
    match decodeMicro w with
    | .error _ => t.seqStop c 1
    | .ok (op, u) => (t.micro op u).getD t

-- the run's message (R259, R268)

/-- The words that an inbox holds unread. -/
def Slot.inboxWords (x : Slot) : Nat := x.inbox.foldl (fun n m => n + m.words.length) 0
/-- An inbox has room for some words (R11, R268). -/
def Slot.inboxRoom (x : Slot) (n : Nat) : Bool := decide (x.inboxWords + n ≤ 16)

/-- The core that a logical number names on a die (R19): an enabled one, one that is not fenced before one that is. -/
def State.coreOfLnum (s : State) (d : BitVec 3) (n : BitVec 10) : Option CoreId :=
  let at_ (p : Nat) : CoreId := CoreId.ofKey (1024 * d.toNat + p)
  let hit (p : Nat) : Bool := s.enabled d p && decide ((s.core (at_ p)).lnum = n)
  match (List.range 1024).find? fun p => hit p && !(s.core (at_ p)).fenced with
  | some p => some (at_ p)
  | none => ((List.range 1024).find? hit).map at_
/-- The core at a position number of a die (R372). -/
def State.bootCoreAt (s : State) (d : BitVec 3) (n : Nat) : CoreId := ⟨d, BitVec.ofNat 5 (n % s.meshW), BitVec.ofNat 5 (n / s.meshW)⟩
/-- The slot for which a message is meant (R268); of boot state slot 0 of a position (R372). -/
def State.msgTo (s : State) (m : Msg) : Option (CoreId × BitVec 4) :=
  if m.boot then some (s.bootCoreAt m.ddie m.dcore.toNat, 0) else (s.coreOfLnum m.ddie m.dcore).map fun c => (c, m.dslot)

/-- A message that has waited since `a` came before one that has since `b`, or that comes now. -/
def waitedLonger (a b : Option Nat) : Bool :=
  match a, b with
  | none, _ => false
  | some _, none => true
  | some x, some y => decide (x < y)
/-- A message to a slot, of a slot or of the core's sequencer, has waited there longer (R294). -/
def State.olderMsg (s : State) (c : CoreId) (k : BitVec 4) (arrived : Option Nat) : Bool :=
  s.msgs.any (fun m => waitedLonger m.arrived arrived && decide (s.msgTo m = some (c, k)))
    || (s.slab c).seq.msgs.any fun m => waitedLonger m.arrived arrived && decide (m.slot = k)

/-- A message is dropped at a slot (R268): it is neither running nor suspended, has another GEN, or runs another context. -/
def State.dropsMsg (s : State) (c : CoreId) (k : BitVec 4) (gen : BitVec 16) (n : BitVec 6) : Bool :=
  let x := s.slot c k
  decide (x.st ≠ .running ∧ x.st ≠ .suspended) || decide (x.gen ≠ gen)
    || (match s.blockOf c x with
        | none => true
        | some b => decide (b.ctx ≠ n))

/-- A dropped message is counted and logged (R268, R350). -/
def State.deadLetter (s : State) (c : CoreId) (n : Option (BitVec 6)) : State :=
  let x := s.core c
  let v := if x.deadletter = BitVec.allOnes 64 then x.deadletter else x.deadletter + 1
  (s.setCore c { x with deadletter := v }).logEvent c.die 0x0C n c.pos 0 1 0

/-- R259: the owner's inbox accepts the oldest message of its sequencer, once it has room for both words and no message that has waited there longer;
else it waits there from now on (R294). -/
def trySequencerMessageAccept (c : CoreId) (s : State) : Option State :=
  let q := (s.slab c).seq
  match q.msgs with
  | [] => none
  | m :: ms =>
    let t := s.setSeq c { q with msgs := ms }
    if !s.coreRuns c then none
    else if s.dropsMsg c m.slot m.gen m.ctx || (s.slot c m.slot).stopped then some (t.deadLetter c (some m.ctx))
    else
      let x := s.slot c m.slot
      if !x.inboxRoom 2 || s.olderMsg c m.slot m.arrived then
        if m.arrived.isSome then none else some (s.tick1.setSeq c { q with msgs := { m with arrived := some s.seqno } :: ms })
      else
        let im : InMsg :=
          { kind := 1, sdie := c.die, score := s.lnumOf c, sslot := 0, tag := 0xF0, nw := 2, words := [m.w0, m.w1] }
        some (t.setSlot c m.slot { x with inbox := x.inbox ++ [im] })
def execSequencerMessageAccept (c : CoreId) (s : State) : Out := orSame s (trySequencerMessageAccept c s)

-- the instructions

/-- R257: translated at issue, word by word; then it holds its slot. -/
def execBsld (gd : Guard) (idx : BitVec 10) (a : GIx) (disp : BitVec 32) (b : GIx) (s : State) : Out :=
  s.issue { gd := gd, len := 12, reads := [.g a, .g b], writes := [], traps := [.g a, .g b] } false fun env =>
    let n := (s.g b).toNat
    let ea := s.baseDisp a disp
    if 1024 < idx.toNat + n then .trap s causeOperand 0
    else if n = 0 then .done s
    else if ea.toNat % 8 ≠ 0 then .trap s causeMisaligned ea
    else
      match s.trList needR ((List.range n).map fun i => ea + BitVec.ofNat 64 (8 * i)) with
      | .miss t => .lostWith t
      | .fault t cause va => .fault t cause va needR.kind
      | .ok pas =>
        .holds (s.tick1.hold (.image (.bsld idx) (s.imageMask env) (s.clock s.cc) (pas.map fun pa => { pa := pa }) s.seqno))

/-- The sequencer is not free for a BSRUN of the current slot (R258). -/
def State.bsrunWaits (s : State) : Bool :=
  let q := (s.slab s.cc).seq
  decide (q.st = .running ∨ (q.st = .stopped ∧ q.owner ≠ s.cur.2))

/-- R258: its wait stands before every effect, so that the checks are made once it is over (R8, R380). No loop is active, so LIDX and LC start at 0 (R256, R278). Where no group is in compute mode, the spec gives TRAPADDR no value: a free one (log 5: DESIGN CHOICE). (log 64: DEDUCED) -/
def execBsrun (gd : Guard) (a : GIx) (b : GIx) (s : State) : Out :=
  s.issue { gd := gd, len := 12, reads := [.g a, .g b], writes := [], traps := [.g a] } (s.unquiet gd [.g a, .g b] || s.bsrunWaits) fun _ =>
    let c := s.cc
    let q := (s.slab c).seq
    if 1024 ≤ (s.g a).toNat then .trap s causeOperand 0
    else if s.computeGroups c s.block.ctx = [] then .trap { s with fresh := s.fresh + 1 } causeDeep (Config.freeWord s.fresh)
    else .done (s.setSeq c { q with
      st := .running, owner := s.cur.2, pc := (s.g a).setWidth 10, ofs := (s.g b).setWidth 8, lact := false, lidx := 0, lc := 0, param := s.g b,
      ppois := (s.cs.mark (.g b)).pois, scause := 0, ctx := s.block.ctx, due := s.clock c })

/-- R259. -/
def execBsres (gd : Guard) (s : State) : Out :=
  s.issue { gd := gd, len := 12, reads := [], writes := [] } (s.unquiet gd []) fun _ =>
    let q := (s.slab s.cc).seq
    if q.st ≠ .stopped ∨ q.owner ≠ s.cur.2 ∨ q.scause = 4 then .trap s causeOperand 0
    else .done (s.setSeq s.cc { q with st := .running, scause := 0, due := s.clock s.cc })

/-- R256. -/
def execBsstat (gd : Guard) (d : GIx) (s : State) : Out :=
  s.issue { gd := gd, len := 12, reads := [], writes := [.g d] } (s.unquiet gd []) fun env =>
    .done (s.putG d (s.slab s.cc).seq.stat env.gt false)

end Sys2Proof.Machine
end

