-- ==== Sys2Proof/Machine/Fence.lean ====
section
/-! DEFINITION. DRAIN, INVAL, FENCE and the steps that finish a release (spec/09 R199, R202 to R205; spec/10 R214, R221). -/

namespace Sys2Proof.Machine

-- ranges (R202)

/-- Pages of a range whose translation is known: first page, how many, and the first physical page, none where they are not present. -/
abbrev RangePages := List (Nat × Nat × Option Nat)

/-- How far the translation of a range has come: a page waits for its walk, or the physical pieces are known. -/
inductive Scan where
  | miss (s : State) (known : RangePages)
  | ok (s : State) (pieces : List (Nat × Nat))

/-- What is known of a page: from before, from the micro-TLB, or from a walk that ended in a fault, which leaves the page out (R202, R306). None
where a walk is to be waited for. -/
def State.rangePage (s : State) (known : RangePages) (vpn : Nat) : Option (State × Nat × Nat × Option Nat) :=
  let c := s.cc
  let n := s.block.ctx
  match known.find? fun e => decide (e.1 ≤ vpn) && decide (vpn < e.1 + e.2.1) with
  | some e => some (s, e)
  | none =>
    match (s.core c).utlb.find? fun e => e.covers n vpn with
    | some e => some (s, e.vpn, e.pages, if s.reachable (4096 * e.ppn) then some e.ppn else none)
    | none => (s.walkFault c s.cur.2.toNat n vpn).map fun _ => (s.dropMisses c.die (s.isMiss c s.cur.2.toNat n vpn), vpn, 1, none)

/-- The virtual bytes from `lo` up to `hi` translated page by page; a page that is not present is left out, no permission is needed (R202).
Pages that earlier turns have translated are kept (log 18: DEDUCED). -/
def State.scanRange (s : State) (known : RangePages) : Nat → Nat → Nat → Scan
  | 0, _, _ => .ok s []
  | f + 1, lo, hi =>
    if hi ≤ lo then .ok s []
    else
      match s.rangePage known (lo / 4096) with
      | none => .miss (s.addMiss s.cc s.cur.2.toNat s.block.ctx (lo / 4096)) known
      | some (t, v, n, p) =>
        let top := min hi (4096 * (v + n))
        match t.scanRange ((v, n, p) :: known) f top hi with
        | .miss u k => .miss u k
        | .ok u ps => .ok u (match p with
          | some ppn => (4096 * (ppn + (lo / 4096 - v)) + lo % 4096, top - lo) :: ps
          | none => ps)

/-- The range of a DRAIN or INVAL, once its pages are translated (R191, R202): every key where both operands are g0. -/
def State.withRange (s : State) (a b : GIx) (k : State → KeyRange → Res) : Res :=
  let lo := (s.g a).toNat
  let n := (s.g b).toNat
  if b = 0 then k s none
  else if n = 0 then k s (some [])
  else if s.block.boot then k s (some [(lo, n)])
  else
    match s.scanRange (if s.cs.rangedAt = s.cs.pc then s.cs.ranged else []) (n / 4096 + 2) lo (lo + n) with
    | .miss t known => .lostWith (t.setCs { t.cs with ranged := known, rangedAt := t.cs.pc })
    | .ok t ps => k (t.setCs { t.cs with ranged := [] }) (some ps)

/-- The range ends beyond 2^48 (R202): also one of length 0 whose start lies there, for which the rule does not say whether the trap or 'selects nothing'
applies (log 94: DESIGN CHOICE). -/
def State.rangeBad (s : State) (a b : GIx) : Bool := decide (b ≠ 0) && decide (2 ^ 48 < (s.g a).toNat + (s.g b).toNat)

-- releases (R199, R203, R205)

/-- Step 2 of FENCE: at `device` and `system` scope every snapshot of the core goes (R158, R205). -/
def State.acquire (s : State) (c : CoreId) (scope : BitVec 3) : State := if 3 ≤ scope.toNat then s.dropL1 c else s

/-- A record that the slots' releases moved, or their engine commands wrote, is short of its base, or one that they inserted has left its die
and is (R205 step 3, R219). -/
def State.movedWaits (s : State) (names : List Nat) : Bool :=
  let hit (r : Rec) : Bool := r.movers.any fun n => names.contains n
  s.cores.any (fun e => e.2.cog0.recs.any hit) || s.clusters.any (fun e => e.2.cog1.recs.any hit)
    || s.dies.toList.any (fun d => d.cog2.recs.any hit) || s.unaccepted names || s.unappliedOf names || s.engineWaits names

/-- A command of the slot is not over, so that global writes of it may still come: also one that is faulted, which CPYRES of any slot of the block or the
host may let go on (R205, R254, R312; log 36: DEDUCED). -/
def State.cmdWaits (s : State) (c : CoreId) (k : BitVec 4) : Bool :=
  (s.core c).cmds.any fun e => decide (e.2.slot = k) && decide ((s.slot c k).blk = some e.2.blk)

/-- Step 3 of FENCE with `ENG` = 1 has what it waits for. -/
def State.fenceApplied (s : State) (c : CoreId) (k : BitVec 4) : Bool := !s.movedWaits (s.names c k) && !s.cmdWaits c k

/-- A DRAIN or a FENCE of a slot past step 1 of R199's three: DRAIN ends; FENCE takes its next steps. -/
def State.afterRelease (s : State) (c : CoreId) (k : BitVec 4) (scope : BitVec 3) (fence : Option Bool) : State :=
  match fence with
  | none => s.endBusy c k
  | some eng =>
    let t := s.acquire c scope
    if eng then
      if t.fenceApplied c k then (t.dropL1 c).endBusy c k else t.setSlot c k { t.slot c k with busy := some .fenceApply }
    else t.endBusy c k

/-- What a DRAIN or a FENCE released has arrived, and for a DRAIN has raised its flags (R45, R214; log 87: DEDUCED). -/
def State.arrived (s : State) (scope : BitVec 3) (rg : KeyRange) (fence : Option Bool) (names : List Nat) : Bool :=
  s.released scope names && (fence.isSome || !s.flagsDue scope rg names)

/-- A DRAIN or FENCE issues: its release completes in the issuing cycle, or it holds its slot. -/
def State.issueRelease (s : State) (scope : BitVec 3) (rg : KeyRange) (fence : Option Bool) : Res :=
  if s.releaseNow scope rg && s.arrived scope rg fence (s.names s.cc s.cur.2) then
    match fence with
    | none => .done s
    | some eng =>
      let t := s.acquire s.cc scope
      if eng then if t.fenceApplied t.cc t.cur.2 then .done (t.dropL1 t.cc) else .holds (t.hold .fenceApply)
      else .done t
  else .holds (s.tick1.hold (.drain scope rg fence .todo s.seqno))

/-- R203. -/
def execDrain (gd : Guard) (scope : BitVec 3) (a : GIx) (b : GIx) (s : State) : Out :=
  s.issue { gd := gd, len := 12, reads := [.g a, .g b], writes := [], traps := [.g a, .g b] } false fun _ =>
    if s.rangeBad a b then .trap s causeOperand 0 else s.withRange a b fun t rg => t.issueRelease scope rg none

/-- R205. -/
def execFence (gd : Guard) (scope : BitVec 3) (eng : Bool) (s : State) : Out :=
  s.issue { gd := gd, len := 12, reads := [], writes := [] } false fun _ => s.issueRelease scope none (some eng)

/-- A core's snapshots without those of the lines of a range. -/
def State.dropRange (s : State) (c : CoreId) (rg : KeyRange) : State :=
  let hit (line : Nat) : Bool := match rg with
    | none => true
    | some ps => ps.any fun p => decide (p.1 < 64 * line + 64) && decide (64 * line < p.1 + p.2)
  s.setCore c { s.core c with l1 := (s.core c).l1.filter fun e => !hit e.line }

/-- R204. -/
def execInval (gd : Guard) (scope : BitVec 3) (a : GIx) (b : GIx) (s : State) : Out :=
  s.issue { gd := gd, len := 12, reads := [.g a, .g b], writes := [], traps := [.g a, .g b] } (decide (s.cs.tags ≠ [])) fun _ =>
    if s.rangeBad a b then .trap s causeOperand 0
    else s.withRange a b fun t rg => .done (if scope.toNat < 3 then t else t.dropRange t.cc rg)

-- the steps that follow

/-- R199 step 2: the release at the head of a slot's hold queue, or the DRAIN or FENCE that holds the slot, has its loads performed and
drains, step by step. -/
def tryReleaseProceed (c : CoreId) (k : BitVec 4) (s : State) : Option State :=
  let x := s.slot c k
  let n := ((s.blockOf c x).getD { rec0 := 0 }).ctx
  if !s.coreRuns c then none
  else match x.hold, x.busy with
  | h :: rest, _ =>
    match h.op with
    | .upd recs scope ph =>
      if scope = 0 ∨ h.mask ≠ 0 ∨ h.loads ≠ 0 then none
      else (s.drainStep c n scope none (s.names c k) ph).map fun (ph, t) =>
        t.setSlot c k { t.slot c k with hold := { h with op := .upd recs scope ph } :: rest }
    | .load _ => none
  | [], some (.drain scope rg fence ph id) =>
    if x.tags ≠ [] then none
    else (s.drainStep c n scope rg (s.names c k) ph).map fun (ph, t) =>
      t.setSlot c k { t.slot c k with busy := some (.drain scope rg fence ph id) }
  | _, _ => none
def execReleaseProceed (c : CoreId) (k : BitVec 4) (s : State) : Out := orSame s (tryReleaseProceed c k s)

/-- R199 step 3, R214, R221: the records that a release moved have arrived: the update inserts its own, DRAIN and FENCE go on. -/
def tryReleaseComplete (c : CoreId) (k : BitVec 4) (s : State) : Option State :=
  let x := s.slot c k
  if !s.coreRuns c then none
  else match x.hold, x.busy with
  | h :: rest, _ =>
    match h.op with
    | .upd recs scope .sent => if s.released scope (s.names c k) then s.goUpdate c k [] rest h recs else none
    | _ => none
  | [], some (.drain scope rg fence .sent _) =>
    if s.arrived scope rg fence (s.names c k) then some (s.afterRelease c k scope fence) else none
  | _, _ => none
def execReleaseComplete (c : CoreId) (k : BitVec 4) (s : State) : Out := orSame s (tryReleaseComplete c k s)

/-- R205 step 3. -/
def tryFenceApplyComplete (c : CoreId) (k : BitVec 4) (s : State) : Option State :=
  if s.coreRuns c ∧ (s.slot c k).busy = some .fenceApply ∧ s.fenceApplied c k then some ((s.dropL1 c).endBusy c k) else none
def execFenceApplyComplete (c : CoreId) (k : BitVec 4) (s : State) : Out := orSame s (tryFenceApplyComplete c k s)

end Sys2Proof.Machine
end

