-- ==== Sys2Proof/Machine/Fetch.lean ====
section
/-! DEFINITION. A slot's turn up to the instruction that issues: who has a turn (spec/01 R7, R8), what comes before an issue (spec/18
R310), and the fetch (spec/04 R83 to R85). -/

namespace Sys2Proof.Machine

/-- The slot's turn in this cycle has come and is not used: its place in the rotation, running, on a core that runs (R7, R10, R346, R355). The
core-local cycle number, which the spec does not define, is the die's `CLOCK` on every core (log 74: DESIGN CHOICE). -/
def State.turnDue (s : State) (c : CoreId) (k : BitVec 4) : Bool :=
  let d := s.die c.die
  decide (d.clock % 16 = k.toNat) && decide ((s.core c).turned ≤ d.clock) && decide ((s.slot c k).st = .running)
    && !d.held && !d.stopped && !(s.core c).fenced

/-- A long result of the slot whose time has come, and that can be written (R9, R107). -/
def State.lateResult (s : State) (c : CoreId) (k : BitVec 4) : Bool :=
  (s.slot c k).longs.any fun r => decide (r.due ≤ s.clock c) && !(decide (r.dst = .g 61) && decide (8 ≤ (s.core c).outq.length))

/-- The slot has its turn: its long results that are due have been written, and no core of the die with a lower `LNUM` has its turn of this
cycle still before it (R9, R271, R307; log 81: DEDUCED). -/
def State.hasTurn (s : State) (c : CoreId) (k : BitVec 4) : Bool :=
  s.turnDue c k && !s.lateResult c k
    && !s.cores.any fun e =>
      let o := CoreId.ofKey e.1
      decide (o.die = c.die) && decide ((s.lnumOf o).toNat < (s.lnumOf c).toNat) && s.turnDue o k

/-- The turn is used up. -/
def State.useTurn (s : State) (c : CoreId) : State := s.setCore c { s.core c with turned := s.clock c + 1 }

/-- TRAPCAUSE without a pending trap (R309). -/
def clearPending (v : Word) : Word := v &&& 0x1FF
/-- TRAPCAUSE with a pending trap of a cause (R309). -/
def setPending (v : Word) (cause : Byte) : Word := (v &&& 0x1FF) ||| 0x200 ||| ((cause.setWidth 64) <<< 10)

/-- In the handler, the first trap that waits becomes the pending one (R310). -/
def Slot.shiftPend (x : Slot) : Slot :=
  match x.epend with
  | [] => x
  | (cause, addr) :: r =>
    if x.inTrap && !x.pendTrap then { x with epend := r, trapcause := setPending x.trapcause cause, trapkeep := addr } else x

/-- An instruction that waits for engine commands holds the slot: step 3 of FENCE, or CPY at its step 6 (R205, R250). -/
def Busy.waitsEngine : Busy → Bool
  | .fenceApply => true
  | .cpy _ _ _ _ => true
  | .drain _ _ _ _ _ => false
  | .tld _ _ _ _ _ => false
  | .image _ _ _ _ _ => false
  | .bsld _ _ => false
  | .dsmode _ => false

/-- An engine fault or a bit-serial stop that waits is taken at the slot's turn, also from an instruction that waits for the engine: it ends without
completing, its address in TRAPPC, and issues again after the handler, which alone may let the command go on (R252, R254, R380; log 36: DEDUCED). -/
def Slot.trapsHeld (x : Slot) : Bool := x.busy.any Busy.waitsEngine && !x.inTrap && decide (x.epend ≠ [])

/-- A trap that waits outside the handler (R252, R259): an engine fault or a bit-serial stop. -/
def State.takeEngineTrap (s : State) (c : CoreId) (k : BitVec 4) : Option State :=
  let x := s.slot c k
  match x.epend with
  | [] => none
  | (cause, addr) :: r =>
    if x.inTrap then none else some ((s.setSlot c k { x with epend := r, busy := none }).deliverTrap c k cause addr x.pc)

/-- A trap that arose in the handler, delivered at the first turn after TRET (R310). -/
def State.takePending (s : State) (c : CoreId) (k : BitVec 4) : Option State :=
  let x := s.slot c k
  if x.pendTrap && !x.inTrap then
    let cause := x.trapcause.extractLsb' 10 8
    some ((s.setSlot c k { x with trapcause := clearPending x.trapcause, trapkeep := 0 }).deliverTrap c k cause x.trapkeep x.pc)
  else none

/-- A failed fault answer's trap, with the TRAPPC that its fault had (R115, R312). -/
def State.takeFailed (s : State) (c : CoreId) (k : BitVec 4) : Option State :=
  let x := s.slot c k
  match x.ftrap with
  | none => none
  | some (cause, addr, tpc) => some ((s.setSlot c k { x with ftrap := none }).deliverTrap c k cause addr tpc)

/-- A slot that stops at its turn (R318 step 1): an instruction that holds it ends without completing (R380). -/
def Slot.stopNow (x : Slot) : Slot := { x with stopped := true, busy := none, mxSince := none }

/-- The slot is to stop at its turn in a cycle (R318 step 1, R326). -/
def Slot.stops (x : Slot) (clock : Nat) : Bool := x.stop && decide (x.stopAt ≤ clock)

/-- What a turn does instead of an issue: it stops the slot, it is lost to an instruction that holds the slot, or a trap comes first. -/
def State.beforeIssue (s : State) (c : CoreId) (k : BitVec 4) : Option State :=
  let x := s.slot c k
  if x.stops (s.clock c) && !x.stopped then some (s.setSlot c k x.stopNow)
  else if x.stopped || (x.busy.isSome && !x.trapsHeld) then some s
  else match s.takeFailed c k with
    | some t => some t
    | none => match s.takePending c k with
      | some t => some t
      | none => s.takeEngineTrap c k

/-- What a fetch ends in (R84). -/
inductive Fetched where
  | instr (i : Instr)
  | illegal
  | wait (s : State)
  | fault (s : State) (cause : Byte) (va : Word)
  deriving DecidableEq, Repr

/-- The length that a first word gives (R83). -/
def firstLen (w : Nat) : Nat := lenBytes (BitVec.ofNat 2 w)

/-- The bytes of two pieces, one after the other, as a number. -/
def joinBytes (n a b : Nat) : Nat := a + 256 ^ n * b

/-- The fetch at an address (R84, R85): every byte is translated, the base image is read. Where the spec says nothing the model takes the bytes
that are stored, at once: of a poisoned line or key, and of a line whose home die is held; it takes the base image's word also where
the launch has itself written it and either content may be had; and an instruction that runs past 2^48 goes on at address 0 (log 75: DESIGN CHOICE). -/
def State.fetchAt (s : State) (c : CoreId) (who : Nat) (boot : Bool) (ctx : BitVec 6) (pc : BitVec 48) : Fetched :=
  match s.translate c who boot ctx (pc.setWidth 64) needX with
  | .miss t => .wait t
  | .fault t cause => .fault t cause (pc.setWidth 64)
  | .ok pa =>
    let len := firstLen (s.readBase pa 4)
    let room := 4096 - pc.toNat % 4096
    if len ≤ room then
      match decode (BitVec.ofNat 160 (s.readBase pa len)) with
      | .ok i => .instr i
      | .error _ => .illegal
    else
      let next := pc + BitVec.ofNat 48 room
      match s.translate c who boot ctx (next.setWidth 64) needX with
      | .miss t => .wait t
      | .fault t cause => .fault t cause (next.setWidth 64)
      | .ok pb =>
        match decode (BitVec.ofNat 160 (joinBytes room (s.readBase pa room) (s.readBase pb (len - room)))) with
        | .ok i => .instr i
        | .error _ => .illegal

/-- The lines that a fetch at an address reads. -/
def State.fetchLines (s : State) (c : CoreId) (who : Nat) (boot : Bool) (ctx : BitVec 6) (pc : BitVec 48) : List Nat :=
  match s.translate c who boot ctx (pc.setWidth 64) needX with
  | .miss _ => []
  | .fault _ _ => []
  | .ok pa =>
    let len := firstLen (s.readBase pa 4)
    let room := 4096 - pc.toNat % 4096
    linesOf pa (min len room) ++ match s.translate c who boot ctx ((pc + BitVec.ofNat 48 room).setWidth 64) needX with
      | .ok pb => linesOf pb (len - room)
      | .miss _ => []
      | .fault _ _ => []
/-- The fetch of the current slot reaches its lines (R355); none where an activate must wait. -/
def State.openFetch (s : State) : Option State :=
  s.openRows s.seqno (s.fetchLines s.cc s.cur.2.toNat s.block.boot s.block.ctx s.cs.pc)

/-- The fetch of the current slot. -/
def State.fetch (s : State) : Fetched := s.fetchAt s.cc s.cur.2.toNat s.block.boot s.block.ctx s.cs.pc

end Sys2Proof.Machine
end

