-- ==== Sys2Proof/Machine/Message.lean ====
section
/-! DEFINITION. Messages and the gateway queue (spec/12 R266 to R271; in boot state spec/23 R372). -/

namespace Sys2Proof.Machine

/-- Words of the scratchpad with their poison. -/
def scratchWords (t : Sparse Unit8) (off : Nat) (n : Nat) : List MsgWord :=
  (List.range n).map fun i => let v := readSram t (off + 8 * i) 8; ⟨BitVec.ofNat 64 v.1, v.2⟩

/-- R267. (log 38: DEDUCED) -/
def execSend (gd : Guard) (tag : Byte) (nw : BitVec 4) (a : GIx) (disp : BitVec 32) (s : State) : Out :=
  s.issue { gd := gd, len := 12, reads := [.g a], writes := [], traps := [.g a] } (s.unquiet gd [.g a] || !s.outRoom) fun _ =>
    s.inScratch (s.baseDisp a disp) 8 (8 * (nw.toNat + 1)) fun off =>
      if s.badDest then .trap s causeBadDest 0
      else .done (s.send tag (scratchWords (s.core s.cc).scratch off (nw.toNat + 1)))

/-- The INPOP value of a message (R269). -/
def InMsg.value (m : InMsg) : Word :=
  (0 : BitVec 12) ++ m.kind ++ m.sdie ++ m.score ++ m.sslot ++ (0 : BitVec 12) ++ BitVec.ofNat 5 m.words.length ++ (0 : BitVec 3) ++ m.nw
    ++ m.tag

/-- R269: once the inbox is not empty. -/
def execInpop (gd : Guard) (d : GIx) (s : State) : Out :=
  s.issue { gd := gd, len := 12, reads := [], writes := [.g d] } (s.unquiet gd [] || decide (s.cs.inbox = [])) fun env =>
    match s.cs.inbox with
    | [] => .lost
    | m :: ms => .done ((s.setCs { s.cs with inbox := ms }).putG d m.value env.gt false)

-- acceptance (R268)

/-- A message as it stands in an inbox. (log 42: DEDUCED) -/
def Msg.inbox (m : Msg) : InMsg :=
  { kind := 0, sdie := m.src.die, score := m.score, sslot := m.sslot, tag := m.tag, nw := BitVec.ofNat 5 m.words.length, words := m.words }

/-- Step 1 of a stop has run for the slot (R318). (log 44: DEDUCED) -/
def Slot.gone (x : Slot) : Bool := x.stopped || (x.stop && decide (x.st ≠ .running))

/-- The n-th message on its way has arrived at a slot's inbox: it is put there, where there is room for all its words and no message that arrived
for the slot before it still waits; else it waits from now on (R268, R294). -/
def State.arrive (s : State) (n : Nat) (m : Msg) (c : CoreId) (k : BitVec 4) : Option State :=
  let x := s.slot c k
  if x.inboxRoom m.words.length && !s.olderMsg c k m.arrived then
    some ({ s with msgs := (s.msgs.take n) ++ s.msgs.drop (n + 1) }.setSlot c k { x with inbox := x.inbox ++ [m.inbox] })
  else if m.arrived.isSome then none
  else some { s.tick1 with msgs := setNth n { m with arrived := some s.seqno } s.msgs }

/-- The slot runs in boot state (R372). -/
def State.boots (s : State) (c : CoreId) (k : BitVec 4) : Bool := (s.blockOf c (s.slot c k)).any fun b => b.boot

/-- R268: the n-th message on its way is accepted or dropped, after the earlier ones from its slot to its destination. In boot state
positions take the place of numbers, and slot 0 is meant; a message of boot state, which carries no context, is dropped by a slot that has come to run
in one (R372). (log 20: DEDUCED) -/
def tryMessageAccept (n : Nat) (s : State) : Option State :=
  match takeNth n s.msgs with
  | none => none
  | some (m, rest) =>
    let t := { s with msgs := rest }
    if (s.msgs.take n).any fun e => decide (e.src = m.src ∧ e.sslot = m.sslot ∧ e.ddie = m.ddie ∧ e.dcore = m.dcore ∧ e.dslot = m.dslot) then
      none
    else if (s.die m.ddie).held then none
    else if m.boot then
      let c := s.bootCoreAt m.ddie m.dcore.toNat
      if !s.usable c.die c.pos then some (t.logEvent c.die 0x0C none m.dcore.toNat 0 1 0)
      else if (s.slot c 0).st ≠ .running ∨ s.boots c 0 = false then some (t.deadLetter c none)
      else s.arrive n m c 0
    else
      match s.coreOfLnum m.ddie m.dcore with
      | none => some (t.logEvent m.ddie 0x0C (some m.ctx) 0 0 1 0)
      | some c =>
        if s.dropsMsg c m.dslot m.gen m.ctx || (s.slot c m.dslot).gone then some (t.deadLetter c (some m.ctx))
        else s.arrive n m c m.dslot
def execMessageAccept (n : Nat) (s : State) : Out := orSame s (tryMessageAccept n s)

-- the gateway queue (R270, R271)

/-- The spoke whose gateway core a core is (R341). -/
def State.gateOf (s : State) (c : CoreId) : Option Nat := (List.range 32).find? fun n => ((s.spokes[n]?).getD {}).gates.contains c
def State.spoke (s : State) (n : Nat) : Spoke := (s.spokes[n]?).getD {}
def State.setSpoke (s : State) (n : Nat) (x : Spoke) : State := { s with spokes := s.spokes.setIfInBounds n x }
/-- Traffic comes in over a spoke: it is not fenced, and no collective block that waits for room in the gateway queue holds the link's credits back
(R342, R346). -/
def Spoke.linkOpen (x : Spoke) : Bool := !x.fenced && !(decide (64 ≤ x.gq.length) && !x.colls.isEmpty)
/-- Traffic of the host arrives at a spoke: the device is ready (R363, R369), and the link takes it. -/
def State.spokeOpen (s : State) (sp : BitVec 5) : Bool := s.root.ready && (s.spokes[sp.toNat]).linkOpen
/-- A flit has come through a spoke: no replays are in a row. -/
def State.flitIn (s : State) (sp : BitVec 5) : State := s.setSpoke sp.toNat { s.spokes[sp.toNat] with replays := 0 }

/-- The gateway queue of the current core's spoke as an instruction finds it (R8, R271): the entries of earlier cycles, and whether there was room at
the end of the last cycle. -/
def State.gqSeen (s : State) (n : Nat) : List (Word × Nat) := (s.spoke n).gq.filter fun e => decide (e.2 < s.clock s.cc)
def State.gqFull (s : State) (n : Nat) : Bool :=
  let x := s.spoke n
  decide (64 ≤ x.gq.length + if x.gqTook.1 = s.clock s.cc then x.gqTook.2 else 0)
/-- GQTAKE waits for an entry, GQPUT for room, where the core is a gateway core. -/
def State.gqEmpty (s : State) : Bool := (s.gateOf s.cc).any fun n => (s.gqSeen n).isEmpty
def State.gqNoRoom (s : State) : Bool := (s.gateOf s.cc).any s.gqFull

/-- An entry taken, in this cycle. -/
def Spoke.take (x : Spoke) (now : Nat) (ws : List (Word × Nat)) : Spoke :=
  { x with gq := ws, gqTook := (now, 1 + if x.gqTook.1 = now then x.gqTook.2 else 0) }

/-- R271. -/
def execGqtake (gd : Guard) (d : GIx) (s : State) : Out :=
  s.issue { gd := gd, len := 12, reads := [], writes := [.g d] } (s.unquiet gd [] || s.gqEmpty) fun env =>
    match s.gateOf s.cc with
    | none => .trap s causeOperand 0
    | some n =>
      match (s.spoke n).gq with
      | [] => .lost
      | w :: ws => .done ((s.setSpoke n ((s.spoke n).take (s.clock s.cc) ws)).putG d w.1 env.gt false)

/-- R271: `ORIG` is 0xFF, bits 62:56 are cleared. -/
def execGqput (gd : Guard) (a : GIx) (s : State) : Out :=
  s.issue { gd := gd, len := 12, reads := [.g a], writes := [], traps := [.g a] } (s.unquiet gd [.g a] || s.gqNoRoom) fun _ =>
    match s.gateOf s.cc with
    | none => .trap s causeOperand 0
    | some n =>
      let w := (s.g a &&& 0x8000FFFFFFFFFFFF) ||| 0x00FF000000000000
      .done (s.setSpoke n { s.spoke n with gq := (s.spoke n).gq ++ [(w, s.clock s.cc)] })

end Sys2Proof.Machine
end

