-- ==== Sys2Proof/Machine/System.lean ====
section
/-! DEFINITION. System instructions (spec/18 R313 to R317), and the traps that wait for a slot's turn (spec/18 R310; spec/12 R252, R259). -/

namespace Sys2Proof.Machine

/-- R313: saves the address after itself. -/
def execTrap (gd : Guard) (code : BitVec 16) (s : State) : Out :=
  s.issue { gd := gd, len := 12, reads := [], writes := [] } false fun _ =>
    .ended (s.deliverTrap s.cc s.cur.2 causeTrap (code.setWidth 64) (s.cs.pc + 12))

/-- R313: the host is told where the context says so, else it traps. -/
def execBrk (gd : Guard) (code : BitVec 16) (s : State) : Out :=
  s.issue { gd := gd, len := 12, reads := [], writes := [] } false fun _ =>
    let y := s.ctx s.block.ctx
    if !s.block.boot && y.dbg && decide (y.fqbase ≠ 0) then
      let t := s.suspend s.cc s.cur.2 s.block.ctx 5 causeBrk (code.setWidth 64) s.cs.pc s.cs.pc (s.cs.pc + 12)
      .ended (t.advance t.cur.1 t.cur.2 12)
    else .ended (s.deliverTrap s.cc s.cur.2 causeBrk (code.setWidth 64) (s.cs.pc + 12))

/-- The return from the handler (R314): `INTRAP` is cleared, the pc is TRAPPC. -/
def Slot.leaveTrap (x : Slot) : Slot := { x with trapcause := x.trapcause &&& ~~~0x100, pc := x.trappc.setWidth 48 }

/-- R314. R27 does not name TRET among the instructions that set the pc under a predicate: its guard's taint joins nothing (log 90: DESIGN CHOICE). -/
def execTret (gd : Guard) (s : State) : Out :=
  s.issue { gd := gd, len := 12, reads := [], writes := [] } false fun _ =>
    if s.cs.inTrap then .ended (s.setCs s.cs.leaveTrap) else .trap s causeIllegal 0

/-- Every slot of a block has exited (R291). -/
def Core.allExited (x : Core) (n : Nat) : Bool := x.slots.toList.all fun y => decide (y.blk ≠ some n) || decide (y.st = .exited)

/-- A block's faulted commands are abandoned (R291). -/
def Core.dropFaulted (x : Core) (n : Nat) : Core :=
  { x with cmds := x.cmds.filter fun e => !(decide (e.2.blk = n) && match e.2.st with
      | .faulted _ _ => true
      | .running => false
      | .paused => false) }

/-- A slot exits, and the misses of what is gone with it (R315, R259, R291, R306). -/
def State.exitSlot (s : State) (c : CoreId) (k : BitVec 4) : State :=
  let x := s.slot c k
  let t := s.setSlot c k { x with st := .exited, inbox := [] }
  let q := (t.slab c).seq
  let t := if q.st = .stopped ∧ q.owner = k then t.setSeq c { q with st := .idle, scause := 0 } else t
  (match x.blk with
    | none => t
    | some n => if (t.core c).allExited n then t.setCore c ((t.core c).dropFaulted n) else t).dropGone c

/-- R315: once no load tag is busy and the hold queue is empty. -/
def execExit (gd : Guard) (s : State) : Out :=
  s.issue { gd := gd, len := 12, reads := [], writes := [] } (decide (s.cs.tags ≠ [] ∨ s.cs.hold ≠ [])) fun _ =>
    .done (s.exitSlot s.cc s.cur.2)

/-- R316: the call goes to the hub, gD is pending. -/
def execHubcall (gd : Guard) (code : BitVec 16) (d : GIx) (a : GIx) (s : State) : Out :=
  s.issue { gd := gd, len := 12, reads := [.g a], writes := [.g d], traps := [.g a] } (s.unquiet gd [.g a]) fun env =>
    let x := s.cs.setPend true (.g d)
    .done (s.setCs { x with hubcalls := x.hubcalls ++ [(d, code, s.g a, env.gt)] })

/-- The sequencer beneath a core belongs to a block: its owner is a slot of it (R318). -/
def State.ownsSeq (s : State) (c : CoreId) (n : Nat) : Bool :=
  let q := (s.slab c).seq
  decide (q.st ≠ .idle) && decide ((s.slot c q.owner).blk = some n)

/-- The blocks that stop with a block: all of its context on the core where it owns the sequencer (R318). -/
def State.stopSet (s : State) (c : CoreId) (n : Nat) : List Nat :=
  let ctx := ((s.core c).blockAt n).ctx
  if s.ownsSeq c n then ((s.core c).table.filter fun e => decide (e.2.ctx = ctx) && !e.2.boot && !e.2.held).map Prod.fst else [n]

/-- A whole launch has started (R288). -/
def State.wholeStarted (s : State) (b : Block) : Bool :=
  b.whole && !b.boot && match Sparse.find s.queues b.queue.toNat with
    | none => false
    | some q => q.launches.any fun l => decide (l.n % 2 ^ 24 = b.seq.toNat) && l.started

/-- Every block of a launch that is bound: its core and its number there. -/
def State.blocksOf (s : State) (q : BitVec 8) (n : BitVec 24) : List (CoreId × Nat) :=
  s.cores.flatMap fun e => (e.2.table.filter fun b => b.2.ofLaunch q n).map fun b => (CoreId.ofKey e.1, b.1)

/-- The blocks that stop with one (R290, R318): those of its started whole launch, and those of its core's context where it owns the
sequencer. -/
def State.stopsWith (s : State) (e : CoreId × Nat) : List (CoreId × Nat) :=
  let b := (s.core e.1).blockAt e.2
  (s.stopSet e.1 e.2).map (fun m => (e.1, m)) ++ (if s.wholeStarted b then s.blocksOf b.queue b.seq else [])

/-- The blocks that stop with some, and with those, as often as a number says. -/
def State.stopAll (s : State) : Nat → List (CoreId × Nat) → List (CoreId × Nat)
  | 0, l => l
  | i + 1, l => s.stopAll i (l ++ l.flatMap s.stopsWith).eraseDups

/-- The slots of a block are to stop at their first turns after this cycle (R318 step 1, R326). -/
def Core.stopAfter (x : Core) (n now : Nat) : Core :=
  { x with slots := x.slots.map fun y => if y.blk = some n ∧ y.stop = false then { y with stop := true, stopAt := now + 1 } else y }

/-- A block is to be stopped for a save (R318 step 1), with every block that stops with it. -/
def State.stopForSave (s : State) (c : CoreId) (n : Nat) : State :=
  (s.stopAll (s.cores.foldl (fun a e => a + e.2.table.length) 0) [(c, n)]).foldl (fun t e =>
    t.setCore e.1 ((t.core e.1).stopAfter e.2 (t.clock e.1))) s

/-- R317. -/
def execChkpt (gd : Guard) (a : GIx) (s : State) : Out :=
  s.issue { gd := gd, len := 12, reads := [.g a], writes := [], traps := [.g a] }
    (decide (s.cs.tags ≠ [] ∨ s.cs.hold ≠ [] ∨ (s.cs.mark (.g a)).taint ≠ 0)) fun _ =>
    let b := s.block
    let t := s.setBlock s.cc s.curBlk { b with chkv := s.g a, yieldReq := false }
    if b.yieldReq then .done (t.stopForSave t.cc s.curBlk) else .done t

/-- What the hub answers a service with, and what it does (R316). -/
def State.service (s : State) (c : CoreId) (k : BitVec 4) (code : BitVec 16) (v : Word) (full : Bool) : Word × State :=
  match code.toNat with
  | 0 => (v, s)
  | 1 =>
    match (s.slot c k).blk with
    | none => (0, s)
    | some n => (0, s.setBlock c n { (s.core c).blockAt n with yieldReq := true })
  | 2 => if full then (BitVec.allOnes 64, s) else (0, { s with notes := s.notes ++ [v] })
  | _ => (BitVec.allOnes 64, s)

/-- A reply is written to the register of the oldest pending HUBCALL. -/
def State.hubAnswer (s : State) (c : CoreId) (k : BitVec 4) (d : GIx) (v : Word) (t : Byte) : State :=
  let u := s.setSlot c k { s.slot c k with hubcalls := (s.slot c k).hubcalls.drop 1 }
  { ({ u with cur := (c, k) }.putG d v t false) with cur := s.cur }

/-- R316: the hub replies to a slot's oldest HUBCALL, on a die that is not held (R346); `full` says that the host's queue takes no word. -/
def tryHubcallReply (c : CoreId) (k : BitVec 4) (full : Bool) (s : State) : Option State :=
  match (s.slot c k).hubcalls with
  | [] => none
  | (d, code, v, t) :: _ =>
    if !s.coreRuns c || (decide (d = 61) && decide (8 ≤ (s.core c).outq.length)) then none
    else
      let (r, u) := s.service c k code v full
      some (u.hubAnswer c k d r t)
def execHubcallReply (c : CoreId) (k : BitVec 4) (full : Bool) (s : State) : Out := orSame s (tryHubcallReply c k full s)

-- traps that wait for a turn (R310)

/-- The slot's turn may deliver a trap that waits. -/
def State.trapTurn (s : State) (c : CoreId) (k : BitVec 4) : Bool :=
  let x := s.slot c k
  s.hasTurn c k && !x.stops (s.clock c) && !x.stopped && (x.busy.isNone || x.trapsHeld) && x.ftrap.isNone

/-- R310: the trap that arose in the handler, at the first turn after TRET. -/
def tryPendingTrapDelivery (c : CoreId) (k : BitVec 4) (s : State) : Option State :=
  if s.trapTurn c k then (s.useTurn c).takePending c k else none
def execPendingTrapDelivery (c : CoreId) (k : BitVec 4) (s : State) : Out := orSame s (tryPendingTrapDelivery c k s)

/-- The first trap that waits outside the handler has a cause. -/
def Slot.waitsFor (x : Slot) (cause : Byte) : Bool :=
  !x.pendTrap && match x.epend with
    | [] => false
    | e :: _ => decide (e.1 = cause)

/-- R252. -/
def tryEngineFaultTrap (c : CoreId) (k : BitVec 4) (s : State) : Option State :=
  if s.trapTurn c k && (s.slot c k).waitsFor causeEngine then (s.useTurn c).takeEngineTrap c k else none
def execEngineFaultTrap (c : CoreId) (k : BitVec 4) (s : State) : Out := orSame s (tryEngineFaultTrap c k s)

/-- R259. -/
def tryBitSerialStopTrap (c : CoreId) (k : BitVec 4) (s : State) : Option State :=
  if s.trapTurn c k && (s.slot c k).waitsFor causeBitSerial then (s.useTurn c).takeEngineTrap c k else none
def execBitSerialStopTrap (c : CoreId) (k : BitVec 4) (s : State) : Out := orSame s (tryBitSerialStopTrap c k s)

end Sys2Proof.Machine
end

