-- ==== Sys2Proof/Machine/Save.lean ====
section
/-! DEFINITION. Stopping a block, freeing it, and saving it (spec/18 R318 to R322; R300, R311): the stop of R318 in its steps, the bytes
of a saved block, and the host's answers to faults (R312). -/

namespace Sys2Proof.Machine

-- the slots of a block

/-- The slots of a block in rank order (R288). -/
def Core.slotsOf (x : Core) (n : Nat) : List (BitVec 4) :=
  ((List.range 16).map (BitVec.ofNat 4)).filter fun k => decide (x.slots[k.toNat].blk = some n)

/-- The names of a block's slots in records. -/
def State.blockNames (s : State) (c : CoreId) (n : Nat) : List Nat := ((s.core c).slotsOf n).flatMap fun k => s.names c k

/-- R318 step 1: a slot stops at its turn; an instruction that holds it ends without completing (R380). -/
def tryPreemptStop (c : CoreId) (k : BitVec 4) (s : State) : Option State :=
  let x := s.slot c k
  if s.hasTurn c k && x.stops (s.clock c) && !x.stopped then
    some ((s.useTurn c).setSlot c k x.stopNow)
  else none
def execPreemptStop (c : CoreId) (k : BitVec 4) (s : State) : Out := orSame s (tryPreemptStop c k s)

-- the steps of a stop (R318)

/-- The slot has stopped, and its accesses and long results are done (steps 1 and 2). -/
def Slot.settled (x : Slot) : Bool :=
  (decide (x.st ≠ .running) || x.stopped) && decide (x.tags = [] ∧ x.hold = [] ∧ x.longs = [])

/-- A group of a context's holding changes under a DSMODE. -/
def State.holdingChanges (s : State) (c : CoreId) (n : BitVec 6) : Bool :=
  let y := s.ctx n
  (s.slab c).changing.any fun e => decide (y.first ≤ e.1) && decide (e.1 < y.first + y.count)

/-- The pending HUBCALLs of a slot complete with all ones (R316). (log 46: DEDUCED) -/
def State.hangUp (s : State) (c : CoreId) (k : BitVec 4) : State :=
  (s.slot c k).hubcalls.foldl (fun t h =>
    if h.1 = 61 ∧ 8 ≤ (t.core c).outq.length then t else t.hubAnswer c k h.1 (BitVec.allOnes 64) h.2.2.2) s

/-- The last segment of a slot, which commits it (R244). -/
def MxOp.commits (o : MxOp) : Bool := o.tcvt && decide (o.seg.toNat + 1 = fmtK (descFmt o.da) / 16)

/-- An operation's slots are committed, or it has started. A TCVT's slot is one that it commits itself, in the order of reservation (R235): it
can once earlier TCVTs in the queue commit every slot before it. -/
def Core.opReady (x : Core) (before : List MxOp) (o : MxOp) : Bool :=
  if o.tcvt then
    !o.commits || decide ((o.ca - (x.ring o.qa).tail).toNat = (before.filter fun p => p.commits && decide (p.qa = o.qa)).length)
  else o.started.isSome || ((x.ring o.qa).committed o.ca && (decide (o.qa = o.qb) || (x.ring o.qb).committed o.cb))

/-- An operation must not run ahead of some that were taken before it: a TCVT not of any, an MMA not of a TCVT of its tile (R241; log 82: DEDUCED). -/
def MxOp.behind (o : MxOp) (taken : List MxOp) : Bool :=
  taken.any fun t => o.tcvt || (t.tcvt && decide (t.tile = o.tile))

/-- The first operation of a block that step 4 takes from the queue, given those that it has taken and those before it in the queue: one
whose slots are not committed, and that no TCVT before it in the queue may still bring there; a TCVT also where it has started and waits
for the slots of a command that has stopped. -/
def Core.takeOp (x : Core) (n : Nat) (taken before : List MxOp) : List MxOp → Option (MxOp × List MxOp)
  | [] => none
  | o :: r =>
    if o.blk = n ∧ (o.behind taken ∨ (x.opReady before o = false ∧ (o.tcvt = true ∨ !before.any fun p => p.tcvt && decide (p.blk = n)))) then
      some (o, r)
    else (x.takeOp n taken (before ++ [o]) r).map fun y => (y.1, o :: y.2)

/-- A claim of a ring withdrawn, or made again; a TCVT has none: its reservation stays with its ring. -/
def State.moveClaim (s : State) (c : CoreId) (o : MxOp) (d : BitVec 12) : State :=
  if o.tcvt then s else
  let f (t : State) (q : Nat) : State := t.setRing c q { (t.core c).ring q with cons := ((t.core c).ring q).cons + d }
  let t := f s o.qa
  if o.qa = o.qb then t else f t o.qb

/-- An operation taken from the queue, its claims and busy count undone. -/
def State.undoOp (s : State) (c : CoreId) (n : Nat) (o : MxOp) (rest : List MxOp) : State :=
  let b := (s.core c).blockAt n
  let s := (s.setCore c { s.core c with mx := rest }).moveClaim c o (-1)
  let t := (s.core c).tile o.tile
  (s.setTile c o.tile { t with busy := t.busy - 1 }).setBlock c n { b with undone := b.undone ++ [{ o with started := none }] }

/-- A running command of a block that is between units. -/
def Cmd.between (m : Cmd) (n : Nat) : Bool := decide (m.blk = n) && decide (m.st = .running) && !m.sent && !m.closing
/-- A running command of a block that is within a unit, or closes. -/
def Cmd.within (m : Cmd) (n : Nat) : Bool := decide (m.blk = n) && decide (m.st = .running) && (m.sent || m.closing)

/-- Step 3: the commands between units become paused. -/
def Core.pause (x : Core) (n : Nat) : Core :=
  { x with cmds := x.cmds.map fun e => if e.2.between n then (e.1, { e.2 with st := .paused }) else e }

/-- How a stop stands: it waits, a step of it is done, or it is over. -/
inductive StopStep where
  | wait
  | go (s : State)
  | finished
  deriving DecidableEq, Repr

/-- A step of the drain of a block, at its stop (R318 step 6) or its completion (R291). -/
def State.blockDrain (s : State) (c : CoreId) (n : Nat) (b : Block) : StopStep :=
  match s.drainStep c b.ctx 3 none (s.blockNames c n) b.ph with
  | none => .wait
  | some (ph, t) => .go (t.setBlock c n { (t.core c).blockAt n with ph := ph })

/-- A signal of a barrier register is in transit in the register's rectangle: a release that has not reached every position, or the corner's; or a done
signal that a position has still to send (R264, R318 step 7). -/
def State.barMoves (s : State) (c : CoreId) (n : Nat) : Bool :=
  let b := s.bar c n
  s.cores.any fun e =>
    let o := CoreId.ofKey e.1
    let x := s.bar o n
    decide (o.die = c.die) && x.same b && b.covers o
      && (x.rel || (s.rowDone o n && !x.rowOut && decide (b.x0.toNat < o.x.toNat))
        || (s.colDone o n && (decide (o.y = b.y0) || !x.colOut)))

/-- Steps 5 to 7 of a stop. The microinstruction that runs is finished first; a run at its end stops there (R259). -/
def State.stopTail (s : State) (c : CoreId) (n : Nat) (b : Block) : StopStep :=
  let q := (s.slab c).seq
  if s.ownsSeq c n && decide (q.st = .running) then
    if !s.seqReady c then .wait
    else
      let t := s.setSlab c (s.slab c).commitMicro
      .go (if q.last then t.seqStop c 4 else t.setSeq c { (t.slab c).seq with st := .stopped, scause := 5 })
  else if b.ph ≠ .sent then s.blockDrain c n b
  else if !s.released 3 (s.blockNames c n) then .wait
  else if (List.range b.nbar).any fun i => s.barMoves c (b.bar0 + i) then .wait
  else .finished

/-- The next step of the stop of a block (R318). -/
def State.stopStep (s : State) (c : CoreId) (n : Nat) (b : Block) : StopStep :=
  let x := s.core c
  let ks := x.slotsOf n
  if ks.any (fun k => !(s.slot c k).settled) || s.holdingChanges c b.ctx then .wait
  else if x.cmds.any fun e => e.2.between n then .go (s.setCore c (x.pause n))
  else if x.cmds.any fun e => e.2.within n then .wait
  else
    let t := ks.foldl (fun t k => t.hangUp c k) s
    if ks.any fun k => !(s.slot c k).hubcalls.isEmpty then
      if ks.all fun k => (t.slot c k).hubcalls.length = (s.slot c k).hubcalls.length then .wait else .go t
    else
      match x.takeOp n b.undone [] x.mx with
      | some (o, rest) => .go (s.undoOp c n o rest)
      | none =>
        if x.mx.any (fun o => decide (o.blk = n)) || !x.stores.isEmpty then .wait
        else s.stopTail c n b

-- freeing a block (R291, R300)

/-- The groups that a context's split gives it (R163). -/
def Ctx.span (y : Ctx) : List Nat := (List.range y.count).map fun i => y.first + i
/-- The groups of a context's holding in a slab: a fenced one is in no holding (R346). -/
def Ctx.groups (y : Ctx) (x : Slab) : List Nat := y.span.filter fun g => !x.fenced.contains g

/-- The holding of a context in a slab returns to cache mode when no block of it is bound above (R300). -/
def State.returnHolding (s : State) (c : CoreId) (n : BitVec 6) : State :=
  if (s.core c).table.any fun e => decide (e.2.ctx = n) && !e.2.boot && !e.2.held then s
  else s.setSlab c (((s.ctx n).groups (s.slab c)).foldl (fun x g => x.putMode g 0) (s.slab c))

/-- An unbound slot: nothing of its block is left but `GEN` (R10, R16). -/
def Slot.free (x : Slot) : Slot := { gen := x.gen }

/-- A block leaves its core: its slots are unbound, its commands and operations are gone, with the misses of both (R306), its run is idle
behind the microinstruction that it was in, its allotments are free. -/
def State.freeBlock (s : State) (c : CoreId) (n : Nat) : State :=
  let x := s.core c
  let b := x.blockAt n
  let y := (s.slab c).commitMicro
  let s := if s.ownsSeq c n then s.setSlab c { y with seq := { y.seq with st := .idle, scause := 0 } } else s
  let s := s.setCore c { x with
    slots := x.slots.map fun y => if y.blk = some n then y.free else y
    table := Sparse.del x.table n
    cmds := x.cmds.filter fun e => decide (e.2.blk ≠ n)
    mx := x.mx.filter fun o => decide (o.blk ≠ n) }
  (s.returnHolding c b.ctx).dropGone c

-- the bytes of a saved block (R319 to R322)

/-- Words up to a multiple of 64 bytes. -/
def padded (ws : List Word) : List Word := ws ++ List.replicate ((8 - ws.length % 8) % 8) 0
/-- A list cut or filled with zeros to a length. -/
def fitted (n : Nat) (ws : List Word) : List Word := (ws ++ List.replicate n 0).take n
/-- Bits, lowest first, as words. -/
def bitWords (bs : List Bool) : List Word :=
  (List.range ((bs.length + 63) / 64)).map fun i =>
    BitVec.ofNat 64 (packBits 1 (((bs.drop (64 * i)).take 64).map fun b => if b then 1 else 0))
/-- The words of a value of `n` of them. -/
def wordsOf (n v : Nat) : List Word := (List.range n).map fun i => BitVec.ofNat 64 (v / 2 ^ (64 * i))

/-- `SLOTST` (R321). -/
def Slot.slotst (x : Slot) : Word :=
  let st : Nat := match x.st with
    | .suspended => 2
    | .exited => 3
    | _ => 1
  let caps := x.caps.foldl (fun a e => a + 2 ^ e.1) 0
  BitVec.ofNat 64 (x.gen.toNat + 2 ^ 16 * st + 2 ^ 18 * x.loops.length + 2 ^ 24 * caps)

/-- The INPOP value of a message in a slot record: `LEFT` counts the words already read (R321). -/
def InMsg.record (m : InMsg) : Word :=
  { m with words := List.replicate (m.nw.toNat - m.words.length) ⟨0, false⟩ : InMsg }.value

/-- A slot record (R321). -/
def Slot.record (x : Slot) : List Word :=
  let g (i : Nat) : Word := if i = 0 ∨ 60 ≤ i then 0 else (x.g[i]?.getD {}).val
  let v (i : Nat) : Reg 256 := x.v[i]?.getD {}
  let m (i : Nat) : Reg 32 := x.m[i]?.getD {}
  let p (i : Nat) : Reg 1 := x.p[i]?.getD {}
  let loops := x.loops.reverse
  let inw := x.inbox.flatMap InMsg.words
  (List.range 64).map g
    ++ (List.range 32).flatMap (fun i => wordsOf 4 (v i).val.toNat)
    ++ (List.range 4).map (fun i => (m (2 * i + 1)).val ++ (if i = 0 then BitVec.allOnes 32 else (m (2 * i)).val))
    ++ [BitVec.ofNat 64 (packBits 1 ((List.range 8).map fun i => if x.readP (BitVec.ofNat 3 i) then 1 else 0)
        + 2 ^ 8 * packBits 1 ((List.range 8).map fun i => if (p i).pois then 1 else 0)
        + 2 ^ 16 * packBits 1 ((List.range 8).map fun i => if (m i).pois then 1 else 0))]
    ++ bitWords ((List.range 64).map fun i => (x.g[i]?.getD {}).pois)
    ++ fitted 1 (bitWords ((List.range 32).map fun i => (v i).pois))
    ++ [x.pc.setWidth 64, x.fpcr, x.vfmt, x.mdest, x.trapvec, x.trappc, x.trapcause, x.trapaddr, x.slotst]
    ++ fitted 8 (loops.flatMap fun e => [e.start.setWidth 64, e.fin.setWidth 64])
    ++ fitted 16 (inw.map MsgWord.val)
    ++ fitted 16 (x.inbox.map InMsg.record)
    ++ [BitVec.ofNat 64 (inw.length + 2 ^ 8 * x.inbox.length + 2 ^ 16 * packBits 1 (inw.map fun w => if w.pois then 1 else 0)),
        BitVec.ofNat 64 (packBits 16 ((List.range 4).map fun i => (Sparse.get 0 x.caps i).toNat))]
    ++ fitted 2 (wordsOf 2 (packBits 32 (loops.map fun e => e.count.toNat)))
    ++ [if x.pendTrap then x.trapkeep else 0, 0, 0, 0]

/-- The RINGCFG image of a ring whose descriptor number is its block's (R234, R321). -/
def Ring.image (r : Ring) : List Word :=
  if r.cfg then [(0 : BitVec 26) ++ r.desc ++ (0 : BitVec 1) ++ r.depth ++ (0 : BitVec 6) ++ r.slots, 0] else [0, 0]

/-- A command entry (R321). -/
def Cmd.entry (m : Cmd) : List Word :=
  let st : Word := match m.st with
    | .faulted _ _ => 2
    | _ => 1
  wordsOf 8 m.image.toNat ++ wordsOf 4 m.sdesc.toNat ++ wordsOf 4 m.ddesc.toNat
    ++ [st, BitVec.ofNat 64 m.done, m.gen.setWidth 64, m.fpcr]

/-- The 32-byte entry of an unstarted matrix operation, with the block's own numbers in its instruction word (R321; log 26: DESIGN CHOICE). -/
def MxOp.entry (o : MxOp) : List Word :=
  let i : Instr := if o.tcvt then .tcvt Guard.always (BitVec.ofNat 3 o.qa) (BitVec.ofNat 5 o.tile)
    else .mma Guard.always (BitVec.ofNat 5 o.tile) (BitVec.ofNat 3 o.qa) (BitVec.ofNat 3 o.qb)
  let w := (encodeBits i).extractLsb' 0 32
  let f (d : BitVec 256) : Nat := descFmt d + 16 * descH d
  [o.fpcr.extractLsb' 0 32 ++ w, BitVec.ofNat 64 (o.ca.toNat + 2 ^ 12 * o.cb.toNat + 2 ^ 24 * o.seg.toNat + 2 ^ 32 * f o.da + 2 ^ 40 * f o.db), descSbase o.da,
   descSbase o.db]

/-- A piece of SRAM of `n` bytes: its units with the last one cut, and then their poison bits. -/
def sramPart (t : Sparse Unit8) (n : Nat) : List Word :=
  let us := (List.range ((n + 7) / 8)).map fun i => (i, Sparse.get ({} : Unit8) t i)
  padded (us.map fun (i, u) => BitVec.ofNat 64 (u.val.toNat % 2 ^ (8 * (n - 8 * i))))
    ++ padded (bitWords (us.map fun x => x.2.pois))

/-- The deep part (R322): two bits of mode for each group of the holding, then the groups, or the window. -/
def Saved.deepPart (v : Saved) : List Word :=
  let size := if v.hold then 65536 * v.modes.length else v.blk.dwsize
  if v.hold || decide (0 < v.blk.dwsize) then
    padded [BitVec.ofNat 64 (packBits 2 (v.modes.map BitVec.toNat))] ++ sramPart v.deep size
  else []

/-- The rank of a slot among those of a block (R288). -/
def Block.rankOf (b : Block) (k : BitVec 4) : Word := BitVec.ofNat 64 (popNat k.toNat b.smask.toNat)

/-- Every part but the header (R319). -/
def Saved.body (v : Saved) : List Word :=
  v.slots.flatMap Slot.record
    ++ (if v.tiles = [] then [] else
        fitted 8 (wordsOf 8 (packBits 16 (v.tiles.map fun t => t.pois.toNat))) ++ v.tiles.flatMap fun t => wordsOf 128 t.val.toNat)
    ++ padded (v.rings.flatMap fun r => r.image ++ [r.stat, 0])
    ++ padded (v.descs.flatMap fun d => if d.valid then wordsOf 4 d.image.toNat else [0, 0, 0, 0])
    ++ padded (v.bars.flatMap fun b => [b.cfg, BitVec.ofNat 64 (b.count.toNat % 16 + 2 ^ 16 * b.phase.toNat)])
    ++ (List.range 8).flatMap (fun n => match Sparse.find v.cmds n with
        | some m => m.entry
        | none => List.replicate 20 0)
    ++ fitted 16 (v.mx.flatMap MxOp.entry)
    ++ fitted 16 (match v.seq with
        | some q => [q.stat, q.param, v.blk.rankOf q.owner]
        | none => [])
    ++ (match v.seq with
        | some q => (List.range 1024).map fun i => Sparse.get 0 q.store i
        | none => [])
    ++ sramPart v.scratch v.blk.scrsize
    ++ v.deepPart

/-- The bind record with `SAVE` = 0. -/
def clearSave (r : BitVec 512) : BitVec 512 := r &&& ~~~(BitVec.ofNat 512 ((2 ^ 48 - 1) * 2 ^ 384))

/-- The header but for `SEAL`, given the size (R320): the words before it, and those after it. -/
def Saved.header (v : Saved) (size : Nat) : List Word × List Word :=
  let bit (b : Bool) : Nat := if b then 1 else 0
  (wordsOf 8 (clearSave v.blk.rec0).toNat,
   [BitVec.ofNat 64 (size + 2 ^ 32 * v.blk.cwm.toNat + 2 ^ 40 * bit v.hold + 2 ^ 41 * bit v.seq.isSome
      + 2 ^ 42 * bit (v.slots.any fun x => decide (x.st = .suspended)) + 2 ^ 56 * v.blk.nalloc),
    BitVec.ofNat 64 (packBits 1 (v.descs.map fun d => bit d.valid)), v.blk.chkv] ++ List.replicate 20 0)

/-- The bytes of words. -/
def wordBytes (ws : List Word) : List Byte := ws.flatMap fun w => (List.range 8).map fun i => w.extractLsb' (8 * i) 8

/-- The words of a saved block, sealed under the key of a boot (R320). -/
def Saved.words (v : Saved) (boots : Nat) : List Word :=
  let body := v.body
  let (h, t) := v.header (8 * (body.length + 32))
  h ++ Config.sealCode boots (wordBytes (h ++ t ++ body)) :: (t ++ body)

/-- Words written from an address up, within the device's memory. -/
def State.putWords (s : State) (pa : Nat) : List Word → State
  | [] => s
  | w :: ws => (s.writeMem pa w.toNat 8).putWords (pa + 8) ws

-- saving (R318, R319, R322)

/-- Some units of SRAM from a first one, numbered from 0. -/
def cutUnits (t : Sparse Unit8) (first n : Nat) : Sparse Unit8 :=
  (t.filter fun e => decide (first ≤ e.1) && decide (e.1 < first + n)).map fun e => (e.1 - first, e.2)

/-- The bytes of a range of SRAM from any place up, as units. -/
def windowUnits (t : Sparse Unit8) (place n : Nat) : Sparse Unit8 :=
  (List.range ((n + 7) / 8)).foldr (fun i a =>
    let bs := (List.range (min 8 (n - 8 * i))).map fun j => sramByte t (place + 8 * i + j)
    let u : Unit8 := { val := BitVec.ofNat 64 (bytesVal bs), pois := anyBad bs }
    if u = {} then a else (i, u) :: a) []

/-- A slot as it is saved: what R318 has emptied is empty, and a trap that arose in the handler is pending. (log 46: DEDUCED) -/
def Slot.kept (x : Slot) : Slot :=
  { x.shiftPend with blk := none, stop := false, stopAt := 0, stopped := false, busy := none, horizon := 0, mxSince := none }

/-- A barrier register as it is saved. -/
def Barrier.kept (b : Barrier) : Barrier := { b with east := false, below := false, rowOut := false, colOut := false, rel := false }

/-- No other block of a block's context is bound to its core (R322). -/
def State.lastOfCtx (s : State) (c : CoreId) (n : Nat) (b : Block) : Bool :=
  (s.core c).table.all fun e => decide (e.1 = n ∨ e.2.ctx ≠ b.ctx) || e.2.boot || e.2.held

/-- What is saved of a block, its numbers relative to its allotments. -/
def State.savedBlock (s : State) (c : CoreId) (n : Nat) (b : Block) (pa : Nat) : Saved :=
  let x := s.core c
  let rank (k : BitVec 4) : BitVec 4 := (s.slot c k).thr
  let hold := s.lastOfCtx c n b
  let y := s.ctx b.ctx
  let seq := if s.ownsSeq c n then some { (s.slab c).seq with msgs := [] } else none
  let modes := y.span.map fun g => Sparse.get 0 (s.slab c).modes g
  let v : Saved :=
    { pa := pa, size := 0, blk := { b with saveReq := none, ph := .todo, undone := [] }
      slots := (x.slotsOf n).map fun k => { (s.slot c k).kept with moved := s.names c k }
      tiles := (List.range b.ntile).map fun i => { x.tile (b.tile0 + i) with busy := 0 }
      rings := (List.range b.nring).map fun i => { x.ring (b.ring0 + i) with desc := (x.ring (b.ring0 + i)).desc - BitVec.ofNat 6 b.desc0 }
      descs := (List.range b.ndesc).map fun i => x.desc (b.desc0 + i)
      bars := (List.range b.nbar).map fun i => (s.bar c (b.bar0 + i)).kept
      cmds := (x.cmds.filter fun e => decide (e.2.blk = n)).map fun e => (e.1, { e.2 with blk := 0, slot := rank e.2.slot })
      mx := b.undone.map fun o => { o with blk := 0, tile := o.tile - b.tile0, qa := o.qa - b.ring0, qb := o.qb - b.ring0 }
      seq := seq
      scratch := cutUnits x.scratch (b.scrbase / 8) ((b.scrsize + 7) / 8)
      hold := hold
      modes := modes
      deep := if hold then cutUnits (s.slab c).units (8192 * y.first) (8192 * y.count)
        else windowUnits (s.slab c).units (s.deepPlace b 0) b.dwsize }
  { v with size := 256 + 8 * v.body.length }

/-- The most bytes that a save of a block takes. -/
def State.saveSize (s : State) (c : CoreId) (n : Nat) (b : Block) : Nat :=
  let v := s.savedBlock c n b 0
  256 + 8 * max ({ v with hold := true } : Saved).body.length ({ v with hold := false } : Saved).body.length

/-- R318: a save request with its address, for a block that is bound, runs and is not being stopped for another reason; the
guard takes no address from which the save would leave hub working memory (R371). -/
def trySaveRequest (c : CoreId) (n : Nat) (pa : Nat) (s : State) : Option State :=
  match Sparse.find (s.core c).table n with
  | none => none
  | some b =>
    if b.boot || b.held || b.saveReq.isSome || b.closing.isSome || !hubWorkingRange pa (s.saveSize c n b) || decide (pa % 4096 ≠ 0) then none
    else some ((s.setBlock c n { b with saveReq := some pa }).stopForSave c n)
def execSaveRequest (c : CoreId) (n : Nat) (pa : Nat) (s : State) : Out := orSame s (trySaveRequest c n pa s)

/-- The faults of a context that a block's slots and commands wait on move to its save (R312). -/
def State.moveFaults (s : State) (c : CoreId) (n : Nat) (b : Block) (pa : Nat) : State :=
  let y := s.ctx b.ctx
  let mine (f : FaultRec) : Bool := decide (f.core = c) && f.saved.isNone && decide ((s.slot c f.slot).blk = some n)
  s.setCtx b.ctx { y with faults := y.faults.map fun f => if mine f then { f with saved := some (pa, (s.slot c f.slot).thr.toNat) } else f }

/-- Where a block is of a started whole launch, every block of the launch has its save request (R290). -/
def State.allAsked (s : State) (b : Block) : Bool :=
  !s.wholeStarted b || s.cores.all fun e => e.2.table.all fun t => !t.2.ofLaunch b.queue b.seq || t.2.saveReq.isSome

/-- R318, R319: the next step of the stop for a save, and at its end the save. A block that owns the sequencer is saved after every
other block of its context on the core, and the blocks of a whole launch when all are asked for (R290; log 86: DEDUCED). -/
def tryBlockSave (c : CoreId) (n : Nat) (s : State) : Option State :=
  match Sparse.find (s.core c).table n with
  | none => none
  | some b =>
    match b.saveReq with
    | none => none
    | some pa =>
      if b.closing.isSome || !s.coreRuns c then none
      else
        match s.stopStep c n b with
        | .wait => none
        | .go t => some t
        | .finished =>
          if (s.ownsSeq c n && !s.lastOfCtx c n b) || !s.allAsked b then none
          else
            let v := s.savedBlock c n b pa
            let t := { s.putWords pa (v.words s.root.boots) with saves := s.saves.filter (fun (w : Saved) => decide (w.pa ≠ pa)) ++ [v] }
            some ((t.moveFaults c n b pa).freeBlock c n)
def execBlockSave (c : CoreId) (n : Nat) (s : State) : Out := orSame s (tryBlockSave c n s)

-- the host's answers (R312)

/-- A slot that a fault suspended goes on: it issues again, or traps at its next turn. -/
def Slot.answered (x : Slot) (f : FaultRec) (replay : Bool) : Slot :=
  { x with st := .running, ftrap := if replay then none else some (f.cause, f.va, f.tpc) }

/-- An answer is applied to the slot or the command of a fault, where it still waits (R254, R291, R312). -/
def State.applyAnswer (s : State) (f : FaultRec) (replay : Bool) : State :=
  let c := f.core
  if f.kind = 4 then
    match Sparse.find (s.core c).cmds f.cmd.toNat with
    | none => s
    | some m =>
      let x := s.slot c m.slot
      match m.st with
      | .faulted _ _ =>
        if x.gen ≠ f.gen then s
        else if replay then s.resumeCmd c f.cmd.toNat m
        else if x.blk = some m.blk ∧ x.st ≠ .exited then s.setSlot c m.slot { x with epend := x.epend ++ [(causeEngine, f.va)] }
        else s
      | .running => s
      | .paused => s
  else
    let x := s.slot c f.slot
    if x.st = .suspended ∧ x.gen = f.gen then s.setSlot c f.slot (x.answered f replay) else s

end Sys2Proof.Machine
end

