-- ==== Sys2Proof/Machine/Tlb.lean ====
section
/-! DEFINITION. The steps of translation (spec/18 R305 to R307): a micro-TLB filled from the cluster's, a walk's start and its end. -/

namespace Sys2Proof.Machine

/-- An entry put in a cache of `cap` entries: the oldest goes when it is full (log 19: DESIGN CHOICE). -/
def putEntry (cap : Nat) (e : TlbEntry) (l : List TlbEntry) : List TlbEntry := (l.drop (l.length + 1 - cap)) ++ [e]

def State.fillMicro (s : State) (c : CoreId) (e : TlbEntry) : State := s.setCore c { s.core c with utlb := putEntry 32 e (s.core c).utlb }
def State.fillCluster (s : State) (c : CoreId) (e : TlbEntry) : State :=
  s.setCluster (CoreId.clusterKey c) { s.cluster (CoreId.clusterKey c) with tlb := putEntry 1024 e (s.cluster (CoreId.clusterKey c)).tlb }

/-- The cluster TLB's entry for a miss. -/
def State.clusterHit (s : State) (m : Miss) : Option TlbEntry := (s.cluster (CoreId.clusterKey m.core)).tlb.find? fun e => e.covers m.ctx m.vpn

/-- A miss of the same core and page that has met no fault: one fill answers both. -/
def Miss.sameFill (m x : Miss) : Bool := decide (m.core = x.core ∧ m.ctx = x.ctx ∧ m.vpn = x.vpn ∧ m.fault = none)

/-- R306: the n-th miss of a core's die, which is the core's, is filled from the cluster TLB, 2 rotations after it began. -/
def tryMicroTlbFill (c : CoreId) (n : Nat) (s : State) : Option State :=
  let d := s.die c.die
  match d.misses[n]? with
  | none => none
  | some m =>
    if m.core ≠ c ∨ m.fault.isSome ∨ d.clock + 1 < m.since + 32 ∨ d.held ∨ d.stopped then none
    else
      match s.clusterHit m with
      | none => none
      | some e => some ((s.dropMisses c.die fun x => x.sameFill m).fillMicro c e)
def execMicroTlbFill (c : CoreId) (n : Nat) (s : State) : Out := orSame s (tryMicroTlbFill c n s)

/-- A walk for a page is under way. -/
def Die.walks? (d : Die) (m : Miss) : Bool := d.walks.any fun w => decide (w.ctx = m.ctx ∧ w.vpn = m.vpn)

/-- A miss needs a walk of its own. -/
def State.needsWalk (s : State) (d : BitVec 3) (m : Miss) : Bool :=
  m.fault.isNone && !(s.die d).walks? m && (s.clusterHit m).isNone

/-- R307: the n-th miss of a die starts a walk: a walk is free, and no earlier miss waits for one. -/
def tryPageWalkStart (die : BitVec 3) (n : Nat) (s : State) : Option State :=
  let d := s.die die
  match d.misses[n]? with
  | none => none
  | some m =>
    if d.held || !s.needsWalk die m || (d.misses.take n).any (s.needsWalk die) || decide (64 ≤ d.walks.length) then none
    else some (s.setDie die { d with walks := d.walks ++ [{ ctx := m.ctx, vpn := m.vpn, since := d.clock + 1 }] })
def execPageWalkStart (die : BitVec 3) (n : Nat) (s : State) : Out := orSame s (tryPageWalkStart die n s)

/-- Rotations from a die to the home of an address at a moment (R160, R333, R336). -/
def walkRot (d : BitVec 3) (moment pa : Nat) : Nat :=
  if isHost pa then 169 else if isPeer pa then 113
  else if !Config.cached (pa / 64) moment then 40 else if homeDie pa = d then 12 else 20

/-- A miss without a fault that waits on a walk. -/
def Miss.joins (m : Miss) (w : Walk) : Bool := decide (m.ctx = w.ctx ∧ m.vpn = w.vpn ∧ m.fault = none)

/-- A walk's translation fills the micro-TLB of every core that waits on it, and the TLB of each of their clusters once. -/
def State.fillCores (s : State) (e : TlbEntry) : List CoreId → State
  | [] => s
  | c :: cs =>
    let t := s.fillMicro c e
    (if cs.any fun x => decide (CoreId.clusterKey x = CoreId.clusterKey c) then t else t.fillCluster c e).fillCores e cs

/-- R305, R306: the n-th walk of a die ends, after the R160 time of its levels, with every record accepted for its lines applied. It
fills the TLBs of the cores that wait on it, or leaves its fault for each waiting access. -/
def tryPageWalkComplete (die : BitVec 3) (n : Nat) (s : State) : Option State :=
  let d := s.die die
  match takeNth n d.walks with
  | none => none
  | some (w, rest) =>
    let lines := s.walkPath w.vpn 3 (s.ctx w.ctx).ptroot
    let time := 16 * (lines.map (walkRot die w.since)).foldl (· + ·) 0
    if d.held ∨ d.clock + 1 < w.since + time ∨ lines.any (s.tableWaits die) then none
    else
      (s.openRows w.since (lines.map fun pa => pa / 64)).map fun u =>
        let t := u.setDie die { u.die die with walks := rest }
        match s.walkTables w.ctx w.vpn with
        | .fault cause =>
          t.setDie die { t.die die with misses := d.misses.map fun m => if m.joins w then { m with fault := some cause } else m }
        | .page e => (t.dropMisses die fun m => m.joins w).fillCores e ((d.misses.filter fun m => m.joins w).map Miss.core).eraseDups
def execPageWalkComplete (die : BitVec 3) (n : Nat) (s : State) : Out := orSame s (tryPageWalkComplete die n s)

end Sys2Proof.Machine
end

