-- ==== Sys2Proof/Machine/Hub.lean ====
section
/-! DEFINITION. Queues, launches and the slot-table guard (spec/17 R280 to R292, R296), resumption (spec/18 R323, R324), and the
fault queue (R312). -/

namespace Sys2Proof.Machine

-- the launch record (R283)

def recNat (r : BitVec 512) (lo w : Nat) : Nat := r.toNat / 2 ^ lo % 2 ^ w

def lrEntry (r : BitVec 512) : Nat := recNat r 0 48
def lrArgs (r : BitVec 512) : Nat := recNat r 64 48
def lrCsw (r : BitVec 512) : Nat := recNat r 128 48
def lrNthr (r : BitVec 512) : Nat := recNat r 192 4 + 1
def lrNblk (r : BitVec 512) : Nat := recNat r 196 4 + 1
def lrNgrp (r : BitVec 512) : Nat := recNat r 200 9 + 1
def lrNstg (r : BitVec 512) : Nat := recNat r 209 4 + 1
def lrWhole (r : BitVec 512) : Bool := r.getLsbD 213
def lrNtile (r : BitVec 512) : Nat := recNat r 216 6
def lrNring (r : BitVec 512) : Nat := recNat r 222 4
def lrNdesc (r : BitVec 512) : Nat := recNat r 226 7
def lrNbar (r : BitVec 512) : Nat := recNat r 233 3
def lrScrsize (r : BitVec 512) : Nat := recNat r 256 18
def lrDsize (r : BitVec 512) : Nat := recNat r 274 20
def lrLaunch (r : BitVec 512) : Nat := recNat r 320 32
/-- The dependences: in force, queue, count awaited. -/
def lrDep0 (r : BitVec 512) : Bool × Nat × Nat := (r.getLsbD 392, recNat r 384 8, recNat r 400 24)
def lrDep1 (r : BitVec 512) : Bool × Nat × Nat := (r.getLsbD 456, recNat r 448 8, recNat r 464 24)
/-- The blocks of a launch. -/
def lrBlocks (r : BitVec 512) : Nat := lrNblk r * lrNgrp r * lrNstg r

/-- The bits of a launch record that are reserved. -/
def lrReserved : BitVec 512 :=
  bitsAt 48 16 ||| bitsAt 112 16 ||| bitsAt 176 16 ||| bitsAt 214 2 ||| bitsAt 236 20 ||| bitsAt 294 26 ||| bitsAt 352 32
    ||| bitsAt 393 7 ||| bitsAt 424 24 ||| bitsAt 457 7 ||| bitsAt 488 24

-- queues

def State.queue (s : State) (q : Nat) : Option Queue := Sparse.find s.queues q
def State.setQueue (s : State) (q : Nat) (x : Queue) : State := { s with queues := Sparse.set s.queues q x }
/-- The home hub of a queue (R282). -/
def queueDie (q : Byte) : BitVec 3 := BitVec.ofNat 3 q.toNat

/-- A read of a context's structure by the hub, through the context's tables. -/
def State.hubRead (s : State) (n : BitVec 6) (va : Nat) : Option Nat :=
  match s.walkTables n (va / 4096) with
  | .fault _ => none
  | .page e =>
    let pa := (e.ppn + (va / 4096 - e.vpn)) * 4096 + va % 4096
    if e.r && decide (va < 2 ^ 48) && s.reachable pa then some pa else none

/-- The hub of a die reads a line of a context's structure: where it lies, with the machine after; none while it has to wait for the tables' lines or
for that line (R195, R296, R305). -/
def State.hubFetch (s : State) (d : BitVec 3) (n : BitVec 6) (va : Nat) : Option (Option Nat × State) :=
  (s.hubWalk d n va).bind fun t => match t.hubRead n va with
    | none => some (none, t)
    | some pa => if t.tableWaits d pa then none else (t.openRow (pa / 64) t.seqno).map fun u => (some pa, u)

/-- A die restarts its clocks when it is needed (R355). -/
def State.wakeDie (s : State) (d : BitVec 3) : State :=
  if (s.die d).stopped then s.setDie d { s.die d with wake := true } else s

/-- R282, R340: a kick arrives at a spoke. On a CXL spoke it is a doorbell write, whose source is 0x3FFFF. (log 48: DEDUCED) -/
def tryKick (sp : BitVec 5) (fid : BitVec 18) (q : Byte) (n : Nat) (s : State) : Option State :=
  let x := s.spokes[sp.toNat]
  let d := queueDie q
  if !s.spokeOpen sp || (s.die d).held then none
  else
    let s := s.flitIn sp
    let src := if x.cxl then 0x3FFFF else fid
    match s.queue q.toNat with
    | none => some (s.logEvent d 0x0D none sp.toNat q.toNat n 0)
    | some y =>
      if y.ksrc ≠ src then some (s.logEvent d 0x0D (some y.ctx) sp.toNat q.toNat n 0)
      else if (s.ctx y.ctx).state ≠ 1 ∨ n ≤ y.taken then some s
      else
        (s.hubFetch d y.ctx y.qbase).map fun (at_, t) =>
          let prod := match at_ with
            | some pa => (t.baseWord (pa / 8)).toNat
            | none => 0
          (t.setQueue q.toNat { y with target := max y.target (max n prod) }).wakeDie d
def execKick (sp : BitVec 5) (fid : BitVec 18) (q : Byte) (n : Nat) (s : State) : Out := orSame s (tryKick sp fid q n s)

/-- A core of a die takes part: enabled, not fenced, its die not held. -/
def State.takesPart (s : State) (d : BitVec 3) (pos : Nat) : Bool := s.usable d pos && !(s.die d).held

/-- The usable cores of a cluster. -/
def State.clusterCores (s : State) (d : BitVec 3) (cl : Nat) : Nat :=
  ((List.range 1024).filter fun p => decide ((CoreId.ofKey (1024 * d.toNat + p)).cluster = cl) && s.takesPart d p).length

/-- The usable cores, and the clusters with at least `n` of them, of a context's dies. -/
def State.coresOf (s : State) (n : BitVec 6) : Nat :=
  (List.range 8).foldl (fun a d =>
    if (s.ctx n).dies.getLsbD d then a + ((List.range 1024).filter (s.takesPart (BitVec.ofNat 3 d))).length else a) 0
def State.clustersOf (s : State) (n : BitVec 6) (nblk : Nat) : Nat :=
  (List.range 8).foldl (fun a d =>
    if (s.ctx n).dies.getLsbD d then
      a + ((List.range 64).filter fun cl => decide (nblk ≤ s.clusterCores (BitVec.ofNat 3 d) cl)).length
    else a) 0

/-- A dependence in force names a queue that is not the context's (R284 cause 5). -/
def State.depBad (s : State) (n : BitVec 6) (dep : Bool × Nat × Nat) : Bool :=
  dep.1 && match s.queue dep.2.1 with
    | none => true
    | some y => decide (y.ctx ≠ n)

/-- The cause for which a record is refused (R284): the first that holds. -/
def State.refusal (s : State) (n : BitVec 6) (r : BitVec 512) : Option Byte :=
  if r &&& lrReserved ≠ 0 ∨ lrEntry r % 4 ≠ 0 ∨ lrCsw r % 16 ≠ 0 ∨ 196608 < lrScrsize r ∨ 4 < lrNbar r ∨ 64 < lrNdesc r ∨ 8 < lrNring r
      ∨ 32 < lrNtile r then some 1
  else if lrNring r ≠ 0 ∧ lrScrsize r < 2048 * lrNring r then some 2
  else if (s.ctx n).count * 65536 < lrDsize r then some 3
  else if lrWhole r && decide (s.coresOf n < lrBlocks r) then some 4
  else if s.depBad n (lrDep0 r) || s.depBad n (lrDep1 r) then some 5
  else if s.clustersOf n (lrNblk r) < lrNgrp r then some 6
  else none

/-- R281, R284: the monitor reads the next record of a queue, and writes `TAKEN`. -/
def tryLaunchRecordRead (q : Byte) (s : State) : Option State :=
  match s.queue q.toNat with
  | none => none
  | some y =>
    let d := queueDie q
    if y.target ≤ y.taken || (s.die d).held || decide ((s.ctx y.ctx).state ≠ 1) then none
    else
      (s.hubFetch d y.ctx (y.qbase + 64 + 64 * (y.taken % y.qlen))).bind fun (at_, t) =>
        let l : Launch := match at_ with
          | none => { n := y.taken, rec0 := 0, refused := some 1 }
          | some pa =>
            let r := BitVec.ofNat 512 (packBits 64 ((List.range 8).map fun i => (s.baseWord (pa / 8 + i)).toNat))
            { n := y.taken, rec0 := r, refused := s.refusal y.ctx r }
        let y := { y with taken := y.taken + 1, launches := y.launches ++ [l] }
        (t.hubWalk d y.ctx (y.qbase + 8)).map fun t =>
          ((t.setQueue q.toNat y).statusWrite d y.ctx 0 (y.qbase + 8) [BitVec.ofNat 64 y.taken]).2
def execLaunchRecordRead (q : Byte) (s : State) : Out := orSame s (tryLaunchRecordRead q s)

-- the guard (R285 to R289)

/-- A dependence is satisfied (R285). -/
def State.depMet (s : State) (dep : Bool × Nat × Nat) : Bool :=
  !dep.1 || match s.queue dep.2.1 with
    | none => false
    | some y => decide ((y.fin + 2 ^ 24 - dep.2.2) % 2 ^ 24 < 2 ^ 23)

/-- A launch is eligible (R285). -/
def State.eligible (s : State) (y : Queue) (l : Launch) : Bool :=
  decide (l.refused = none ∧ l.ended = none ∧ l.n = y.fin) && s.depMet (lrDep0 l.rec0) && s.depMet (lrDep1 l.rec0)

/-- The launch that a bind record names. -/
def Queue.launch (y : Queue) (b : Block) : Option Launch := y.launches.find? fun l => decide (l.n % 2 ^ 24 = b.seq.toNat)

/-- Two ranges of numbers meet. -/
def meets (a na b nb : Nat) : Bool := decide (0 < na) && decide (0 < nb) && decide (a < b + nb) && decide (b < a + na)

/-- Two blocks' allotments overlap (code 8). -/
def Block.overlaps (a b : Block) : Bool :=
  meets a.scrbase a.scrsize b.scrbase b.scrsize || meets a.tile0 a.ntile b.tile0 b.ntile || meets a.ring0 a.nring b.ring0 b.nring
    || meets a.desc0 a.ndesc b.desc0 b.ndesc || meets a.bar0 a.nbar b.bar0 b.nbar

/-- The reserved bits of a bind record (R286). -/
def brReserved : BitVec 512 :=
  bitsAt 48 16 ||| bitsAt 112 16 ||| bitsAt 166 2 ||| bitsAt 227 5 ||| bitsAt 274 2 ||| bitsAt 294 2 ||| bitsAt 319 1 ||| bitsAt 333 3
    ||| bitsAt 376 8 ||| bitsAt 432 80

/-- The shape of a bind record agrees with its launch (code 2). -/
def Block.agrees (b : Block) (r : BitVec 512) : Bool :=
  decide (b.entry.toNat = lrEntry r) && decide (b.args.toNat = lrArgs r) && decide (b.launch.toNat = lrLaunch r)
    && decide (b.nblkM1.toNat + 1 = lrNblk r) && decide (b.ngrpM1.toNat + 1 = lrNgrp r) && decide (b.nstgM1.toNat + 1 = lrNstg r)
    && decide (b.whole = lrWhole r)

/-- The allotments lie within the core and are at least what the launch asks for (code 7). -/
def Block.fits (b : Block) (r : BitVec 512) : Bool :=
  decide (b.scrbase % 2048 = 0) && decide (b.scrbase + b.scrsize ≤ 196608) && decide (b.tile0 + b.ntile ≤ 32)
    && decide (b.ring0 + b.nring ≤ 8) && decide (b.desc0 + b.ndesc ≤ 64) && decide (b.bar0 + b.nbar ≤ 4)
    && decide (lrNtile r ≤ b.ntile) && decide (lrNring r ≤ b.nring) && decide (lrNdesc r ≤ b.ndesc) && decide (lrNbar r ≤ b.nbar)
    && decide (lrScrsize r ≤ b.scrsize) && decide (lrDsize r ≤ b.dwsize)

/-- Two blocks are of one launch. -/
def Block.sameLaunch (a b : Block) : Bool := !a.boot && decide (a.queue = b.queue) && decide (a.seq = b.seq)
/-- Two blocks are of one cluster group. -/
def Block.sameGroup (a b : Block) : Bool := decide (a.stg = b.stg) && decide (a.grp = b.grp)

/-- The placement of a block keeps R289 (code 12): every other block of its group is in its cluster, and no block of another group
of its stage is. -/
def State.placed (s : State) (c : CoreId) (b : Block) : Bool :=
  s.cores.all fun e =>
    let here := decide (CoreId.clusterKey (CoreId.ofKey e.1) = CoreId.clusterKey c)
    e.2.table.all fun t =>
      !t.2.sameLaunch b || (if t.2.sameGroup b then here else !(decide (t.2.stg = b.stg) && here))

/-- The bits of a bind record that a resumption must keep (R323). -/
def resumeMask : BitVec 512 := bitsAt 128 38 ||| bitsAt 168 8 ||| bitsAt 192 35 ||| bitsAt 232 24

/-- The saved block that a record names. -/
def State.saveAt (s : State) (pa : Nat) : Option Saved := s.saves.find? fun v => decide (v.pa = pa)

/-- The words at an address. -/
def State.wordsAt (s : State) (pa n : Nat) : List Word := (List.range n).map fun i => BitVec.ofNat 64 (s.readMem (pa + 8 * i) 8)

/-- The checks on a resumption (code 11, R323). The saved bytes are those that the guard sealed. (log 45: DEDUCED) -/
def State.mayResume (s : State) (c : CoreId) (b : Block) : Bool :=
  match s.saveAt b.save with
  | none => false
  | some v =>
    let x := s.core c
    let o := v.blk
    let ws := v.words s.root.boots
    hubWorkingRange v.pa v.size && decide (s.wordsAt v.pa ws.length = ws) && decide (b.rec0 &&& resumeMask = o.rec0 &&& resumeMask) && decide (b.nthr = v.slots.length)
      && decide (o.scrsize ≤ b.scrsize) && decide (o.ntile ≤ b.ntile) && decide (o.nring ≤ b.nring) && decide (o.ndesc ≤ b.ndesc)
      && decide (o.nbar ≤ b.nbar) && decide (o.dwsize ≤ b.dwsize)
      && !(s.cores.any fun e => e.2.table.any fun t => t.2.held && decide (t.2.save = b.save)) && s.placed c b
      && v.cmds.all (fun e => (Sparse.find x.cmds e.1).isNone)
      && (if v.hold then x.table.all fun t => decide (t.2.ctx ≠ b.ctx) else (s.windowFail c b 0 b.dwsize).isNone)

/-- A block's deep window takes in a bank group that is fenced (R164, R346; log 52: DEDUCED). -/
def State.windowFenced (s : State) (c : CoreId) (b : Block) : Bool :=
  (s.slab c).fenced.any fun g => meets (s.deepPlace b 0) b.dwsize (65536 * g) 65536

/-- The first check of R287 that a record fails at a core; none where it is accepted. -/
def State.guardCode (s : State) (c : CoreId) (b : Block) : Option Nat :=
  let x := s.core c
  let y := s.ctx b.ctx
  match s.queue b.queue.toNat with
  | none => some 1
  | some q =>
    if y.state ≠ 1 ∨ q.ctx ≠ b.ctx then some 1
    else
      match q.launch b with
      | none => some 2
      | some l =>
        if !b.agrees l.rec0 then some 2
        else if b.rec0 &&& brReserved ≠ 0 ∨ b.nblkM1.toNat < b.blkIx.toNat ∨ b.ngrpM1.toNat < b.grp.toNat ∨ b.nstgM1.toNat < b.stg.toNat
            ∨ b.nthr ≠ lrNthr l.rec0 then some 3
        else if !s.eligible q l then some 4
        else if !s.takesPart c.die c.pos || !y.dies.getLsbD c.die.toNat || s.windowFenced c b then some 5
        else if (List.range 16).any (fun k => b.smask.getLsbD k && !(decide ((s.slot c (BitVec.ofNat 4 k)).st = .unbound)
            && (s.slot c (BitVec.ofNat 4 k)).blk.isNone)) then some 6
        else if !b.fits l.rec0 then some 7
        else if x.table.any fun t => t.2.overlaps b then some 8
        else if y.count * 65536 < b.dwbase + b.dwsize then some 9
        else if x.table.any fun t => t.2.sameLaunch b then some 10
        else if decide (b.save ≠ 0) && !s.mayResume c b then some 11
        else if !s.placed c b then some 12
        else none

-- starting and resuming (R13, R16, R146, R227, R288, R324)

/-- Units without those from a first one up. -/
def clearUnits (t : Sparse Unit8) (first n : Nat) : Sparse Unit8 := t.filter fun e => !(decide (first ≤ e.1) && decide (e.1 < first + n))
/-- A table without a range of numbers. -/
def clearRange {α : Type} (t : Sparse α) (first n : Nat) : Sparse α := t.filter fun e => !(decide (first ≤ e.1) && decide (e.1 < first + n))

/-- A core with a block's allotments as at bind (R146, R227), and its L1 empty (R158). (log 43: DEDUCED) -/
def Core.clearFor (x : Core) (b : Block) : Core :=
  { x with
    scratch := clearUnits x.scratch (b.scrbase / 8) ((b.scrsize + 7) / 8)
    tiles := clearRange x.tiles b.tile0 b.ntile
    rings := clearRange x.rings b.ring0 b.nring
    descs := clearRange x.descs b.desc0 b.ndesc
    l1 := [] }

/-- A slot that starts (R13, R16): its generation goes up by one. -/
def Slot.start (x : Slot) (b : Block) (n : Nat) (thr : BitVec 4) : Slot :=
  { st := .running, pc := b.entry, g := (Vector.replicate 64 ({} : Reg 64)).set 1 { val := b.args.setWidth 64 }, thr := thr, gen := x.gen + 1,
    blk := some n }

/-- A block starts afresh. -/
def State.startFresh (s : State) (c : CoreId) (n : Nat) (b : Block) : State :=
  let x := (s.core c).clearFor b
  s.setCore c { x with
    slots := x.slots.map fun y => if y.blk = some n then y.start b n y.thr else y
    table := Sparse.set x.table n { b with held := false } }

/-- A fault that waited for a saved block is the new core's (R312, R324). -/
def FaultRec.moved (f : FaultRec) (c : CoreId) (ks : List (BitVec 4)) (rank : Nat) : FaultRec :=
  { f with core := c, slot := ks.getD rank 0, saved := none }

/-- The faults of a saved block move to its new core, and the answers that it holds are applied. -/
def State.takeFaults (s : State) (c : CoreId) (ks : List (BitVec 4)) (ctx : BitVec 6) (pa : Nat) : State :=
  let y := s.ctx ctx
  let mine (f : FaultRec) : Option Nat := match f.saved with
    | some (a, rank) => if a = pa then some rank else none
    | none => none
  let rest := y.faults.filterMap fun f => match mine f with
    | none => some f
    | some rank => if f.answer.isSome then none else some (f.moved c ks rank)
  let s' := s.setCtx ctx { y with faults := rest }
  y.faults.foldl (fun t f => match mine f, f.answer with
    | some rank, some replay => t.applyAnswer (f.moved c ks rank) replay
    | _, _ => t) s'

/-- The sequencer of a resumed block: a run that the save stopped goes on (R324). -/
def Sequencer.resumed (q : Sequencer) (owner : BitVec 4) (now : Nat) : Sequencer :=
  if q.scause = 5 then { q with owner := owner, st := .running, scause := 0, due := now } else { q with owner := owner, due := now }

/-- The units of SRAM written at a place, byte for byte. -/
def pasteUnits (t : Sparse Unit8) (place n : Nat) (us : Sparse Unit8) : Sparse Unit8 :=
  (List.range ((n + 7) / 8)).foldl (fun t i =>
    let u := Sparse.get ({} : Unit8) us i
    putBytes 10 t (place + 8 * i) (bytesOf (min 8 (n - 8 * i)) u.val.toNat u.pois)) t

/-- A saved block's storage put into its new core and slab. -/
def State.restoreStorage (s : State) (c : CoreId) (n : Nat) (b : Block) (v : Saved) : State :=
  let x := (s.core c).clearFor b
  let put {α : Type} (t : Sparse α) (first : Nat) (l : List α) : Sparse α := l.zipIdx.foldl (fun t (a, i) => Sparse.set t (first + i) a) t
  let b' : Block := { b with held := false, cwm := v.blk.cwm, nalloc := v.blk.nalloc, chkv := v.blk.chkv, yieldReq := v.blk.yieldReq }
  let s := s.setCore c { x with
    scratch := v.scratch.foldl (fun t e => putUnit t (b.scrbase / 8 + e.1) e.2) x.scratch
    tiles := put x.tiles b.tile0 v.tiles
    rings := put x.rings b.ring0 (v.rings.map fun r => { r with desc := r.desc + BitVec.ofNat 6 b.desc0 })
    descs := put x.descs b.desc0 v.descs
    bars := put x.bars b.bar0 v.bars
    table := Sparse.set x.table n b' }
  let y := s.ctx b.ctx
  let z := s.slab c
  if v.hold then
    let z := (y.span.zip v.modes).foldl (fun z (g, mode) => z.putMode g mode) z
    s.setSlab c { z with units := v.deep.foldl (fun t e => putUnit t (8192 * y.first + e.1) e.2) z.units }
  else s.setSlab c { z with units := pasteUnits z.units (s.deepPlace b 0) v.blk.dwsize v.deep }

/-- A saved command enters its slot again: a paused one goes on, with its generator taken anew (R52, R324). -/
def State.restoreCmd (s : State) (c : CoreId) (n : Nat) (ks : List (BitVec 4)) (i : Nat) (m : Cmd) : State :=
  let m := { m with blk := n, slot := ks.getD m.slot.toNat 0 }
  if m.st = .paused then s.resumeCmd c i m else s.setCmd c i m

/-- A saved operation enters the queue again, with its claims and its busy count; a TCVT that rounds stochastically keeps the generator value of its issue,
of which R52 and R324 do not say what becomes (log 91: DESIGN CHOICE). -/
def State.restoreOp (s : State) (c : CoreId) (n : Nat) (b : Block) (o : MxOp) : State :=
  let o := { o with blk := n, tile := o.tile + b.tile0, qa := o.qa + b.ring0, qb := o.qb + b.ring0, issued := s.clock c }
  let s := (s.setCore c { s.core c with mx := (s.core c).mx ++ [o] }).moveClaim c o 1
  let t := (s.core c).tile o.tile
  s.setTile c o.tile { t with busy := t.busy + 1 }

/-- A saved block resumes on a core (R324). -/
def State.resumeBlock (s : State) (c : CoreId) (n : Nat) (b : Block) (v : Saved) : State :=
  let ks := (s.core c).slotsOf n
  let s := s.restoreStorage c n b v
  let s := (ks.zip v.slots).foldl (fun t (k, x) => t.setSlot c k { x with blk := some n }) s
  let s := v.cmds.foldl (fun t e => t.restoreCmd c n ks e.1 e.2) s
  let s := v.mx.foldl (fun t o => t.restoreOp c n b o) s
  let s := match v.seq with
    | some q => s.setSeq c (q.resumed (ks.getD (v.blk.rankOf q.owner).toNat 0) (s.clock c))
    | none => s
  { s.takeFaults c ks b.ctx v.pa with saves := s.saves.filter fun w => decide (w.pa ≠ v.pa) }

/-- A bound or held block starts, afresh or from its save. -/
def State.startBlock (s : State) (c : CoreId) (n : Nat) (b : Block) : State :=
  match if b.save = 0 then none else s.saveAt b.save with
  | none => s.startFresh c n b
  | some v => s.resumeBlock c n b v

/-- The held blocks of a launch: core and table number. -/
def State.heldOf (s : State) (b : Block) : List (CoreId × Nat × Block) :=
  s.cores.flatMap fun e => (e.2.table.filter fun t => t.2.held && t.2.sameLaunch b).map fun t => (CoreId.ofKey e.1, t.1, t.2)

/-- The lowest number that a core's table does not use. -/
def Core.freeEntry (x : Core) : Nat := ((List.range 17).find? fun n => (Sparse.find x.table n).isNone).getD 0

/-- The slots of a mask are taken by a block, with their ranks (R288). -/
def Core.claimSlots (x : Core) (n : Nat) (mask : BitVec 16) : Core :=
  (List.range 16).foldl (fun x k =>
    if mask.getLsbD k then
      x.setSlot (BitVec.ofNat 4 k) { x.slots[(BitVec.ofNat 4 k).toNat] with blk := some n, thr := BitVec.ofNat 4 (popNat k mask.toNat) }
    else x) x

/-- The launch of a whole block has started. -/
def State.markStarted (s : State) (b : Block) : State :=
  match s.queue b.queue.toNat with
  | none => s
  | some y => s.setQueue b.queue.toNat
      { y with launches := y.launches.map fun l => if l.n % 2 ^ 24 = b.seq.toNat then { l with started := true } else l }

/-- R287, R288: a record is committed at a core: rejected and counted with its code, started, or held until the last block of its
whole launch is there. -/
def tryBindRecordCommit (c : CoreId) (r : BitVec 512) (s : State) : Option State :=
  let b : Block := { rec0 := r, held := r.getLsbD 226 }
  match s.guardCode c b with
  | some code => some (s.logEvent c.die 0x0E (if code = 1 then none else some b.ctx) c.pos 0 code 0)
  | none =>
    let n := (s.core c).freeEntry
    let x := (s.core c).claimSlots n b.smask
    let t := (s.setCore c { x with table := Sparse.set x.table n b }).wakeDie c.die
    if b.whole then
      let hs := t.heldOf b
      if hs.length < (b.nblkM1.toNat + 1) * (b.ngrpM1.toNat + 1) * (b.nstgM1.toNat + 1) then some t
      else some ((hs.foldl (fun t h => t.startBlock h.1 h.2.1 h.2.2) t).markStarted b)
    else some (t.startBlock c n b)
def execBindRecordCommit (c : CoreId) (r : BitVec 512) (s : State) : Out := orSame s (tryBindRecordCommit c r s)

/-- R288: the hub withdraws a held record. -/
def tryBindRecordWithdraw (c : CoreId) (n : Nat) (s : State) : Option State :=
  match Sparse.find (s.core c).table n with
  | none => none
  | some b =>
    if b.held then
      let x := s.core c
      some ((s.setCore c { x with
        table := Sparse.del x.table n
        slots := x.slots.map fun y => if y.blk = some n then { y with blk := none, thr := 0 } else y }).returnHolding c b.ctx)
    else none
def execBindRecordWithdraw (c : CoreId) (n : Nat) (s : State) : Out := orSame s (tryBindRecordWithdraw c n s)

-- completion (R291, R292)

/-- A block of a launch has completed: it is counted, and its slots' names are kept (R291). -/
def State.countBlock (s : State) (b : Block) (names : List Nat) : State :=
  match s.queue b.queue.toNat with
  | none => s
  | some y => s.setQueue b.queue.toNat { y with launches := y.launches.map fun l =>
      if l.n % 2 ^ 24 = b.seq.toNat then { l with blocks := l.blocks + 1, names := l.names ++ names } else l }

/-- Every slot of the block has exited and its work is done (R291). -/
def State.blockIdle (s : State) (c : CoreId) (n : Nat) : Bool :=
  let x := s.core c
  x.allExited n && x.cmds.all (fun e => decide (e.2.blk ≠ n)) && x.mx.all (fun o => decide (o.blk ≠ n)) && x.stores.isEmpty
    && !(s.ownsSeq c n && decide ((s.slab c).seq.st = .running))

/-- How the completion of a block stands: a closed block is stopped first (R311), any block drains (R291). -/
def State.completing (s : State) (c : CoreId) (n : Nat) (b : Block) : StopStep :=
  if b.closing.isSome then s.stopStep c n b
  else if b.boot || b.held || !s.blockIdle c n then .wait
  else if b.ph ≠ .sent then s.blockDrain c n b
  else if !s.released 3 (s.blockNames c n) then .wait
  else .finished

/-- R291, R311: the next step of a block's completion; at its end the slots are unbound and the block is counted. A record that was only
held is not. -/
def tryBlockComplete (c : CoreId) (n : Nat) (s : State) : Option State :=
  match Sparse.find (s.core c).table n with
  | none => none
  | some b =>
    if !s.coreRuns c then none
    else
      match s.completing c n b with
      | .wait => none
      | .go t => some t
      | .finished =>
        let t := s.freeBlock c n
        some (if b.held then t else t.countBlock b (s.blockNames c n))
def execBlockComplete (c : CoreId) (n : Nat) (s : State) : Out := orSame s (tryBlockComplete c n s)

/-- A block of a launch is bound somewhere; one on a held die is past closing (R346; log 16: DEDUCED). -/
def State.launchBound (s : State) (q : Byte) (l : Launch) : Bool :=
  s.cores.any fun e => !(s.die (CoreId.ofKey e.1).die).held && e.2.table.any fun t => t.2.ofLaunch q (BitVec.ofNat 24 l.n)

/-- The completion status word (R292). -/
def Launch.status (l : Launch) (st : Nat) (cause : Byte) (clock : Nat) : List Word :=
  [BitVec.ofNat 64 (2 ^ 62 * st + 2 ^ 54 * cause.toNat + l.blocks % 2 ^ 32), BitVec.ofNat 64 (2 ^ 32 * (clock % 2 ^ 32) + lrLaunch l.rec0)]

/-- The completion status word is written, where the launch has one (R291, R296), once the tables can be walked; it has none of a bad address.
(log 47: DEDUCED) -/
def State.writeCsw (s : State) (q : Byte) (y : Queue) (l : Launch) (st : Nat) (cause : Byte) : Option State :=
  let d := queueDie q
  let csw := lrCsw l.rec0
  let sent (t : State) (ids : List Nat) : State :=
    t.setQueue q.toNat { y with launches := y.launches.map fun m => if m.n = l.n then { m with csw := some ids } else m }
  if csw = 0 ∨ csw % 16 ≠ 0 then some (sent s [])
  else (s.hubWalk d y.ctx csw).map fun t =>
    let (ok, u) := t.statusWrite d y.ctx 0 csw (l.status st cause (s.die d).clock)
    sent u (if ok then t.nextIds 2 else [])

/-- `DONE` goes past a launch, once the tables can be walked (R291, R296). -/
def State.writeDone (s : State) (q : Byte) (y : Queue) (l : Launch) : Option State :=
  let y := { y with fin := y.fin + 1, launches := y.launches.filter fun m => decide (m.n ≠ l.n) }
  (s.hubWalk (queueDie q) y.ctx (y.qbase + 16)).map fun t =>
    ((t.setQueue q.toNat y).statusWrite (queueDie q) y.ctx 0 (y.qbase + 16) [BitVec.ofNat 64 y.fin]).2

/-- The last steps of a launch, in their order (R291): the completion status word, and once that is applied `DONE`. -/
def State.finishLaunch (s : State) (q : Byte) (y : Queue) (l : Launch) (st : Nat) (cause : Byte) : Option State :=
  match l.csw with
  | none => s.writeCsw q y l st cause
  | some ids => if s.unapplied ids then none else s.writeDone q y l

/-- The launch that is next in its queue. -/
def Queue.next (y : Queue) : Option Launch := y.launches.find? fun l => decide (l.n = y.fin)

/-- R291: a launch whose blocks have all completed, or that was ended and has none left, completes once the records that its
blocks drained are applied. -/
def tryLaunchComplete (q : Byte) (s : State) : Option State :=
  match s.queue q.toNat with
  | none => none
  | some y =>
    match y.next with
    | none => none
    | some l =>
      if (s.die (queueDie q)).held || l.refused.isSome || s.movedWaits l.names || decide ((s.ctx y.ctx).state ≠ 1) then none
      else
        match l.ended with
        | some cause => if s.launchBound q l then none else s.finishLaunch q y l 2 cause
        | none => if l.blocks = lrBlocks l.rec0 then s.finishLaunch q y l 1 0 else none
def execLaunchComplete (q : Byte) (s : State) : Out := orSame s (tryLaunchComplete q s)

/-- R284: a refused launch completes when it is next in its queue. -/
def tryRefusedLaunchComplete (q : Byte) (s : State) : Option State :=
  match s.queue q.toNat with
  | none => none
  | some y =>
    match y.next with
    | none => none
    | some l =>
      match l.refused with
      | none => none
      | some cause => if (s.die (queueDie q)).held then none else s.finishLaunch q y l 3 cause
def execRefusedLaunchComplete (q : Byte) (s : State) : Out := orSame s (tryRefusedLaunchComplete q s)

-- the fault queue (R312)

/-- The words of a fault record. -/
def FaultRec.words (f : FaultRec) : List Word :=
  [f.va &&& 0xFFFFFFFFFFFF, f.pc,
   BitVec.ofNat 64 (2 ^ 8 * f.kind.toNat + 2 ^ 12 * f.cause.toNat + 2 ^ 20 * f.core.die.toNat + 2 ^ 23 * f.score.toNat
     + 2 ^ 33 * f.slot.toNat + 2 ^ 37 * f.cmd.toNat + 2 ^ 48 * f.gen.toNat),
   BitVec.ofNat 64 (f.seq % 2 ^ 32 + 2 ^ 32 * (f.clock % 2 ^ 32))]

/-- An answer of a fault, applied now or kept with the saved block (R312). -/
def State.answerFault (s : State) (n : BitVec 6) (f : FaultRec) (replay : Bool) : State :=
  let y := s.ctx n
  if f.saved.isSome then
    s.setCtx n { y with faults := y.faults.map fun g => if g.seq = f.seq then { g with answer := some replay } else g }
  else (s.setCtx n { y with faults := y.faults.filter fun g => decide (g.seq ≠ f.seq) }).applyAnswer f replay

/-- R312: the oldest fault without a record gets its record, once the queue has room; one whose record cannot be written is delivered
to the thread (R296). -/
def tryFaultRecordWrite (ctx : BitVec 6) (s : State) : Option State :=
  let y := s.ctx ctx
  match y.faults.find? fun f => !f.written && f.answer.isNone with
  | none => none
  | some f =>
    let d := f.core.die
    let entry := y.fqbase + 64 + 32 * (y.fprod % y.fqsize)
    if (s.die d).held then none
    else
      (s.hubFetch d ctx (y.fqbase + 8)).bind fun (at_, t) =>
        if at_.any fun pa => decide (y.fqsize ≤ y.fprod - (t.baseWord (pa / 8)).toNat) then none
        else ((t.hubWalk d ctx entry).bind fun t => t.hubWalk d ctx y.fqbase).map fun t =>
          let ids := t.nextIds 4
          let (ok1, t) := t.statusWrite d ctx f.core.pos entry f.words
          if !ok1 then t.answerFault ctx f false
          else
            let (ok2, t) := t.statusWrite d ctx f.core.pos y.fqbase [BitVec.ofNat 64 (y.fprod + 1)] ids
            if !ok2 then t.answerFault ctx f false
            else t.setCtx ctx { t.ctx ctx with
              fprod := y.fprod + 1
              faults := (t.ctx ctx).faults.map fun g => if g.seq = f.seq then { g with written := true } else g }
def execFaultRecordWrite (ctx : BitVec 6) (s : State) : Out := orSame s (tryFaultRecordWrite ctx s)

/-- R317: the hub sets a block's yield request. -/
def tryYieldRequestSet (c : CoreId) (n : Nat) (s : State) : Option State :=
  match Sparse.find (s.core c).table n with
  | none => none
  | some b => if b.boot || b.held || b.yieldReq then none else some (s.setBlock c n { b with yieldReq := true })
def execYieldRequestSet (c : CoreId) (n : Nat) (s : State) : Out := orSame s (tryYieldRequestSet c n s)

end Sys2Proof.Machine
end

