-- ==== Sys2Proof/Machine/Fabric.lean ====
section
/-! DEFINITION. Spokes and routes (spec/20 R329, R331; spec/21 R346, R347), the host's accesses and the host agent (spec/20 R335 to R338), and
collective blocks (R342). -/

namespace Sys2Proof.Machine

/-- The die of a spoke, and its number within the die (R329). -/
def spokeDie (sp : BitVec 5) : BitVec 3 := BitVec.ofNat 3 (sp.toNat / 4)
def spokeK (sp : BitVec 5) : Nat := sp.toNat % 4

-- links (R331, R346, R347)

/-- R331: a flit fails its check and is sent again; at 64 times in a row the spoke is to be fenced (R346). (log 59: DEDUCED) -/
def tryFlitReplay (sp : BitVec 5) (s : State) : Option State :=
  let x := s.spokes[sp.toNat]
  if x.fenced || x.cxl || decide (64 ≤ x.replays) then none else some (s.setSpoke sp.toNat { x with replays := x.replays + 1 })
def execFlitReplay (sp : BitVec 5) (s : State) : Out := orSame s (tryFlitReplay sp s)

/-- R346: a spoke is fenced, after 64 replays of one flit or a failed retraining. -/
def trySpokeFence (sp : BitVec 5) (retraining : Bool) (s : State) : Option State :=
  let x := s.spokes[sp.toNat]
  if x.fenced || !(retraining || decide (64 ≤ x.replays)) then none
  else some ((s.setSpoke sp.toNat { x with fenced := true }).logEvent (spokeDie sp) 0x07 none sp.toNat 0 0 0)
def execSpokeFence (sp : Failing) (s : State) : Out := orSame s (trySpokeFence sp.unit sp.training s)

/-- The spokes of a die that carry peer traffic: neither fenced nor in CXL personality (R331). -/
def State.peerSpokes (s : State) (d : BitVec 3) : BitVec 4 :=
  (List.range 4).foldl (fun a k =>
    let x := s.spoke (4 * d.toNat + k)
    if x.fenced || x.cxl then a else a ||| BitVec.ofNat 4 (2 ^ k)) 0

/-- R331: the routes of a die are recomputed once a spoke of it is fenced. The change begins, so that nothing more goes out on the old route, and
is done when nothing is in flight there: no record that a peer has accepted from the die is still to be applied (log 80: DEDUCED). -/
def tryRouteChange (die : BitVec 3) (s : State) : Option State :=
  let d := s.die die
  let dest := s.peerSpokes die
  if d.held then none
  else match d.routing with
    | none => if d.routes = dest then none else some (s.setDie die { d with routing := some dest })
    | some _ =>
      if s.peerq.any fun a => decide (a.r.sdie = die) then none else some (s.setDie die { d with routes := dest, routing := none })
def execRouteChange (die : BitVec 3) (s : State) : Out := orSame s (tryRouteChange die s)

/-- Every launch with a slot of some names, bound or completed, ends (R347). -/
def State.endLaunchesOf (s : State) (names : List Nat) (cause : Byte) : State :=
  let hit (l : List Nat) : Bool := l.any fun n => names.contains n
  let bound : List (BitVec 8 × BitVec 24) := s.cores.flatMap fun e => e.2.table.filterMap fun t =>
    if !t.2.boot && hit (s.blockNames (CoreId.ofKey e.1) t.1) then some (t.2.queue, t.2.seq) else none
  let done : List (BitVec 8 × BitVec 24) := s.queues.flatMap fun e => e.2.launches.filterMap fun l =>
    if hit l.names then some (BitVec.ofNat 8 e.1, BitVec.ofNat 24 l.n) else none
  (bound ++ done).foldl (fun t x => t.endLaunch x.1 x.2 cause) s

/-- R347: the n-th record on its way, homed on a held die, on a peer or in host memory, has not been accepted for 200 µs: it is dropped and
counted, and the launch that issued it ends: that of its accesses, or of its engine command. One that came in through a spoke is of no context here. -/
def tryRecordUndeliverable (n : Nat) (s : State) : Option State :=
  match takeNth n s.transit with
  | none => none
  | some (t, rest) =>
    let pa := 8 * t.r.key
    let lost := if place pa = 0 then (s.die (homeDie pa)).held else if isHost pa then !s.hostUp t.die else true
    if !lost || decide ((s.die t.die).clock < t.since + 600000) then none
    else
      let u := ({ s with transit := rest } : State).logEvent t.die 0x0F (if t.src < 8 then some t.r.ctx else none) 0 0 1 0
      some (u.endLaunchesOf (if t.r.eng then t.r.movers else t.r.srcs) 0x06)
def execRecordUndeliverable (n : Nat) (s : State) : Out := orSame s (tryRecordUndeliverable n s)

-- the host's accesses to device memory (R335, R337, R338, R371)

/-- The key words of some bytes, of which those that are not enabled are left out: the key, the bytes it takes, its value. -/
def wordPieces : Nat → Nat → List (Option Byte) → List (Nat × Byte × Word)
  | 0, _, _ => []
  | f + 1, pa, bs =>
    if bs = [] then []
    else
      let o := pa % 8
      let h := bs.take (8 - o)
      let rest := wordPieces f (pa + h.length) (bs.drop (8 - o))
      if h.all fun b => b.isNone then rest
      else
        (pa / 8, BitVec.ofNat 8 (packBits 1 (h.map fun b => if b.isSome then 1 else 0) * 2 ^ o),
          BitVec.ofNat 64 (leNat (h.map fun b => b.getD 0) * 2 ^ (8 * o))) :: rest

/-- A host may write a key word: outside the hub-reserved range, or a log's `CONSR` (R350, R371). -/
def hostMayWrite (key : Nat) : Bool :=
  !hubReserved (8 * key) || (List.range 8).any fun d =>
    let die := BitVec.ofNat 3 d
    decide (8 * key = hubPage die 0 + 16) || decide (8 * key = hubPage die 129 + 16)

/-- The records of a host write or of a collective block, on the way from a source of R294's round to their homes, with their numbers (R337, R342). -/
def State.sendHost (s : State) (sp : BitVec 5) (src : Nat) (skind : BitVec 2) (pois : Bool) : List (Nat × Byte × Word) → State × List Nat
  | [] => (s, [])
  | (key, mask, v) :: ws =>
    if !hostMayWrite key then s.sendHost sp src skind pois ws
    else
      let r := setRec key v mask 0 (spokeDie sp) (BitVec.ofNat 10 (spokeK sp)) skind pois [] true
      let (u, ids) := (s.sendRec (spokeDie sp) src r).sendHost sp src skind pois ws
      (u, s.seqno :: ids)

/-- R337: a host write comes in; the host is one source of the acceptance at a home die (R294). -/
def tryHostWrite (sp : BitVec 5) (pa : Nat) (data : List (Option Byte)) (pois : Bool) (s : State) : Option State :=
  let ws := wordPieces (data.length + 1) pa data
  if !s.spokeOpen sp || decide (ws = []) then none
  else some ((s.flitIn sp).sendHost sp 40 1 pois ws).1
/-- An address that no memory of the device holds stops the run. -/
def execHostWrite (sp : BitVec 5) (pa : Nat) (data : List (Option Byte)) (pois : Bool) (s : State) : Out :=
  if 2 ^ 40 < pa + data.length then .fault .addressOutsideSpace else orSame s (tryHostWrite sp pa data pois s)

/-- Some spoke of the device is in CXL personality. -/
def State.hasCxl (s : State) : Bool := s.spokes.any fun x => x.cxl

/-- A CXL host may hold a line from now on (R338); where the filter is full, the lowest other line whose recall is not yet out is recalled
(log 83: DESIGN CHOICE). -/
def State.noteHostLine (s : State) (line : Nat) : State :=
  let d := homeDie (64 * line)
  let x := s.die d
  let free := x.snoop.filter fun l => decide (l ≠ line) && !x.snooped.contains l
  let out := if Config.snoopCap < free.length then match free with
    | l :: _ => insertNum l x.snooped
    | [] => x.snooped
    else x.snooped
  s.setDie d { x with snoop := insertNum line x.snoop, snooped := out }

/-- R337, R338: a host read returns the bytes as applied when it is served, not while a line of them is being recalled, nor between two records of an
engine's write to one. It may open rows (R355). -/
def tryHostRead (pa n : Nat) (s : State) : Option State :=
  let lines := linesOf pa n
  if lines.any (fun l => let d := s.die (homeDie (64 * l)); d.held || d.snooped.contains l || s.halfWritten l) || decide (n = 0) || !s.root.ready then none
  else
    let out := (List.range n).map fun i => Memory.read s.mem (pa + i)
    let po := (List.range n).any fun i => s.keyPois ((pa + i) / 8)
    (s.openRows s.seqno lines).map fun t =>
      let t := { t.tick1 with readOut := out, readPois := po }
      if t.hasCxl then lines.foldl State.noteHostLine t else t
/-- An address that no memory of the device holds stops the run. -/
def execHostRead (pa n : Nat) (s : State) : Out :=
  if 2 ^ 40 < pa + n then .fault .addressOutsideSpace else orSame s (tryHostRead pa n s)

/-- R338: the host answers a BISnpInv; a line it had modified is written back ahead of the record that waits, but for words that no
host may write (R371). (log 51: DEDUCED) Whether the write-back carries poison is not stated: a free value (log 100: DESIGN CHOICE). -/
def tryBirspi (die : BitVec 3) (line : Nat) (dirty : Option (List Byte)) (s : State) : Option State :=
  let d := s.die die
  if !d.snooped.contains line then none
  else
    let src := (s.hostDie die).getD die
    let ws := (wordPieces 65 (64 * line) (((dirty.getD []).take 64).map some)).filter fun w => hostMayWrite w.1
    let back := ws.zipIdx.map fun (w, i) => (⟨s.seqno + i, setRec w.1 w.2.2 w.2.1 0 src 0 1 ((Config.freeWord s.fresh).getLsbD 0) [] true⟩ : Accepted)
    let t : State := { s with seqno := s.seqno + ws.length, fresh := s.fresh + 1 }
    some (t.setDie die { d with
      snooped := d.snooped.filter fun l => decide (l ≠ line)
      snoop := d.snoop.filter fun l => decide (l ≠ line)
      acceptq := back ++ d.acceptq })
def execBirspi (die : BitVec 3) (line : Nat) (dirty : Option (List Byte)) (s : State) : Out := orSame s (tryBirspi die line dirty s)

-- the host agent (R336)

/-- R336: the agent of a die applies its oldest record to host memory and writes the line back; on a held die too it applies what it has accepted, and
accepts no more (R346, R348; log 16: DEDUCED). -/
def tryHostAgentApply (die : BitVec 3) (s : State) : Option State :=
  let d := s.die die
  match d.hostq with
  | [] => none
  | a :: rest =>
    some ((s.setDie die { d with hostq := rest, hostGo := d.hostGo ++ [a] }).applyToBase die a.r)
def execHostAgentApply (die : BitVec 3) (s : State) : Out := orSame s (tryHostAgentApply die s)

/-- R336: the oldest write-back gets its global-observation response: its record is completed by the host. -/
def tryGlobalObservationResponse (die : BitVec 3) (s : State) : Option State :=
  let d := s.die die
  match d.hostGo with
  | [] => none
  | _ :: rest => some (s.setDie die { d with hostGo := rest })
def execGlobalObservationResponse (die : BitVec 3) (s : State) : Out := orSame s (tryGlobalObservationResponse die s)

-- what comes from outside and is in no row of the table

/-- A peer applies the oldest record that it has accepted (R221, R333). -/
def tryPeerApply (s : State) : Option State :=
  match s.peerq with
  | [] => none
  | _ :: rest => some { s with peerq := rest }

/-- A record of another device, with that device's source and context, comes in: at its home it is one of the spoke's (R187, R294, R333); one for the
hub-reserved range is dropped (R371). -/
def tryPeerRecord (sp : BitVec 5) (r : Rec) (s : State) : Option State :=
  let pa := 8 * r.key
  if !s.spokeOpen sp || s.spokes[sp.toNat].cxl || decide (place pa ≠ 0) then none
  else if !hostMayWrite r.key then some (s.flitIn sp)
  else some ((s.flitIn sp).sendRec (spokeDie sp) (8 + sp.toNat) { r with skind := 2, srcs := [], movers := [], unit := 0 })

/-- The host stores a byte into its own memory (R332, R339). -/
def tryHostStore (pa : Nat) (b : Byte) (s : State) : Option State := if isHost pa then some (s.writeMem pa b.toNat 1) else none

-- collective blocks (R270, R342)

/-- R342: a collective block arrives at an Avbaug spoke; while one waits for room in the gateway queue, nothing more arrives there. -/
def tryCollectiveBlock (sp : BitVec 5) (coll : BitVec 16) (idx : BitVec 32) (fin : Bool) (pa : Nat) (data : List Byte) (pois : Bool)
    (s : State) : Option State :=
  let ws := wordPieces (data.length + 1) pa (data.map some)
  if !s.spokeOpen sp || s.spokes[sp.toNat].cxl || decide (256 < data.length ∨ 2 ^ 40 < pa + data.length) then none
  else
    let (t, ids) := (s.flitIn sp).sendHost sp (8 + sp.toNat) 2 pois ws
    some (t.setSpoke sp.toNat { t.spoke sp.toNat with colls := (t.spoke sp.toNat).colls ++ [⟨coll, idx, fin, ids⟩] })
def execCollectiveBlock (sp : BitVec 5) (coll : BitVec 16) (idx : BitVec 32) (fin : Bool) (pa : Nat) (data : BlockData) (s : State) : Out :=
  orSame s (tryCollectiveBlock sp coll idx fin pa data.bytes data.pois s)

/-- The gateway queue entry of a block (R270). -/
def Coll.entry (x : Coll) (sp : BitVec 5) : Word :=
  BitVec.ofBool x.fin ++ (0 : BitVec 7) ++ sp.setWidth 8 ++ x.coll ++ x.idx

/-- R342: a block whose records are applied enters the gateway queue, the oldest such block first. -/
def tryGatewayQueueAppend (sp : BitVec 5) (s : State) : Option State :=
  let x := s.spokes[sp.toNat]
  match x.colls.find? fun b => !s.unapplied b.ids with
  | none => none
  | some b =>
    if 64 ≤ x.gq.length then none
    else some (s.setSpoke sp.toNat { x with gq := x.gq ++ [(b.entry sp, (s.die (spokeDie sp)).clock)], colls := x.colls.erase b })
def execGatewayQueueAppend (sp : BitVec 5) (s : State) : Out := orSame s (tryGatewayQueueAppend sp s)

end Sys2Proof.Machine
end

