-- ==== Sys2Proof/Machine/Root.lean ====
section
/-! DEFINITION. The root-of-trust core (spec/22 R357 to R361, R364, R365, R368): its requests, with what each changes: contexts (spec/18 R298 to
R301), queues (spec/17 R280), windows (spec/20 R332), translations (spec/18 R308), fault answers (R312), repair (spec/21 R349), the
race ring (spec/17 R295). -/

namespace Sys2Proof.Machine

-- the request's fields (R359)

/-- `n` bytes of a request from an offset, as a little-endian number. -/
def Request.field (r : Request) (off n : Nat) : Nat := leNat ((r.bytes.drop off).take n)
def Request.opc (r : Request) : Nat := Request.field r 4 2
def Request.sn (r : Request) : Nat := Request.field r 8 8
def Request.blen (r : Request) : Nat := Request.field r 16 4
/-- Dword i of the body. -/
def Request.dword (r : Request) (i : Nat) : Nat := Request.field r (32 + 8 * i) 8
/-- Bytes of the body from an offset. -/
def Request.body (r : Request) (off n : Nat) : List Byte := (r.bytes.drop (32 + off)).take n

/-- The opcodes of R360. -/
def knownOpc (n : Nat) : Bool :=
  [0x0001, 0x0002, 0x0003, 0x0010, 0x0011, 0x0012, 0x0020, 0x0030, 0x0031, 0x0032, 0x0040, 0x0041, 0x0050, 0x0060, 0x0061].contains n

/-- The body length that an opcode gives a request (R360). -/
def bodyLen (r : Request) : Nat :=
  match Request.opc r with
  | 0x0001 => 1800
  | 0x0002 => 32
  | 0x0003 => 0
  | 0x0010 => 40
  | 0x0011 => 8
  | 0x0012 => 16
  | 0x0020 => 48
  | 0x0030 => 16
  | 0x0031 => 24
  | 0x0032 => 24
  | 0x0040 => 16 + Request.dword r 1
  | 0x0041 => 8 + 8 * Request.dword r 0
  | 0x0050 => 40
  | 0x0060 => 72
  | _ => 8

/-- A request that needs a signature (R360). -/
def needsAuth (n : Nat) : Bool := decide (3 < n)

/-- Bad magic, a nonzero reserved byte, or a bad length (`STATUS` 2). A request in a BAR0 buffer has every byte that its length needs. -/
def Request.malformed (r : Request) : Bool :=
  let n := Request.opc r
  decide (Request.field r 0 4 ≠ 0x56525131) || decide (Request.field r 6 2 ≠ 0) || decide (Request.field r 20 12 ≠ 0) || decide (Request.blen r % 8 ≠ 0)
    || decide (2752 < Request.blen r) || (knownOpc n && decide (Request.blen r ≠ bodyLen r))
    || (!r.cxl && decide (r.bytes.length < 32 + Request.blen r + if needsAuth n && knownOpc n then 1280 else 0))
    || (decide (n = 1) && decide (Request.field r (32 + 1793) 7 ≠ 0))

/-- What is signed of a request: header and body (R358, R359). -/
def Request.signed (r : Request) : List Byte := r.bytes.take (32 + Request.blen r)
/-- The signature of a request. -/
def Request.signature (r : Request) : BitVec 10240 := BitVec.ofNat 10240 (Request.field r (32 + Request.blen r) 1280)

/-- A request carries the owner key's signature (R358). -/
def Root.authentic (x : Root) (r : Request) : Bool := Config.verifies x.ownerKey (Config.shake256 (Request.signed r)) (Request.signature r)

/-- What is found of a request before its own checks (R358, R359): the status that answers it, if any. Before the ready point every request but
an attestation or a status read is not ready (log 27: DESIGN CHOICE). -/
def State.requestCheck (s : State) (r : Request) : Option Nat :=
  let n := Request.opc r
  if !s.root.ready && decide (n ≠ 2 ∧ n ≠ 3) then some 1
  else if Request.malformed r then some 2
  else if !knownOpc n then some 3
  else if n = 2 ∨ n = 3 then none
  else if n = 1 then (if s.root.claimed then some 4 else none)
  else if !s.root.claimed then some 4
  else if Request.sn r ≤ s.root.seq.toNat then some 5
  else if !s.root.authentic r then some 6
  else none

/-- Bytes of a number, little-endian. -/
def leBytes (n v : Nat) : List Byte := (List.range n).map fun i => BitVec.ofNat 8 (v / 256 ^ i)

/-- The bytes of a reply (R359). -/
def replyBytes (r : Request) (status : Nat) (body : List Byte) : List Byte :=
  leBytes 4 0x56525031 ++ leBytes 2 (Request.opc r) ++ leBytes 2 status ++ leBytes 8 (Request.sn r) ++ leBytes 4 body.length ++ leBytes 12 0 ++ body

/-- The reply is given (R359), for a CXL spoke in the reply buffer of its BAR0; an authenticated request that is done leaves its sequence
number. -/
def State.replyTo (s : State) (r : Request) (status : Nat) (body : List Byte) : State :=
  let bytes := replyBytes r status body
  let p : Reply := { cxl := r.cxl, sp := r.sp, fid := r.fid, bytes := bytes }
  let seq := if status = 0 ∧ needsAuth (Request.opc r) then BitVec.ofNat 64 (Request.sn r) else s.root.seq
  let x := s.spoke r.sp.toNat
  let t := if r.cxl then s.setSpoke r.sp.toNat { x with replyBuf := bytes ++ x.replyBuf.drop bytes.length } else s
  { t with root := { t.root with reply := some p, ndone := t.root.ndone + 1, seq := seq } }

/-- What a request's own check and effect come to. -/
inductive Served where
  /-- Answered with a status that changes nothing. -/
  | refuse (status : Nat)
  /-- Done, with the reply's body. -/
  | done (s : State) (body : List Byte)
  /-- Not yet: the hub cannot take it in before the tables can be walked (R305). -/
  | later
  /-- Begun: it goes on until what it waits for has come (R360). -/
  | long (s : State) (wait : List Nat)

/-- A request can come in (R342, R359, R369): the spokes have trained, which they never do in recovery (R363); its own is of its kind and takes traffic
in; on a CXL spoke it is what the request buffer holds. -/
def State.canRequest (s : State) (r : Request) : Bool :=
  let x := s.spoke r.sp.toNat
  s.root.trained && x.linkOpen && decide (x.cxl = r.cxl) && (!r.cxl || decide (r.bytes = x.reqBuf))

/-- A request of an opcode arrives. While another is served, a doorbell is ignored and a message is answered with `STATUS` 8 (R359).
A request whose opcode is unknown is answered whatever step takes it in. -/
def State.onRequest (s : State) (opc : Nat) (r : Request) (f : Served) : Option State :=
  if !s.canRequest r || (knownOpc (Request.opc r) && decide (Request.opc r ≠ opc)) then none
  else if s.root.serving.isSome then (if r.cxl then none else some (s.replyTo r 8 []))
  else
    match s.requestCheck r with
    | some status => some (s.replyTo r status [])
    | none =>
      match f with
      | .refuse status => some (s.replyTo r status [])
      | .done t body => some (t.replyTo r 0 body)
      | .later => none
      | .long t wait => some { t with root := { t.root with serving := some ⟨r, wait⟩ } }

/-- `n` bytes of a buffer of 4,096 from an offset, as they stand. -/
def bufBytes (l : List Byte) (off n : Nat) : List Byte := (List.range n).map fun i => l.getD (off + i) 0

/-- A CXL host writes into the request buffer of a spoke, once it has trained (R359, R369). -/
def tryBarWrite (sp : BitVec 5) (off : Nat) (data : List Byte) (s : State) : Option State :=
  let x := s.spoke sp.toNat
  if !s.root.trained || x.fenced || !x.cxl || decide (4096 < off + data.length) then none
  else some (s.setSpoke sp.toNat { x with
    reqBuf := bufBytes x.reqBuf 0 off ++ data ++ bufBytes x.reqBuf (off + data.length) (4096 - (off + data.length)) })

-- claim, status, attestation, measurement (R358, R364, R365, R368)

/-- A measurement register extended by a digest (R364). -/
def extend (m d : BitVec 512) : BitVec 512 := Config.shake256 (leBytes 64 m.toNat ++ leBytes 64 d.toNat)

/-- A measurement register of the root extended. -/
def Root.measure (x : Root) (i : Nat) (d : BitVec 512) : Root := { x with meas := x.meas.setIfInBounds i (extend (x.meas[i]?.getD 0) d) }

/-- R358. -/
def tryClaim (rq : Request) (s : State) : Option State :=
  let key := Request.body rq 0 1793
  let h := Config.shake256 key
  s.onRequest 0x0001 rq (.done { s with
    root := { s.root with claimed := true, owner := h, ownerKey := BitVec.ofNat 14344 (leNat key), seq := 0 }.measure 4 h } [])
def execClaim (rq : Request) (s : State) : Out := orSame s (tryClaim rq s)

/-- The mailbox status (R359), while a request has no reply yet or not. -/
def Root.status (x : Root) (busy : Bool) : Nat :=
  let bit (b : Bool) : Nat := if b then 1 else 0
  2 ^ 32 * x.ndone.toNat + 4 * bit x.claimed + 2 * bit x.ready + bit busy

/-- R360: the status, the bundle, the counters, the last accepted `SEQ`. (log 30: DEDUCED) -/
def tryStatus (rq : Request) (s : State) : Option State :=
  let x := s.root
  let counters := (List.range 3).map fun i => BitVec.ofNat 8 (x.counters[i]?.getD 0)
  s.onRequest 0x0003 rq (.done s
    (leBytes 8 (x.status true) ++ leBytes 8 x.bundle.toNat ++ counters ++ leBytes 5 0 ++ leBytes 8 x.seq.toNat))
def execStatus (rq : Request) (s : State) : Out := orSame s (tryStatus rq s)

/-- A CXL host reads the mailbox from BAR0 once the spoke has trained (R369), by offset from 0x8000: the two buffers, the doorbell as zeros, the status (R359). -/
def tryBarRead (sp : BitVec 5) (off n : Nat) (s : State) : Option State :=
  let x := s.spoke sp.toNat
  let byte (a : Nat) : Byte :=
    if a < 4096 then x.reqBuf.getD a 0 else if a < 8192 then x.replyBuf.getD (a - 4096) 0
    else if a < 8200 then 0 else (leBytes 8 (s.root.status s.root.serving.isSome)).getD (a - 8200) 0
  if !s.root.trained || x.fenced || !x.cxl || decide (8208 < off + n) then none
  else some { s with readOut := (List.range n).map fun i => byte (off + i), readPois := false }

/-- The fuse map of a die as bytes (R370), and those of every die in order. -/
def Die.fuseBytes (d : Die) : List Byte := leBytes 1666 d.fuse.toNat
def State.fuseMaps (s : State) : List Byte := s.dies.toList.flatMap Die.fuseBytes
/-- A rollback counter as its fuses hold it: a thermometer code (R365). -/
def thermometer (n : Nat) : List Byte := leBytes 4 (2 ^ n - 1)
/-- The hash of the fuse block (R368). -/
def State.fuseHash (s : State) : BitVec 512 :=
  Config.shake256 (Config.fuseBlock (s.fuseMaps ++ s.root.counters.toList.flatMap thermometer ++ leBytes 64 s.root.vkh.toNat))

/-- The report without its signature (R368). -/
def State.report (s : State) (nonce : List Byte) : List Byte :=
  let x := s.root
  leBytes 4 0x56415431 ++ leBytes 4 1 ++ leBytes 8 1992 ++ nonce ++ leBytes 64 (Config.shake256 (leBytes 1793 x.identity.toNat)).toNat
    ++ (List.range 8).flatMap (fun i => leBytes 64 (x.meas[i]?.getD 0).toNat)
    ++ (List.range 3).flatMap (fun i => leBytes 4 (x.counters[i]?.getD 0)) ++ leBytes 4 x.bundle.toNat
    ++ leBytes 64 s.fuseHash.toNat ++ leBytes 8 (s.die 0).clock

/-- R368. -/
def tryAttest (rq : Request) (s : State) : Option State :=
  let p := s.report (Request.body rq 0 32)
  s.onRequest 0x0002 rq (.done s (p ++ leBytes 1280 (Config.falconSign s.root.identity (Config.shake256 p)).toNat))
def execAttest (rq : Request) (s : State) : Out := orSame s (tryAttest rq s)

/-- R364: registers 5 to 7. -/
def tryExtendMeasurement (rq : Request) (s : State) : Option State :=
  let i := Request.dword rq 0
  let d := BitVec.ofNat 512 (leNat (Request.body rq 8 64))
  s.onRequest 0x0060 rq (if i < 5 ∨ 7 < i then .refuse 9 else .done { s with root := s.root.measure i d } [])
def execExtendMeasurement (rq : Request) (s : State) : Out := orSame s (tryExtendMeasurement rq s)

/-- An image of the flash: a bundle, a type from 1 (R363). -/
def Root.image (x : Root) (bundle : BitVec 1) (typ : Nat) : List Byte := x.flash[3 * bundle.toNat + typ - 1]?.getD []

/-- `n` bytes of an image from an offset, as a little-endian number. -/
def imageField (i : List Byte) (off n : Nat) : Nat := leNat ((i.drop off).take n)
/-- The security version of an image, and its body (R362). -/
def imageVersion (i : List Byte) : Nat := imageField i 8 4
def imageBody (i : List Byte) : List Byte := (i.drop 3096).take (imageField i 12 4)
/-- The digest of an image: over every byte but its signature (R362). -/
def imageDigest (i : List Byte) : BitVec 512 := Config.shake256 (i.take 1816 ++ imageBody i)

/-- R365: a counter goes up to the version of the image that runs. -/
def tryRaiseRollbackCounter (rq : Request) (s : State) : Option State :=
  let t := Request.dword rq 0
  let x := s.root
  s.onRequest 0x0061 rq (if t < 1 ∨ 3 < t then .refuse 9
    else .done { s with root := { x with
      counters := x.counters.setIfInBounds (t - 1) (max (x.counters[t - 1]?.getD 0) (imageVersion (x.image x.bundle t))) } } [])
def execRaiseRollbackCounter (rq : Request) (s : State) : Out := orSame s (tryRaiseRollbackCounter rq s)

-- contexts (R298, R299, R301)

/-- The groups that a `SPLIT` holds. -/
def splitGroups (v : BitVec 12) : List Nat := (List.range (v.extractLsb' 8 4).toNat).map fun i => (v.extractLsb' 0 4).toNat + i

/-- A `SPLIT` that R163 and R299 allow for a context beside the other active ones: in every slab a group that is not fenced serves the memory-side
cache (R346; log 52: DEDUCED). -/
def State.splitOk (s : State) (n : BitVec 6) (v : BitVec 12) : Bool :=
  let others := (List.range 64).flatMap fun m =>
    let y := s.ctx (BitVec.ofNat 6 m)
    if m ≠ n.toNat ∧ y.state = 1 then y.span else []
  let mine := splitGroups v
  decide ((v.extractLsb' 0 4).toNat + (v.extractLsb' 8 4).toNat ≤ 12) && mine.all (fun g => !others.contains g)
    && decide ((mine ++ others).eraseDups.length < 12)
    && s.slabs.all fun e => (List.range 12).any fun g => !(mine ++ others).contains g && !e.2.fenced.contains g

/-- A `SPLIT` outside its field's range. -/
def splitRange (v : Nat) : Bool :=
  decide (v < 4096) && decide (v / 16 % 16 = 0) && decide (v % 16 ≤ 11) && decide (v / 256 ≤ 11)

/-- The reserved bits of a context-table entry (R298). -/
def ctxReserved (e : BitVec 256) : Bool :=
  decide (e.extractLsb' 116 88 ≠ 0) || decide (e.extractLsb' 72 4 ≠ 0) || decide (e.extractLsb' 44 20 ≠ 0)
    || decide (e.extractLsb' 11 21 ≠ 0) || decide (e.extractLsb' 6 3 ≠ 0) || decide (e.extractLsb' 0 4 ≠ 0)

/-- R299, R360. A nonzero reserved bit of the entry is an operand out of range, `STATUS` 9: R359 and R360 name none for it (log 79: DESIGN CHOICE). -/
def tryCreateContext (rq : Request) (s : State) : Option State :=
  let n := BitVec.ofNat 6 (Request.dword rq 0)
  let e := BitVec.ofNat 256 (leNat (Request.body rq 8 32))
  let y : Ctx := { ent := e }
  s.onRequest 0x0010 rq (
    if 63 < Request.dword rq 0 ∨ ctxReserved e ∨ y.state ≠ 1 ∨ y.fqbase % 4096 ≠ 0 ∨ 8 < (e.extractLsb' 204 4).toNat
        ∨ splitRange y.split.toNat = false then .refuse 9
    else if (s.ctx n).state ≠ 0 ∨ s.splitOk n y.split = false then .refuse 7
    else .done (s.setCtx n y) [])
def execCreateContext (rq : Request) (s : State) : Out := orSame s (tryCreateContext rq s)

/-- A block of a context is bound or saved (R299). -/
def State.hasBlock (s : State) (n : BitVec 6) : Bool :=
  s.cores.any (fun e => e.2.table.any fun t => decide (t.2.ctx = n) && !t.2.boot) || s.saves.any fun v => decide (v.blk.ctx = n)

/-- A block of a context is bound on a die that is not held, or saved (R301; log 16: DEDUCED). -/
def State.hasLiveBlock (s : State) (n : BitVec 6) : Bool :=
  s.cores.any (fun e => !(s.die (CoreId.ofKey e.1).die).held && e.2.table.any fun t => decide (t.2.ctx = n) && !t.2.boot)
    || s.saves.any fun v => decide (v.blk.ctx = n)

/-- R299, R360. -/
def trySetSplit (rq : Request) (s : State) : Option State :=
  let n := BitVec.ofNat 6 (Request.dword rq 0)
  let v := Request.dword rq 1
  let w := BitVec.ofNat 12 v
  let y := s.ctx n
  s.onRequest 0x0012 rq (
    if 63 < Request.dword rq 0 ∨ splitRange v = false then .refuse 9
    else if y.state ≠ 1 ∨ s.hasBlock n ∨ s.splitOk n w = false then .refuse 7
    else .done (s.setCtx n { y with ent := (y.ent &&& ~~~(0xFFF00000000 : BitVec 256)) ||| ((w.setWidth 256) <<< 32) }) [])
def execSetSplit (rq : Request) (s : State) : Out := orSame s (trySetSplit rq s)

/-- A context's `STATE` written. -/
def Ctx.withState (y : Ctx) (v : Nat) : Ctx :=
  { y with ent := (y.ent &&& ~~~(0x30 : BitVec 256)) ||| BitVec.ofNat 256 (16 * v) }

/-- Every launch of a context that has not finished ends with cause 0 (R301 step 5). (log 49: DEDUCED) -/
def State.endQueues (s : State) (n : BitVec 6) : State :=
  { s with queues := s.queues.map fun e =>
      if e.2.ctx = n then (e.1, { e.2 with launches := e.2.launches.map fun l =>
        { l with refused := none, ended := some (l.ended.getD 0) } }) else e }

/-- R301 steps 1 and 2 begin: the context is ending, every block of it is to be closed, its saved blocks go. -/
def State.beginEnd (s : State) (n : BitVec 6) : State :=
  let s := s.setCtx n ((s.ctx n).withState 2)
  let s := s.endQueues n
  { s with
    saves := s.saves.filter fun v => decide (v.blk.ctx ≠ n)
    cores := s.cores.map fun e => (e.1, e.2.table.foldl (fun x t =>
      if t.2.ctx = n ∧ t.2.boot = false ∧ t.2.closing = none then
        ({ x with table := Sparse.set x.table t.1 { t.2 with closing := some 0 } } : Core).stopBlock t.1
      else x) e.2) }

/-- A record of a context is somewhere short of its base (R301 step 4). -/
def State.ctxRecords (s : State) (n : BitVec 6) : Bool :=
  let hit (r : Rec) : Bool := decide (r.ctx = n)
  s.cores.any (fun e => e.2.cog0.recs.any hit) || s.clusters.any (fun e => e.2.cog1.recs.any hit)
    || s.dies.toList.any (fun d => d.cog2.recs.any hit || d.acceptq.any (fun a => hit a.r && decide (a.r.skind = 0))
        || (d.hostq ++ d.hostGo).any fun a => hit a.r)
    || s.transit.any (fun t => hit t.r && decide (t.r.skind = 0)) || s.peerq.any fun a => hit a.r

/-- The TLB entries of a context that meet a range of pages go, with the walks that could bring them back and the pages that a DRAIN or INVAL has
translated so far (R308). -/
def State.dropTlb (s : State) (n : BitVec 6) (vpn pages : Nat) : State :=
  let keep (e : TlbEntry) : Bool := decide (e.ctx ≠ n) || !meets e.vpn e.pages vpn pages
  { s with
    cores := s.cores.map fun e => (e.1, { e.2 with
      utlb := e.2.utlb.filter keep
      slots := e.2.slots.map fun x => if (e.2.blockAt (x.blk.getD 0)).ctx = n then { x with ranged := [] } else x })
    clusters := s.clusters.map fun e => (e.1, { e.2 with tlb := e.2.tlb.filter keep })
    dies := s.dies.map fun d => { d with walks := d.walks.filter fun w => decide (w.ctx ≠ n) } }

/-- The next launch of a context that is left, with its queue (R301 step 5). -/
def State.leftLaunch (s : State) (n : BitVec 6) : Option (Byte × Queue × Launch) :=
  s.queues.findSome? fun e => if e.2.ctx = n then e.2.launches.head?.map fun l => (BitVec.ofNat 8 e.1, e.2, l) else none

/-- A die without what belongs to a context: its misses, and the race ring if it is the context's. -/
def Die.dropCtx (d : Die) (n : BitVec 6) : Die :=
  let ours := match d.race with
    | some q => decide (q.ctx = n)
    | none => false
  { d with misses := d.misses.filter fun m => decide (m.ctx ≠ n), race := if ours then none else d.race, raced := if ours then [] else d.raced }

/-- R301 steps 5 and 6: translations, queues, the race ring and the faults of the context go; it is free. -/
def State.finishEnd (s : State) (n : BitVec 6) : State :=
  let s := s.dropTlb n 0 (2 ^ 36)
  let s := { s with
    queues := s.queues.filter fun e => decide (e.2.ctx ≠ n)
    dies := s.dies.map fun (d : Die) => d.dropCtx n }
  s.setCtx n { ((s.ctx n).withState 0) with faults := [] }

/-- R301. -/
def tryEndContext (rq : Request) (s : State) : Option State :=
  let n := BitVec.ofNat 6 (Request.dword rq 0)
  s.onRequest 0x0011 rq (
    if 63 < Request.dword rq 0 then .refuse 9
    else if (s.ctx n).state ≠ 1 then .refuse 7
    else .long (s.beginEnd n) [])
def execEndContext (rq : Request) (s : State) : Out := orSame s (tryEndContext rq s)

-- queues and windows (R280, R332)

/-- A power of two within bounds. -/
def pow2In (lo hi v : Nat) : Bool := decide (lo ≤ v) && decide (v ≤ hi) && decide (2 ^ v.log2 = v)

/-- R280. -/
def tryCreateQueue (rq : Request) (s : State) : Option State :=
  let d := Request.dword rq
  let n := BitVec.ofNat 6 (d 1)
  s.onRequest 0x0020 rq (
    if 255 < d 0 ∨ 63 < d 1 ∨ 3 < d 2 ∨ d 3 % 4096 ≠ 0 ∨ 2 ^ 48 ≤ d 3 ∨ pow2In 2 4096 (d 4) = false ∨ 2 ^ 18 ≤ d 5 then .refuse 9
    else if (s.queue (d 0)).isSome ∨ (s.ctx n).state ≠ 1 then .refuse 7
    else .done (s.setQueue (d 0) { ctx := n, pri := BitVec.ofNat 2 (d 2), qbase := d 3, qlen := d 4, ksrc := BitVec.ofNat 18 (d 5) }) [])
def execCreateQueue (rq : Request) (s : State) : Out := orSame s (tryCreateQueue rq s)

/-- The accesses of the device's slots and engines that have been translated and not performed, inserted or delivered, of one context
or of every context: their numbers (R308). -/
def State.pendingIds (s : State) (only : Option (BitVec 6)) : List Nat :=
  s.cores.flatMap fun e =>
    let mine (blk : Nat) : Bool := match only with
      | none => true
      | some n => decide ((e.2.blockAt blk).ctx = n)
    e.2.slots.toList.flatMap (fun x =>
      if !mine (x.blk.getD 0) then []
      else x.hold.map (fun h => h.id) ++ x.tags.map (fun t => t.2.id) ++ match x.busy with
        | some (.tld _ _ _ _ left) => [left]
        | some (.image _ _ _ _ left) => [left]
        | some (.drain _ _ _ _ id) => [id]
        | _ => [])
    ++ e.2.cmds.flatMap fun m => if !mine m.2.blk then [] else if m.2.sent then m.2.unit :: m.2.out else m.2.out

/-- R308: what the invalidation of a range drops at once. -/
def State.invalidate (s : State) (n : BitVec 6) (va len : Nat) : State :=
  if len = 0 then s.dropTlb n 0 (2 ^ 36) else s.dropTlb n (va / 4096) ((va + len - 1) / 4096 - va / 4096 + 1)

/-- R308, R360. -/
def tryInvalidateTranslations (rq : Request) (s : State) : Option State :=
  let d := Request.dword rq
  let n := BitVec.ofNat 6 (d 0)
  s.onRequest 0x0031 rq (
    if 63 < d 0 ∨ 2 ^ 48 < d 1 + d 2 then .refuse 9 else .long (s.invalidate n (d 1) (d 2)) (s.pendingIds (some n)))
def execInvalidateTranslations (rq : Request) (s : State) : Out := orSame s (tryInvalidateTranslations rq s)

/-- The invalidation of every context over every address (R332). -/
def State.invalidateAll (s : State) : State := (List.range 64).foldl (fun t n => t.invalidate (BitVec.ofNat 6 n) 0 0) s

/-- A window entry written. -/
def State.putWindow (s : State) (rq : Request) : State :=
  { s with root := { s.root with windows := Sparse.set s.root.windows (Request.dword rq 0) (BitVec.ofNat 64 (Request.dword rq 1)) } }

/-- R332: before a valid entry changes, every translation of every context is invalidated. A nonzero reserved bit of the entry is an operand out of
range, `STATUS` 9 (log 79: DESIGN CHOICE). -/
def trySetWindow (rq : Request) (s : State) : Option State :=
  let d := Request.dword rq
  s.onRequest 0x0030 rq (
    if d 0 = 0 ∨ 0xFFE < d 0 ∨ d 1 / 2 ^ 18 % 2 ^ 45 ≠ 0 then .refuse 9
    else if (Sparse.get (0 : Word) s.root.windows (d 0)).getLsbD 63 then
      .long s.invalidateAll (s.pendingIds none)
    else .done (s.putWindow rq) [])
def execSetWindow (rq : Request) (s : State) : Out := orSame s (trySetWindow rq s)

-- what the hubs do on a checked request (R361)

/-- The fault that an answer names. -/
def State.faultOf (s : State) (rq : Request) : Option FaultRec :=
  (s.ctx (BitVec.ofNat 6 (Request.dword rq 0))).faults.find? fun f => f.written && decide (f.seq % 2 ^ 32 = Request.dword rq 1) && f.answer.isNone

/-- R312, R313. (log 58: DESIGN CHOICE) -/
def tryFaultAnswer (rq : Request) (s : State) : Option State :=
  let d := Request.dword rq
  let n := BitVec.ofNat 6 (d 0)
  s.onRequest 0x0032 rq (
    if 63 < d 0 ∨ 1 < d 2 then .refuse 9
    else match s.faultOf rq with
      | none => .refuse 7
      | some f => .done (s.answerFault n f (decide (d 2 = 0))) [])
def execFaultAnswer (rq : Request) (s : State) : Out := orSame s (tryFaultAnswer rq s)

/-- The lines of a repair. -/
def repairLines (rq : Request) : List Nat := linesOf (Request.dword rq 0) (Request.dword rq 1)

/-- A line of the logs or of the hub firmware, which only hardware or the boot writes (R357, R371). -/
def hubOwn (line : Nat) : Bool := hubReserved (64 * line) && !hubWorking (64 * line)

/-- R349, R360: it goes to the hub of the range's home die; lines of the logs and of the firmware are refused (R357, R371). `bad` are the lines whose
storage fails again. (log 57: DEDUCED) -/
def tryRepair (rq : Request) (bad : List Nat) (s : State) : Option State :=
  let d := Request.dword rq
  s.onRequest 0x0040 rq (
    if d 0 % 64 ≠ 0 ∨ d 1 % 64 ≠ 0 ∨ d 1 = 0 ∨ 2048 < d 1 ∨ 2 ^ 40 < d 0 + d 1 then .refuse 9
    else if (repairLines rq).any hubOwn then .refuse 7
    else .long s (bad.filter fun l => (repairLines rq).contains l))
def execRepair (rq : RepairOf) (s : State) : Out := orSame s (tryRepair rq.rq rq.bad s)

/-- The next host copy of some lines is recalled: none is left, one is out, or one is sent for (R338). -/
def State.snoopLines (s : State) : List Nat → Snoop
  | [] => .free
  | l :: ls => match s.snoopLine l with
    | .free => s.snoopLines ls
    | x => x

/-- The row of a line of device memory, numbered with its stack (log 12: DESIGN CHOICE). -/
def rowKey (pa : Nat) : Nat := 2 ^ 32 * (2 * (homeDie pa).toNat + pa / 32768 % 2) + Config.rowOf (pa / 64) % 2 ^ 32
/-- The stack of a row. -/
def rowStack (row : Nat) : Nat := row / 2 ^ 32
/-- The die of a row. -/
def rowDie (row : Nat) : BitVec 3 := BitVec.ofNat 3 (rowStack row / 2)

/-- A row goes to a spare row of its bank, with no change of value or poison, and its score starts again; where no spare is left, that is logged once
(R354). `line` is the line that the event names. (log 55: DEDUCED) -/
def State.toSpare (s : State) (row line : Nat) : State :=
  let bank := 2 ^ 32 * rowStack row + Config.bankOf (row % 2 ^ 32) % 2 ^ 32
  let n := Sparse.get 0 s.spares bank
  let page := 64 * line / 4096 * 4096
  if n < 8 then
    ({ s with spares := Sparse.set s.spares bank (n + 1), scores := Sparse.del s.scores row, hot := Sparse.del s.hot row } : State).logEvent
      (rowDie row) 0x0A none (channelOf line) 0 0 page
  else if s.noSpare.contains row then s
  else ({ s with noSpare := insertNum row s.noSpare } : State).logEvent (rowDie row) 0x0B none (channelOf line) 0 0 page

/-- The effect of a repair: the lines rewritten, their poison cleared, their snapshots dropped on every core (R158, R349). -/
def State.repaired (s : State) (rq : Request) : State :=
  let pa := Request.dword rq 0
  let n := Request.dword rq 1
  let lines := repairLines rq
  let s := (List.range (n / 8)).foldl (fun t i => t.writeMem (pa + 8 * i) (leNat (Request.body rq (16 + 8 * i) 8)) 8) s
  { s with
    poisLines := s.poisLines.filter fun l => !lines.contains l
    poisKeys := s.poisKeys.filter fun k => !lines.contains (k / 8)
    cores := s.cores.map fun e => (e.1, { e.2 with l1 := e.2.l1.filter fun x => !lines.contains x.line }) }

/-- R295: the ring of a die is enabled, its header cleared, or disabled. -/
def tryRaceRing (rq : Request) (s : State) : Option State :=
  let d := Request.dword rq
  let die := BitVec.ofNat 3 (d 0)
  let n := BitVec.ofNat 6 (d 1)
  s.onRequest 0x0050 rq (
    if 7 < d 0 ∨ 1 < d 4 then .refuse 9
    else if d 4 = 0 then .done (s.setRace die none) []
    else if 63 < d 1 ∨ d 2 % 64 ≠ 0 ∨ 2 ^ 48 ≤ d 2 ∨ pow2In 16 65536 (d 3) = false then .refuse 9
    else if (s.ctx n).state ≠ 1 then .refuse 7
    else match s.hubWalk die n (d 2) with
      | none => .later
      | some t =>
        let (ok, t) := (t.setRace die none).statusWrite die n 0 (d 2) (List.replicate 8 0)
        .done (t.setRace die (if ok then some { ctx := n, base := d 2, len := d 3 } else none)) [])
def execRaceRing (rq : Request) (s : State) : Out := orSame s (tryRaceRing rq s)

-- the runtime disable list (R370, R373)

/-- The neighbours of a position in the mesh. -/
def neighbours (w h p : Nat) : List Nat :=
  let x := p % 32
  let y := p / 32
  (if 0 < x then [p - 1] else []) ++ (if x + 1 < w then [p + 1] else []) ++ (if 0 < y then [p - 32] else [])
    ++ (if y + 1 < h then [p + 32] else [])

/-- What a flood reaches over some positions. -/
def flood (w h : Nat) (en : Nat → Bool) : Nat → List Nat → List Nat → List Nat
  | 0, _, seen => seen
  | _ + 1, [], seen => seen
  | f + 1, p :: rest, seen =>
    let ns := (neighbours w h p).filter fun q => en q && !seen.contains q
    flood w h en f (rest ++ ns) (seen ++ ns)

/-- The enabled positions of a die are connected, and there is one (R373). -/
def connected (w h : Nat) (en : Nat → Bool) : Bool :=
  match (List.range 1024).filter en with
  | [] => false
  | p :: ps => decide ((flood w h en 2048 [p] [p]).length = ps.length + 1)

/-- The positions that a disable list leaves enabled on a die. -/
def State.enabledWith (s : State) (l : List Word) (d : BitVec 3) (p : Nat) : Bool :=
  decide (p % 32 < s.meshW ∧ p / 32 < s.meshH) && (s.die d).fuse.getLsbD p && !offCore l d p

/-- An entry of a disable request is in range. -/
def disableOk (w : Word) : Bool :=
  decide (w &&& 0xFFFFFFF0FC00FEF8 = 0)
    && (if w.getLsbD 8 then decide ((w.extractLsb' 32 4).toNat < 12) else decide (w.extractLsb' 32 4 = 0))

/-- R370, R373. -/
def tryRuntimeDisable (rq : Request) (s : State) : Option State :=
  let n := Request.dword rq 0
  let ws := (List.range n).map fun i => BitVec.ofNat 64 (Request.dword rq (i + 1))
  let l := s.root.disable ++ ws
  s.onRequest 0x0041 rq (
    if n < 1 ∨ 16 < n ∨ ws.any (fun w => !disableOk w) then .refuse 9
    else if (List.range 8).any fun d => !connected s.meshW s.meshH (s.enabledWith l (BitVec.ofNat 3 d)) then .refuse 7
    else .done { s with root := { s.root with disable := l } } [])
def execRuntimeDisable (rq : Request) (s : State) : Out := orSame s (tryRuntimeDisable rq s)

-- requests that go on (R359, R360)

/-- The request that is served is answered. -/
def State.served (s : State) (rq : Request) : State :=
  ({ s with root := { s.root with serving := none } } : State).replyTo rq 0 []

/-- The root-of-trust core goes on with the request it serves: its next step, once what it waits for has come. An invalidation drops at its end what later
walks have filled (R308). -/
def State.serve (s : State) : Option State :=
  match s.root.serving with
  | none => none
  | some v =>
    let rq := v.rq
    let d := Request.dword rq
    let waits := let ids := s.pendingIds none; v.wait.any fun i => ids.contains i
    match Request.opc rq with
    | 0x0011 =>
      let n := BitVec.ofNat 6 (d 0)
      if s.hasLiveBlock n || s.ctxRecords n then none
      else match s.leftLaunch n with
        | some (q, y, l) => s.finishLaunch q y l 2 (l.ended.getD 0)
        | none => some ((s.finishEnd n).served rq)
    | 0x0030 => if waits then none else some ((s.invalidateAll.putWindow rq).served rq)
    | 0x0031 => if waits then none else some ((s.invalidate (BitVec.ofNat 6 (d 0)) (d 1) (d 2)).served rq)
    | _ =>
      let lines := repairLines rq
      if lines.any fun l => s.lineWaits l || (s.die (homeDie (64 * l))).held then none
      else
        match s.snoopLines lines with
        | .wait => none
        | .sent t => some t
        | .free => (s.openRows s.seqno lines).map fun t => (v.wait.foldl (fun t l => t.toSpare (rowKey (64 * l)) l) (t.repaired rq)).served rq

end Sys2Proof.Machine
end

