-- ==== Sys2Proof/Machine/Errors.lean ====
section
/-! DEFINITION. Errors and fences (spec/21 R344 to R349), scrub and retirement (R351 to R354), power and heat (R355, R356; spec/07 R165). -/

namespace Sys2Proof.Machine

-- HBM rows (R351, R353)

/-- Core cycles of a day. -/
def dayCycles : Nat := 86400 * 3000000000

/-- The row with the lowest score on the hot list of a stack. -/
def State.coldest (s : State) (stack : Nat) : Option Nat :=
  let rows := (s.hot.filter fun e => decide (rowStack e.1 = stack)).map Prod.fst
  match rows with
  | [] => none
  | r :: rs => some (rs.foldl (fun a b => if Sparse.get 0 s.scores b < Sparse.get 0 s.scores a then b else a) r)

/-- A row joins the hot list, or stays on it with a later last error; a full list of 1,024 rows gives up its lowest score (R351). -/
def State.joinHot (s : State) (pa : Nat) : State :=
  let row := rowKey pa
  let d := homeDie pa
  let now := (s.die d).clock
  if (Sparse.find s.hot row).isSome then { s with hot := Sparse.set s.hot row now }
  else
    let full := decide (1024 ≤ (s.hot.filter fun e => decide (rowStack e.1 = rowStack row)).length)
    let hot := if full then match s.coldest (rowStack row) with
      | some r => Sparse.del s.hot r
      | none => s.hot
      else s.hot
    ({ s with hot := Sparse.set hot row now } : State).logEvent d 0x01 none (channelOf (pa / 64)) 0 0 pa

/-- A row's score goes up, to 255 at most (R353); the days that it loses 1 for count from the day on which it leaves 0. -/
def State.addScore (s : State) (pa n : Nat) : State :=
  let row := rowKey pa
  let old := Sparse.get 0 s.scores row
  { s with
    scores := Sparse.set s.scores row (min 255 (old + n))
    decays := if old = 0 then Sparse.set s.decays row ((s.die (homeDie pa)).clock / dayCycles) else s.decays
    rowPages := Sparse.set s.rowPages row (pa / 64) }

/-- A corrected error in a line of device memory (R351, R353). -/
def State.lineCorrected (s : State) (pa : Nat) : State := (s.joinHot pa).addScore pa 16

/-- An uncorrectable error in a line of device memory (R345, R346, R351, R353): the line is poisoned, its row is noted with the time, and where it is
on the hot list its last error is this one. -/
def State.poisonLine (s : State) (pa : Nat) : State :=
  let d := homeDie pa
  let x := s.die d
  let ch := channelOf (pa / 64)
  let row := rowKey pa
  let t : State := { s with
    poisLines := insertNum (pa / 64) s.poisLines
    hot := if (Sparse.find s.hot row).isSome then Sparse.set s.hot row x.clock else s.hot }
  ((t.setDie d { x with badRows := (ch, row, x.clock) :: x.badRows.filter fun b => decide (b.1 ≠ ch ∨ b.2.1 ≠ row) }).addScore pa 255).logEvent
    d 0x02 none ch 0 0 pa

/-- R344: an error that is corrected changes no value; in HBM it is counted against its row. -/
def tryCorrectedError (e : ErrSite) (s : State) : Option State :=
  match e with
  | .line pa => if pa < 2 ^ 40 then some (s.lineCorrected pa) else none
  | _ => none
def execCorrectedError (e : ErrSite) (s : State) : Out := orSame s (tryCorrectedError e s)

-- fences (R346)

/-- The blocks of a core are closed at once: a fenced core runs no stop. (log 54: DEDUCED) -/
def State.closeAll (s : State) (c : CoreId) : State :=
  (s.core c).table.foldl (fun t e =>
    let names := t.blockNames c e.1
    let u := t.freeBlock c e.1
    if e.2.boot || e.2.held then u else u.countBlock e.2 names) s

/-- A core is fenced: its launches end, its blocks are closed, the records in its cog 0 are gone. -/
def State.fenceCore (s : State) (c : CoreId) : State :=
  let t := (s.endLaunchesOn (fun k => decide (k = c.key)) (fun _ => true) 0x06).closeAll c
  t.setCore c { t.core c with fenced := true, cog0 := {} }

/-- The core positions of a cluster. -/
def clusterPositions (d : BitVec 3) (cl : BitVec 6) : List CoreId :=
  (List.range 16).map fun i =>
    ⟨d, BitVec.ofNat 5 (cl.toNat % 8 * 4 + i % 4), BitVec.ofNat 5 (cl.toNat / 8 * 4 + i / 4)⟩

/-- A control structure of a core fails (R345, R346). -/
def State.failCore (s : State) (c : CoreId) : State := (s.logLost c.die 0x05 c.pos (s.core c).cog0.recs).fenceCore c

/-- A control structure of a cluster fails: every core of it is fenced, its cog 1 is lost; its events count all of these records. (log 53: DEDUCED) -/
def State.failCluster (s : State) (d : BitVec 3) (cl : BitVec 6) : State :=
  let cs := clusterPositions d cl
  let n := clusterKey d cl.toNat
  let lost := cs.flatMap (fun c => (s.core c).cog0.recs) ++ (s.cluster n).cog1.recs
  let t := cs.foldl (fun t c => t.fenceCore c) (s.logLost d 0x06 cl.toNat lost)
  t.setCluster n { fenced := true }

-- uncorrectable errors (R345)

/-- The unit that an event names for a level: the core's position, the cluster, or the die. -/
def levelUnit : LevelId → Nat
  | .cog0 c => c.pos
  | .cog1 _ n => n.toNat
  | .cog2 _ => 0

/-- A record is lost: it is counted, and launches end (R345). -/
def State.loseRecord (s : State) (l : LevelId) (r : Rec) (ctxOk : Bool) : State :=
  let d := levelDie l
  let t := (s.removeRec l r.key).logEvent d 0x04 (if ctxOk then some r.ctx else none) (levelUnit l) 0 1 0
  t.endLaunchesOn (fun k => decide (k / 1024 = d.toNat)) (fun b => !ctxOk || decide (b.ctx = r.ctx)) 0x06

/-- The register that an error site names. -/
def errReg (kind : RegKind) (ix : BitVec 6) : RegId :=
  match kind with
  | .g => .g ix
  | .p => .p (ix.setWidth 3)
  | .v => .v (ix.setWidth 5)
  | .m => .m (ix.setWidth 3)

/-- An 8-byte unit with its poison set. -/
def poisonUnit (t : Sparse Unit8) (i : Nat) : Sparse Unit8 := Sparse.set t i { Sparse.get ({} : Unit8) t i with pois := true }

/-- An uncorrectable error in a unit of a slab: it is poisoned, and counted for its group (R345, R346). A group in cache mode holds lines, whose
poison is a line's. -/
def Slab.spoilUnit (x : Slab) (i now : Nat) : Slab :=
  { x with
    badUnits := (unitGroup i, now) :: x.badUnits
    units := if x.mode (unitGroup i) = some 0 then x.units else poisonUnit x.units i }

/-- An uncorrectable error in a line of the memory-side cache: the line becomes poisoned (R345). The row of HBM has had none. -/
def State.poisonCached (s : State) (line : Nat) : State :=
  ({ s with poisLines := insertNum line s.poisLines } : State).logEvent (homeDie (64 * line)) 0x02 none (channelOf line) 0 0 (64 * line)

/-- An uncorrectable error in a unit of a slab: of a group in cache mode it is one in the line that the unit holds, where it holds one (R345; log 72:
DESIGN CHOICE). -/
def State.spoilSlab (s : State) (c : CoreId) (i : Nat) : State :=
  let t := s.setSlab c ((s.slab c).spoilUnit i (s.clock c))
  if (s.slab c).mode (unitGroup i) = some 0 then match Config.cachedLine c.key i s.seqno with
    | some line => t.tick1.poisonCached (line % 2 ^ 34)
    | none => t.tick1
  else t.logEvent c.die 0x03 none c.pos (unitGroup i) 0 0

/-- R345: what was spoiled is poisoned, a record whose place is unknown is lost, a unit whose control fails is fenced. An entry of a TLB
is only dropped. (log 62: DESIGN CHOICE) -/
def tryUncorrectableError (e : ErrSite) (s : State) : Option State :=
  match e with
  | .line pa => if pa < 2 ^ 40 then some (s.poisonLine pa) else none
  | .scratch c i =>
    if 24576 ≤ i then none
    else some ((s.setCore c { s.core c with scratch := poisonUnit (s.core c).scratch i }).logEvent c.die 0x03 none c.pos 0 0 0)
  | .slab c i =>
    if 98304 ≤ i then none
    else some (s.spoilSlab c i)
  | .store c ix =>
    let q := (s.slab c).seq
    some ((s.setSeq c { q with storePois := insertNum ix.toNat q.storePois }).logEvent c.die 0x03 none c.pos 0 0 0)
  | .tile c t row =>
    let x := (s.core c).tile t.toNat
    some ((s.setTile c t.toNat { x with pois := x.pois ||| BitVec.ofNat 16 (2 ^ row.toNat) }).logEvent c.die 0x03 none c.pos 0 0 0)
  | .reg c k kind ix =>
    some ((s.setSlot c k ((s.slot c k).mapMark (fun m => { m with pois := true }) (errReg kind ix))).logEvent c.die 0x03
      ((s.blockOf c (s.slot c k)).map fun b => b.ctx) c.pos 0 0 0)
  | .record l n keyOk ctxOk =>
    match (s.run l).recs[n]? with
    | none => none
    | some r =>
      if keyOk && ctxOk then
        some ((s.setRecs l (placeRec { r with pois := true } (s.run l).recs)).logEvent (levelDie l) 0x03 (some r.ctx) (levelUnit l) 0 0 0)
      else some (s.loseRecord l r ctxOk)
  | .tlb c n =>
    let x := s.cluster (CoreId.clusterKey c)
    let y := s.core c
    if n < x.tlb.length then some (s.setCluster (CoreId.clusterKey c) { x with tlb := x.tlb.eraseIdx n })
    else if n < x.tlb.length + y.utlb.length then some (s.setCore c { y with utlb := y.utlb.eraseIdx (n - x.tlb.length) })
    else none
  | .core c => if (s.core c).fenced then none else some (s.failCore c)
  | .cluster d cl => if (s.cluster (clusterKey d cl.toNat)).fenced then none else some (s.failCluster d cl)
  | .die d => if (s.die d).held then none else some (s.holdDie d)
def execUncorrectableError (e : ErrSite) (s : State) : Out := orSame s (tryUncorrectableError e s)

/-- Core cycles of a second. -/
def secondCycles : Nat := 3000000000
/-- A channel has met uncorrectable errors in more than 16 rows within the last second (R346). -/
def Die.channelBad (d : Die) (ch : Nat) : Bool :=
  decide (16 < (d.badRows.filter fun b => decide (b.1 = ch) && decide (d.clock < b.2.2 + secondCycles)).length)
/-- A group has met 4 or more within the last second (R346). -/
def Slab.groupBad (x : Slab) (g now : Nat) : Bool :=
  decide (4 ≤ (x.badUnits.filter fun b => decide (b.1 = g) && decide (now < b.2 + secondCycles)).length)

/-- R346: an HBM channel is fenced, after a failed training or errors in more than 16 rows in 1 s: every line of it reads as poisoned. -/
def tryHbmChannelFence (die : BitVec 3) (ch : BitVec 5) (training : Bool) (s : State) : Option State :=
  let d := s.die die
  if d.badChannels.contains ch.toNat || !(training || d.channelBad ch.toNat) then none
  else some ((s.setDie die { d with badChannels := insertNum ch.toNat d.badChannels }).logEvent die 0x08 none ch.toNat 0 0 0)
def execHbmChannelFence (die : BitVec 3) (ch : Failing) (s : State) : Out := orSame s (tryHbmChannelFence die ch.unit ch.training s)

/-- R346: a bank group is fenced, after 4 uncorrectable units in 1 s. One in scratch or compute mode ends the launches whose blocks hold it. (log 52: DEDUCED) -/
def tryBankGroupFence (c : CoreId) (grp : BitVec 4) (s : State) : Option State :=
  let x := s.slab c
  let g := grp.toNat
  if 12 ≤ g ∨ x.fenced.contains g ∨ x.groupBad g (s.clock c) = false then none
  else
    let t := (s.setSlab c { x with fenced := insertNum g x.fenced }).logEvent c.die 0x09 none c.pos g 0 0
    if x.mode g = some 0 then some t
    else some (t.endLaunchesOn (fun k => decide (k = c.key)) (fun b => ((s.ctx b.ctx).groups x).contains g) 0x08)
def execBankGroupFence (c : CoreId) (grp : BitVec 4) (s : State) : Out := orSame s (tryBankGroupFence c grp s)

-- scrub and retirement (R351 to R354)

/-- The patrol reads a group: one in scratch mode, or in compute mode while its sequencer idles (R351). -/
def Slab.patrolled (x : Slab) (g : Nat) : Bool :=
  decide (x.mode g = some 1) || (decide (x.mode g = some 2) && decide (x.seq.st = .idle))

/-- R351, R352: the patrol reads a line of HBM or of the memory-side cache with its counter, or a unit of a group: no error, a corrected one, which in
a line is to be written back, or an uncorrectable one. A read of a line may open its row (R355). -/
def tryPatrolScrubRead (e : ErrSite) (err : BitVec 2) (s : State) : Option State :=
  match e with
  | .line pa =>
    if 2 ^ 40 ≤ pa ∨ (s.die (homeDie pa)).held then none
    else (s.openRow (pa / 64) s.seqno).map fun s => match err.toNat with
      | 0 => s
      | 1 => let t := s.lineCorrected pa; { t with scrubs := t.scrubs ++ [(pa / 64, Sparse.get 0 t.wseq (pa / 64))] }
      | _ => s.poisonLine pa
  | .slab c i =>
    if 98304 ≤ i ∨ (s.die c.die).held ∨ (s.slab c).patrolled (unitGroup i) = false then none
    else if err.toNat < 2 then some s else tryUncorrectableError e s
  | _ => none
def execPatrolScrubRead (e : ErrSite) (err : BitVec 2) (s : State) : Out := orSame s (tryPatrolScrubRead e err s)

/-- R352: the corrected line is written back if its counter is unchanged, which changes no value; otherwise the write-back is dropped. -/
def tryScrubWriteback (line : Nat) (s : State) : Option State :=
  match s.scrubs.find? fun e => decide (e.1 = line) with
  | none => none
  | some e =>
    let t := { s with scrubs := s.scrubs.erase e }
    if Sparse.get 0 s.wseq line = e.2 then
      (t.openRow line t.seqno).map fun t => { t with wseq := Sparse.set t.wseq line (e.2 + 1) }
    else some t
def execScrubWriteback (line : Nat) (s : State) : Out := orSame s (tryScrubWriteback line s)

/-- R351: a row leaves the hot list after 7 days without an error. -/
def tryHotListExpiry (row : Nat) (s : State) : Option State :=
  match Sparse.find s.hot row with
  | none => none
  | some t => if t + 7 * dayCycles ≤ (s.die (rowDie row)).clock then some { s with hot := Sparse.del s.hot row } else none
def execHotListExpiry (row : Nat) (s : State) : Out := orSame s (tryHotListExpiry row s)

/-- R353: a score loses 1 for each day. -/
def tryRetirementScoreDecay (row : Nat) (s : State) : Option State :=
  let n := Sparse.get 0 s.scores row
  let day := (s.die (rowDie row)).clock / dayCycles
  if n = 0 ∨ day ≤ Sparse.get 0 s.decays row then none
  else some { s with scores := Sparse.set s.scores row (n - 1), decays := Sparse.set s.decays row (Sparse.get 0 s.decays row + 1) }
def execRetirementScoreDecay (row : Nat) (s : State) : Out := orSame s (tryRetirementScoreDecay row s)

/-- R354: a row whose score has reached 128 is retired. -/
def tryRowRetire (row : Nat) (s : State) : Option State :=
  if Sparse.get 0 s.scores row < 128 ∨ s.noSpare.contains row then none else some (s.toSpare row (Sparse.get 0 s.rowPages row))
def execRowRetire (row : Nat) (s : State) : Out := orSame s (tryRowRetire row s)

-- power (R243, R355)

/-- The `BUDGET` of a die's cores for a share: halved while the compute die is hot, with no limit taken as 46 (R356). -/
def hotShare (hot : Bool) (share : Byte) : Byte := if hot then (if share = 0 then 23 else share / 2) else share

/-- Every core of a die gets a new `BUDGET` for its next window. -/
def State.budgetNext (s : State) (d : BitVec 3) (b : Byte) : State :=
  (List.range 1024).foldl (fun t p =>
    let c := CoreId.ofKey (1024 * d.toNat + p)
    t.setCore c { t.core c with budgetNext := some b }) s

/-- A die's share of the power budget, and its stacks' limits. -/
def State.powerDie (s : State) (d : Nat) (budget : Option Byte) (lim0 lim1 : Option Nat) : State :=
  let n := BitVec.ofNat 3 d
  let x := s.die n
  if x.held then s
  else
    let share := budget.getD x.share
    let s := s.setDie n { x with share := share, actNext := (x.actNext.set 0 (lim0.or x.actNext[0])).set 1 (lim1.or x.actNext[1]) }
    if budget.isSome then s.budgetNext n (hotShare x.hotDie share) else s

/-- R355: the hub divides the budget: by die a `BUDGET`, by stack an ACTLIM, from the next window on. -/
def tryPowerBudgetUpdate (budgets : List Byte) (actlims : List Nat) (s : State) : Option State :=
  some ((List.range 8).foldl (fun t d => t.powerDie d budgets[d]? actlims[2 * d]? actlims[2 * d + 1]?) s)
def execPowerBudgetUpdate (budgets : List Byte) (actlims : List Nat) (s : State) : Out := orSame s (tryPowerBudgetUpdate budgets actlims s)

/-- R355: a stack's 1 µs window begins: its count of activates starts again, a new ACTLIM takes effect. -/
def tryActlimWindow (die : BitVec 3) (stack : Bool) (s : State) : Option State :=
  let d := s.die die
  let i : Fin 2 := if stack then 1 else 0
  let w := (d.clock + 1) / 3000
  if d.actWin[i] < w then
    some (s.setDie die { d with
      actWin := d.actWin.set i w, actUsed := d.actUsed.set i 0, actlim := d.actlim.set i (d.actNext[i].or d.actlim[i]),
      actNext := d.actNext.set i none })
  else none
def execActlimWindow (die : BitVec 3) (stack : Bool) (s : State) : Out := orSame s (tryActlimWindow die stack s)

/-- The key of a core or of a cluster lies on a die. -/
def onDieKey (d : BitVec 3) (per k : Nat) : Bool := decide (k / per = d.toNat)

/-- R355: a die without a bound block, a record in cog 0 or cog 1, or a command in flight may stop its core clocks. -/
def tryDieClockStop (die : BitVec 3) (s : State) : Option State :=
  let d := s.die die
  let busy := s.cores.any (fun e => onDieKey die 1024 e.1 && (!e.2.table.isEmpty || !e.2.cog0.recs.isEmpty || !e.2.cmds.isEmpty))
    || s.clusters.any fun e => onDieKey die 64 e.1 && !e.2.cog1.recs.isEmpty
  if d.held || d.stopped || d.boot || d.wake || busy then none else some (s.setDie die { d with stopped := true })
def execDieClockStop (die : BitVec 3) (s : State) : Out := orSame s (tryDieClockStop die s)

/-- R355: a kick or a bind record that needs the die starts its clocks again. -/
def tryDieClockRestart (die : BitVec 3) (s : State) : Option State :=
  let d := s.die die
  if d.stopped && d.wake then some (s.setDie die { d with stopped := false, wake := false }) else none
def execDieClockRestart (die : BitVec 3) (s : State) : Out := orSame s (tryDieClockRestart die s)

-- heat (R165, R356)

/-- R165, R356: a sample of the base die's temperature; `THERM` is set at 105 degrees and cleared at 100. -/
def tryTjSample (die : BitVec 3) (tj : Nat) (s : State) : Option State :=
  let d := s.die die
  if d.held then none
  else
    let t := s.setDie die { d with tj := BitVec.ofNat 8 (min 255 tj) }
    some (if d.therm = false ∧ 105 ≤ tj then (t.setDie die { t.die die with therm := true }).logEvent die 0x11 none 0 0 0 0
      else if d.therm = true ∧ tj ≤ 100 then (t.setDie die { t.die die with therm := false }).logEvent die 0x12 none 0 0 0 0
      else t)
def execTjSample (die : BitVec 3) (tj : Nat) (s : State) : Out := orSame s (tryTjSample die tj s)

/-- R356: a compute die above 105 degrees has its `BUDGET` halved from the next window on, until it falls to 100. -/
def tryComputeDieThermal (die : BitVec 3) (tj : Nat) (s : State) : Option State :=
  let d := s.die die
  if d.held then none
  else if d.hotDie = false ∧ 105 < tj then
    some ((s.setDie die { d with hotDie := true }).budgetNext die (hotShare true d.share))
  else if d.hotDie = true ∧ tj ≤ 100 then some ((s.setDie die { d with hotDie := false }).budgetNext die d.share)
  else none
def execComputeDieThermal (die : BitVec 3) (tj : Nat) (s : State) : Out := orSame s (tryComputeDieThermal die tj s)

/-- R356: either die at 115 degrees: the die is held. -/
def tryThermalTrip (die : BitVec 3) (tj : Nat) (s : State) : Option State :=
  if (s.die die).held || decide (tj < 115) then none else some (s.holdDie die)
def execThermalTrip (die : BitVec 3) (tj : Nat) (s : State) : Out := orSame s (tryThermalTrip die tj s)

/-- R356: coolant is lost: the die is held. -/
def tryCoolantLoss (die : BitVec 3) (s : State) : Option State :=
  if (s.die die).held then none else some (s.holdDie die)
def execCoolantLoss (die : BitVec 3) (s : State) : Out := orSame s (tryCoolantLoss die s)

end Sys2Proof.Machine
end

