-- ==== Sys2Proof/Machine/Boot.lean ====
section
/-! DEFINITION. The measured boot (spec/22 R362 to R364, R367, R369, R370), boot state (spec/23 R372 to R374) and the gateway cores (spec/20
R341). -/

namespace Sys2Proof.Machine

-- boot state (R372)

/-- The bind record that stands for boot state: entry and parameters, slot 0, the whole scratchpad, barrier register b0. -/
def bootRecord (entry params : Nat) : BitVec 512 :=
  BitVec.ofNat 512 (entry + 2 ^ 64 * params + 2 ^ 176 * 1 + 2 ^ 276 * 196608 + 2 ^ 316 * 1)

/-- The block of boot state. (log 15: DEDUCED) -/
def bootBlock (entry params : Nat) : Block := { rec0 := bootRecord entry params, boot := true }

/-- Slot 0 of a core in boot state: g1 holds the parameter block's address, g2 says whether the core is the boot corner. -/
def bootSlot (entry params : Nat) (corner : Bool) : Slot :=
  { st := .running, pc := BitVec.ofNat 48 entry, blk := some 0,
    g := ((Vector.replicate 64 ({} : Reg 64)).set 1 { val := BitVec.ofNat 64 params }).set 2 { val := if corner then 1 else 0 } }

/-- Barrier b0 at entry: the rectangle of the whole mesh, one arrival for each core. -/
def bootBarrier (w h : Nat) : Barrier := { x1 := BitVec.ofNat 5 (w - 1), y1 := BitVec.ofNat 5 (h - 1) }

/-- A core as boot state starts it. -/
def bootCore (w h entry params : Nat) (corner : Bool) : Core :=
  { slots := (Vector.replicate 16 ({} : Slot)).set 0 (bootSlot entry params corner), table := [(0, bootBlock entry params)],
    bars := [(0, bootBarrier w h)] }

/-- The position of some number that a measure makes least; ties go to the lower number. -/
def leastBy (f : Nat → Nat) : List Nat → Option Nat
  | [] => none
  | p :: ps => some (ps.foldl (fun a b => if f b < f a then b else a) p)

/-- The boot corner of a die (R370): least |x| + |y|, ties to the lower y. -/
def State.bootCorner (s : State) (d : BitVec 3) : Option Nat :=
  leastBy (fun p => p % 32 + p / 32) ((List.range 1024).filter (s.enabled d))

/-- The parameter block of a die, its bitmap and its map (log 9: DESIGN CHOICE): a page of the die each. -/
def bootParamsAt (d : BitVec 3) : Nat := Config.bootParams + 0x1000 * d.toNat
def bootBitmapAt (d : BitVec 3) : Nat := hubPage d 1024
def bootMapAt (d : BitVec 3) : Nat := hubPage d 1025
def bootImageAt (d : BitVec 3) : Nat := hubPage d 0x103

/-- The headers of a die's logs are clear (R350), its bitmap and map are zero, and the parameter block has its six dwords (R372). -/
def State.writeParams (s : State) (d : BitVec 3) : State :=
  let s := (s.putWords (hubPage d 0) [0, 0, 0]).putWords (hubPage d 129) [0, 0, 0]
  let s := (s.putWords (bootBitmapAt d) (List.replicate 16 0)).putWords (bootMapAt d) (List.replicate 256 0)
  s.putWords (bootParamsAt d) ([s.meshW, s.meshH, bootBitmapAt d, bootMapAt d, bootImageAt d, 16384].map (BitVec.ofNat 64))

/-- Boot state starts on a die (R372): slot 0 of every enabled core runs. -/
def State.startBoot (s : State) (d : BitVec 3) : State :=
  let corner := s.bootCorner d
  let s := (s.writeParams d).setDie d { s.die d with boot := true }
  { s with cores := s.cores ++ ((List.range 1024).filter (s.enabled d)).map fun p =>
      (1024 * d.toNat + p, bootCore s.meshW s.meshH Config.bootEntry (bootParamsAt d) (decide (corner = some p))) }

-- the boot (R363, R364, R369)

/-- The first check of R362 that an image fails for a type: 1 the layout and magic, 2 the vendor key, 3 the signature, 4 the type, 5 the version; the
numbers are the model's (log 11: DESIGN CHOICE). -/
def Root.imageFail (x : Root) (bundle : BitVec 1) (typ : Nat) : Option Nat :=
  let i := x.image bundle typ
  let key := (i.drop 16).take 1793
  if i.length < 3096 + imageField i 12 4 ∨ imageField i 0 4 ≠ 0x56464D31 ∨ imageField i 1809 7 ≠ 0 then some 1
  else if Config.shake256 key ≠ x.vkh then some 2
  else if Config.verifies (BitVec.ofNat 14344 (leNat key)) (imageDigest i) (BitVec.ofNat 10240 (imageField i 1816 1280)) = false then some 3
  else if imageField i 4 4 ≠ typ then some 4
  else if imageVersion i < x.counters[typ - 1]?.getD 0 ∨ 31 < imageVersion i then some 5
  else none

/-- What the checks find of a bundle: type and check (R363). -/
def Root.bundleFails (x : Root) (bundle : BitVec 1) : List (Nat × Nat × Nat) :=
  [1, 2, 3].filterMap fun typ => (x.imageFail bundle typ).map fun k => (bundle.toNat, typ, k)
/-- Every image of a bundle is valid. -/
def Root.bundleOk (x : Root) (bundle : BitVec 1) : Bool := (x.bundleFails bundle).isEmpty

/-- The identity key of the part: the same at every boot (R366). -/
def Root.identityKey (x : Root) : BitVec 14344 := Config.falconPublic (Config.shake256 (leBytes 32 x.uds.toNat))

/-- The root-of-trust core after a reset: flash, list and fuses stay; the identity key is derived, and the unique device secret is closed
(R366); a valid bundle is measured (R364). -/
def State.bootRoot (s : State) (bundle : Option (BitVec 1)) : Root :=
  let x := s.root
  let fails := x.bundleFails 0 ++ if x.bundleOk 0 then [] else x.bundleFails 1
  let r : Root :=
    { counters := x.counters, flash := x.flash, disable := x.disable, applied := x.disable, boots := x.boots + 1, vkh := x.vkh, uds := x.uds,
      udsOpen := false, identity := x.identityKey, fails := fails }
  match bundle with
  | none => { r with recovery := true }
  | some b =>
    let m (r : Root) (i typ : Nat) : Root := r.measure i (imageDigest (r.image b typ))
    let maps := Config.shake256 (s.fuseMaps ++ x.disable.flatMap fun w => leBytes 8 w.toNat)
    m ((m (m { r with bundle := b } 0 1) 2 3).measure 3 maps) 1 2

/-- The spokes after a boot: spoke 0 of a die as the board configuration image selects, an unusable one fenced (R329, R370). (log 2: DESIGN CHOICE) -/
def State.bootSpokes (s : State) (b : BitVec 1) : Vector Spoke 32 :=
  let board := imageBody (s.root.image b 3)
  Vector.ofFn fun i =>
    { cxl := decide (i.val % 4 = 0) && Config.boardCxl board (i.val / 4)
      fenced := !(s.die (BitVec.ofNat 3 (i.val / 4))).fuse.getLsbD (13312 + i.val % 4) }

/-- The slabs after a boot: groups that are off are fenced (R370). -/
def State.bootSlabs (s : State) : Sparse Slab :=
  (List.range 8192).filterMap fun k =>
    let d := BitVec.ofNat 3 (k / 1024)
    let off := (List.range 12).filter fun g => !(s.die d).fuse.getLsbD (1024 + 12 * (k % 1024) + g) || offGroup s.root.disable d (k % 1024) g
    if off = [] then none else some (k, { fenced := off })

/-- The machine after the release of reset: memory with its marks, the HBM rows' history, the fuses and the host's side stay, and times start again
with the clocks (log 28: DEDUCED); the rest is as at reset. -/
def State.cleared (s : State) (bundle : Option (BitVec 1)) : State :=
  { State.reset with
    meshW := s.meshW, meshH := s.meshH, dies := s.dies.map fun d => { fuse := d.fuse }
    root := s.bootRoot bundle, notes := s.notes, readOut := s.readOut, readPois := s.readPois, hot := s.hot.map fun e => (e.1, 0)
    scores := s.scores, rowPages := s.rowPages, noSpare := s.noSpare, spares := s.spares, wseq := s.wseq, mem := s.mem,
    poisLines := s.poisLines, poisKeys := s.poisKeys, seqno := s.seqno, fresh := s.fresh }

/-- Bytes of the hub firmware from an index put into a die's firmware pages (R369 step 4; the first byte stands at the entry address of boot state,
log 9: DESIGN CHOICE); the pages end with number 1,023. -/
def putFirmware (d : BitVec 3) (m : List Host.Cell) (i : Nat) : List Byte → List Host.Cell
  | [] => m
  | b :: bs =>
    if 1023 < 260 + i / 4096 then m
    else putFirmware d (Memory.write m (hubPage d (260 + i / 4096) + i % 4096) b) (i + 1) bs
/-- The hub firmware is loaded into every die's firmware pages. -/
def State.loadFirmware (s : State) (b : BitVec 1) : State :=
  let body := imageBody (s.root.image b 2)
  { s with mem := (List.range 8).foldl (fun m d => putFirmware (BitVec.ofNat 3 d) m 0 body) s.mem }

/-- R363, R369: reset is released. The bundle is A where A is valid, else B where B is; with neither, the device stays in recovery. -/
def tryDeviceReset (bundle : BitVec 1) (s : State) : Option State :=
  let chosen : Option (BitVec 1) := if s.root.bundleOk 0 then some 0 else if s.root.bundleOk 1 then some 1 else none
  match chosen with
  | none => some (s.cleared none)
  | some b =>
    if b ≠ bundle then none
    else
      let t := { (s.cleared (some b)).loadFirmware b with spokes := s.bootSpokes b, slabs := s.bootSlabs }
      some ((List.range 8).foldl (fun t d => t.startBoot (BitVec.ofNat 3 d)) t)
def execDeviceReset (bundle : BitVec 1) (s : State) : Out := orSame s (tryDeviceReset bundle s)

-- the end of boot state (R341, R373, R374)

/-- The cores of a die that boot state runs on. -/
def State.bootCores (s : State) (d : BitVec 3) : List CoreId :=
  ((List.range 1024).filter (s.usable d)).map fun p => CoreId.ofKey (1024 * d.toNat + p)

/-- Every slot 0 of a die's boot state has exited. -/
def State.bootOver (s : State) (d : BitVec 3) : Bool := (s.bootCores d).all fun c => decide ((s.slot c 0).st = .exited)

/-- A record of a die's boot state is on its way or waits at a home. -/
def State.bootWaits (s : State) (d : BitVec 3) : Bool :=
  s.transit.any (fun t => decide (t.die = d ∧ t.r.ctx = 0 ∧ t.r.skind = 0))
    || s.acceptedRecs.any fun a => decide (a.r.ctx = 0 ∧ a.r.sdie = d ∧ a.r.skind = 0)

/-- Entry k of the map that the program leaves, read from the base image at the address in the parameter block (R374). -/
def State.mapEntry (s : State) (d : BitVec 3) (k : Nat) : Nat :=
  s.readMem (s.readMem (bootParamsAt d + 24) 8 + 2 * k) 2

/-- The logical numbers loaded from the map. -/
def State.loadMap (s : State) (d : BitVec 3) : State :=
  (List.range (s.bootCores d).length).foldl (fun t k =>
    let p := s.mapEntry d k
    let c : CoreId := ⟨d, BitVec.ofNat 5 (p % s.meshW), BitVec.ofNat 5 (p / s.meshW)⟩
    t.setCore c { t.core c with lnum := BitVec.ofNat 10 k }) s

/-- The mesh distance of a position from the router of spoke k (R329, R341). -/
def gateDist (k p : Nat) : Nat :=
  let rx := if k < 2 then 0 else 31
  let ry := if k % 2 = 0 then 8 else 23
  (max (p % 32) rx - min (p % 32) rx) + (max (p / 32) ry - min (p / 32) ry)

/-- The two gateway cores of spoke k of a die, from those not yet chosen. -/
def State.pickGates (s : State) (d : BitVec 3) (k : Nat) (chosen : List Nat) : List Nat :=
  let free (l : List Nat) : List Nat := (List.range 1024).filter fun p => s.enabled d p && !l.contains p
  match leastBy (gateDist k) (free chosen) with
  | none => []
  | some a => a :: (match leastBy (gateDist k) (free (a :: chosen)) with
    | none => []
    | some b => [b])

/-- The gateway cores of a die's spokes, in their order; the hub reports each choice (R341), to the host, in a form that the spec does
not give (log 84: DESIGN CHOICE). -/
def State.chooseGates (s : State) (d : BitVec 3) : State :=
  ((List.range 4).foldl (fun (a : State × List Nat) k =>
    let ps := s.pickGates d k a.2
    let n := 4 * d.toNat + k
    let gs := ps.map fun p => CoreId.ofKey (1024 * d.toNat + p)
    let t := a.1.setSpoke n { a.1.spoke n with gates := gs }
    ({ t with gateReport := t.gateReport ++ [(n, gs)] }, a.2 ++ ps)) (s, [])).1

/-- Boot state's blocks leave the cores of a die. -/
def State.unboot (s : State) (d : BitVec 3) : State :=
  { s with cores := s.cores.map fun e =>
      if e.1 / 1024 = d.toNat then (e.1, { e.2 with table := [], slots := e.2.slots.map Slot.free }) else e }

/-- A die has left boot state: its routes are set, and once no die is in it the spokes train, and the device is ready (R331, R369 step 6). (log 60: DEDUCED) -/
def State.trained (s : State) (d : BitVec 3) : State :=
  let t := s.setDie d { s.die d with boot := false, routes := s.peerSpokes d }
  { t with root := { t.root with trained := t.dies.all fun x => !x.boot, ready := t.dies.all fun x => !x.boot && !x.held } }

/-- R374: once every slot 0 of the die has exited: the cores are drained one after another, and when every record is applied the map is
loaded, the gateway cores are chosen and boot state is over. -/
def tryBootStateEnd (die : BitVec 3) (s : State) : Option State :=
  let d := s.die die
  if !d.boot || d.held || !s.bootOver die then none
  else
    match (s.bootCores die).find? fun c => decide (((s.core c).blockAt 0).ph ≠ .sent) with
    | some c => match s.blockDrain c 0 ((s.core c).blockAt 0) with
      | .go t => some t
      | .wait => none
      | .finished => none
    | none => if s.bootWaits die then none else some ((((s.loadMap die).unboot die).chooseGates die).trained die)
def execBootStateEnd (die : BitVec 3) (s : State) : Out := orSame s (tryBootStateEnd die s)

end Sys2Proof.Machine
end

