-- ==== Sys2Proof/Machine/Control.lean ====
section
/-! DEFINITION. Branches, loops and taint instructions (spec/05 R114 to R119). -/

namespace Sys2Proof.Machine

/-- The address after the current instruction, and a 64-bit address as a pc. -/
def State.nextPc (s : State) (len : Nat) : BitVec 48 := s.cs.pc + BitVec.ofNat 48 len
/-- A mask joined into the control taint (R27). -/
def State.joinCtaint (s : State) (t : Byte) : State := s.setCs { s.cs with ctaint := s.cs.ctaint ||| t }
/-- The link of a call: the next address, with the guard's taint alone (R114). -/
def State.link (s : State) (len : Nat) (gt : Byte) : State := s.putG 59 ((s.nextPc len).setWidth 64) gt false

/-- The target of form J (R87): 18 signed bits of words. -/
def targetJ (pc : BitVec 48) (ob oa od : BitVec 6) : BitVec 48 := pc + ((ob ++ oa ++ od).signExtend 48 <<< 2)

/-- A branch to a register's address (R114): the checks of the target, then the jump. -/
def State.jumpTo (s : State) (target : Word) (t : State) : Res :=
  if target.extractLsb' 0 2 ≠ 0 then .trap s causeMisaligned target
  else if target.extractLsb' 48 16 ≠ 0 then .trap s causeNotPresent target
  else .jump t (target.setWidth 48)

/-- R114. -/
def execBra (gd : Guard) (ob oa od : BitVec 6) (s : State) : Out :=
  s.issue { gd := gd, len := 4, reads := [], writes := [], ctl := true } false fun e =>
    .jump (s.joinCtaint e.taint) (targetJ s.cs.pc ob oa od)

/-- R114. -/
def execCall (gd : Guard) (ob oa od : BitVec 6) (s : State) : Out :=
  s.issue { gd := gd, len := 4, reads := [], writes := [.g 59], ctl := true } false fun e =>
    .jump ((s.joinCtaint e.taint).link 4 e.gt) (targetJ s.cs.pc ob oa od)

/-- R114. -/
def execBrx (gd : Guard) (a : GIx) (s : State) : Out :=
  s.issue { gd := gd, len := 4, reads := [.g a], writes := [], traps := [.g a], ctl := true } false fun e =>
    s.jumpTo (s.g a) (s.joinCtaint e.taint)

/-- R114: the target is read before the link is written. -/
def execCallx (gd : Guard) (a : GIx) (s : State) : Out :=
  s.issue { gd := gd, len := 4, reads := [.g a], writes := [.g 59], traps := [.g a], ctl := true } false fun e =>
    s.jumpTo (s.g a) ((s.joinCtaint e.taint).link 4 e.gt)

/-- R114. -/
def execRet (gd : Guard) (s : State) : Out :=
  s.issue { gd := gd, len := 4, reads := [.g 59], writes := [], traps := [.g 59], ctl := true } false fun e =>
    s.jumpTo (s.g 59) (s.joinCtaint e.taint)

/-- The tag of the head message (R114). -/
def Slot.headTag (x : Slot) : Option Byte :=
  match x.inbox with
  | [] => none
  | m :: _ => some m.tag

/-- R114: taken when the head message has the tag; it neither waits nor dequeues. -/
def execBtag (gd : Guard) (tag : Byte) (off : BitVec 32) (s : State) : Out :=
  s.issue { gd := gd, len := 12, reads := [], writes := [], ctl := true } false fun e =>
    if s.cs.headTag = some tag then .jump (s.joinCtaint e.taint) (s.cs.pc + off.signExtend 48)
    else .done (s.joinCtaint e.taint)

/-- The effect of LOOP with a count (R115). -/
def State.loop (s : State) (n : BitVec 32) (endo : BitVec 16) (t : Byte) : Res :=
  let x := s.cs
  let start := s.nextPc 12
  let fin := start + (endo.setWidth 48 <<< 2)
  if (match x.loops with | [] => false | e :: _ => decide (e.fin = x.pc)) then .trap s causeLoop 0
  else if n = 0 then
    match s.tr (fin.setWidth 64) needX with
    | .miss u => .lostWith u
    | .fault u cause => .faultAt u cause (fin.setWidth 64) fin
    | .ok pa => .jump (s.joinCtaint t) (fin + BitVec.ofNat 48 (firstLen (s.readBase pa 4)))
  else if x.loops.length = 4 then .trap s causeLoop 0
  else
    let s := s.joinCtaint t
    .jump (s.setCs { s.cs with loops := ⟨start, fin, n⟩ :: s.cs.loops }) start

/-- R115. -/
def execLoopImm (gd : Guard) (n : BitVec 32) (endo : BitVec 16) (s : State) : Out :=
  s.issue { gd := gd, len := 12, reads := [], writes := [], ctl := true } false fun e => s.loop n endo e.taint

/-- R115: the count is in bits 31:0 of gA. -/
def execLoopReg (gd : Guard) (a : GIx) (endo : BitVec 16) (s : State) : Out :=
  s.issue { gd := gd, len := 12, reads := [.g a], writes := [], traps := [.g a], ctl := true } false fun e =>
    s.loop ((s.g a).setWidth 32) endo e.taint

/-- R117: pops the innermost entry; the end-of-body test runs on what is left. -/
def execLexit (gd : Guard) (s : State) : Out :=
  s.issue { gd := gd, len := 4, reads := [], writes := [], ctl := true } false fun e =>
    match s.cs.loops with
    | [] => .trap s causeLoop 0
    | _ :: r =>
      let s := s.joinCtaint e.taint
      .done (s.setCs { s.cs with loops := r })

-- R118, R119

/-- A register by kind and number (R97). -/
def regOf (kind : BitVec 2) (n : BitVec 6) : RegId :=
  match kind.toNat with
  | 0 => .g n
  | 1 => .p (n.setWidth 3)
  | 2 => .v (n.setWidth 5)
  | _ => .m (n.setWidth 3)

/-- The register stands for the control taint: g0 (R118). -/
def isCtaint (r : RegId) : Bool := decide (r = .g 0)

/-- R118: clears bits of a taint mask. -/
def execTclr (gd : Guard) (dc : BitVec 2) (d : BitVec 6) (mask : Byte) (s : State) : Out :=
  let x := regOf dc d
  s.issue { gd := gd, len := 12, reads := [], writes := [x], ctl := isCtaint x, touch := true } false fun _ =>
    if isCtaint x then .done (s.setCs { s.cs with ctaint := s.cs.ctaint &&& ~~~mask })
    else .done (s.setCs (s.cs.setTaint ((s.cs.mark x).taint &&& ~~~mask) x))

/-- R118: joins y's taint into x's. Where y is g60 or g62 it counts as read in the sense of R12 (log 70: DEDUCED). -/
def execTdep (gd : Guard) (dc : BitVec 2) (d : BitVec 6) (ac : BitVec 2) (a : BitVec 6) (s : State) : Out :=
  let x := regOf dc d
  let y := regOf ac a
  s.issue { gd := gd, len := 12, reads := [y], writes := [x], ctl := isCtaint x, touch := true } false fun _ =>
    let t := (s.cs.mark y).taint
    if isCtaint x then .done (s.joinCtaint t)
    else .done (s.setCs (s.cs.setTaint ((s.cs.mark x).taint ||| t) x))

/-- R118: waits until no tag of the mask is busy. -/
def execTwait (gd : Guard) (mask : Byte) (s : State) : Out :=
  s.issue { gd := gd, len := 12, reads := [], writes := [] } (decide (s.cs.busyTags &&& mask ≠ 0)) fun _ => .done s

/-- R119: a register's poison bit, the busy tags, its taint. Where y is g60 or g62 it counts as read (log 70: DEDUCED). -/
def execTget (gd : Guard) (d : GIx) (ac : BitVec 2) (a : BitVec 6) (s : State) : Out :=
  let y := regOf ac a
  s.issue { gd := gd, len := 12, reads := [y], writes := [.g d] } false fun e =>
    let mask := if isCtaint y then s.cs.ctaint else (s.cs.mark y).taint
    let po := (s.cs.mark y).pois
    .done (s.putG d ((0 : BitVec 47) ++ BitVec.ofBool po ++ s.cs.busyTags ++ mask) e.gt false)

end Sys2Proof.Machine
end

