-- ==== Sys2Proof/Machine/Float.lean ====
section
/-! DEFINITION. Scalar floating point (spec/05 R120 to R125). -/

namespace Sys2Proof.Machine

/-- The type of the base form, and of `FT` (R97, R120). -/
def fmtS (f32 : Bool) : FFmt := if f32 then .fp32 else .fp64
def fmtT (ft : BitVec 2) : FFmt :=
  match ft.toNat with
  | 0 => .fp64 | 1 => .fp32 | 2 => .fp16 | _ => .bf16

/-- How an instruction computes: the type, the mode, FPCR's flush bits (R43, R120). -/
structure FpEnv where
  fmt  : FFmt
  mode : RMode
  fzi  : Bool
  fzo  : Bool
  deriving DecidableEq, Repr

def State.fpEnv (s : State) (f : FFmt) (rmo : BitVec 3) : FpEnv :=
  ⟨f, RMode.ofCode (rmCode rmo s.cs.fpcr), fpFzi s.cs.fpcr, fpFzo s.cs.fpcr⟩

/-- An operand: the low bits of a word (R120). -/
def FpEnv.dec (e : FpEnv) (v : Nat) : XVal := decodeF e.fmt e.fzi (v % 2 ^ e.fmt.width)
def FpEnv.rdn (e : FpEnv) : Bool := decide (e.mode = .rdn)
/-- The rounding of an exact result with the flags that the operands and the operation raised (R121). -/
def FpEnv.round (e : FpEnv) (fl : FFlags) (x : XVal × FFlags) : Nat × FFlags :=
  let (r, fl') := roundF e.fmt e.mode false e.fzo x.1
  (r, fl ||| x.2 ||| fl')

def FpEnv.add (e : FpEnv) (a b : Nat) : Nat × FFlags :=
  let x := e.dec a
  let y := e.dec b
  e.round (x.sigFlag ||| y.sigFlag) (xadd e.rdn x y)
def FpEnv.sub (e : FpEnv) (a b : Nat) : Nat × FFlags :=
  let x := e.dec a
  let y := e.dec b
  e.round (x.sigFlag ||| y.sigFlag) (xadd e.rdn x y.negate)
def FpEnv.mul (e : FpEnv) (a b : Nat) : Nat × FFlags :=
  let x := e.dec a
  let y := e.dec b
  e.round (x.sigFlag ||| y.sigFlag) (xmul x y)
def FpEnv.div (e : FpEnv) (a b : Nat) : Nat × FFlags :=
  let x := e.dec a
  let y := e.dec b
  e.round (x.sigFlag ||| y.sigFlag) (xdiv x y)
def FpEnv.sqrt (e : FpEnv) (a : Nat) : Nat × FFlags :=
  let x := e.dec a
  e.round x.sigFlag (xsqrt x)
/-- Rounded once; 0 × ∞ raises NV whatever the addend is. -/
def FpEnv.fma (e : FpEnv) (a b c : Nat) : Nat × FFlags :=
  let x := e.dec a
  let y := e.dec b
  let z := e.dec c
  let p := xmul x y
  e.round (x.sigFlag ||| y.sigFlag ||| z.sigFlag ||| p.2) (xadd e.rdn p.1 z)
/-- Minimum and maximum return an operand's encoding (R122). -/
def FpEnv.minMax (isMax : Bool) (e : FpEnv) (a b : Nat) : Nat × FFlags :=
  fminmax isMax e.fmt e.fzi (a % 2 ^ e.fmt.width) (b % 2 ^ e.fmt.width)

/-- A two-operand floating-point instruction. -/
def State.fp2 (f : FpEnv → Nat → Nat → Nat × FFlags) (fmt : FFmt) (rmo : BitVec 3) (len : Nat) (gd : Guard) (d a : GIx) (b : OpB)
    (s : State) : Out :=
  s.issue { gd := gd, len := len, reads := .g a :: opBReads b, writes := [.g d] } false fun e =>
    let r := f (s.fpEnv fmt rmo) (s.g a).toNat (s.opB b).toNat
    s.fpEnd r.2 fun t => t.putG d (BitVec.ofNat 64 r.1) e.taint e.pois

/-- The rotations of a long floating-point result (R107). -/
def fpLong (f : FFmt) : Nat := if f = .fp64 then 4 else 2

/-- FDIV: long. -/
def State.fpDiv (fmt : FFmt) (rmo : BitVec 3) (len : Nat) (gd : Guard) (d a : GIx) (b : OpB) (s : State) : Out :=
  s.issue { gd := gd, len := len, reads := .g a :: opBReads b, writes := [.g d] } false fun e =>
    let r := (s.fpEnv fmt rmo).div (s.g a).toNat (s.opB b).toNat
    s.fpEnd r.2 fun t => t.startLong (.g d) (BitVec.ofNat 256 r.1) e.taint e.pois (fpLong fmt)

/-- FCMP (R123). -/
def State.fcmp (fmt : FFmt) (len : Nat) (gd : Guard) (cc : BitVec 3) (q : PIx) (a : GIx) (b : OpB) (s : State) : Out :=
  s.issue { gd := gd, len := len, reads := .g a :: opBReads b, writes := [.p q] } false fun e =>
    let v := s.fpEnv fmt 0
    let r := fcompare cc.toNat (v.dec (s.g a).toNat) (v.dec (s.opB b).toNat)
    s.fpEnd r.2 fun t => t.putP q r.1 e.taint e.pois

/-- R121. -/
def execFadd (gd : Guard) (f32 : Bool) (d a b : GIx) (s : State) : Out :=
  s.fp2 FpEnv.add (fmtS f32) 0 4 gd d a (.reg b)
/-- R121. -/
def execFaddLit (gd : Guard) (f32 : Bool) (d a : GIx) (w : Word) (s : State) : Out :=
  s.fp2 FpEnv.add (fmtS f32) 0 12 gd d a (.lit w)
/-- R121. -/
def execFaddExt (gd : Guard) (ft : BitVec 2) (rmo : BitVec 3) (d a : GIx) (b : OpB) (s : State) : Out :=
  s.fp2 FpEnv.add (fmtT ft) rmo (extLen b) gd d a b
/-- R121. -/
def execFsub (gd : Guard) (f32 : Bool) (d a b : GIx) (s : State) : Out :=
  s.fp2 FpEnv.sub (fmtS f32) 0 4 gd d a (.reg b)
/-- R121. -/
def execFsubLit (gd : Guard) (f32 : Bool) (d a : GIx) (w : Word) (s : State) : Out :=
  s.fp2 FpEnv.sub (fmtS f32) 0 12 gd d a (.lit w)
/-- R121. -/
def execFsubExt (gd : Guard) (ft : BitVec 2) (rmo : BitVec 3) (d a : GIx) (b : OpB) (s : State) : Out :=
  s.fp2 FpEnv.sub (fmtT ft) rmo (extLen b) gd d a b
/-- R121. -/
def execFmul (gd : Guard) (f32 : Bool) (d a b : GIx) (s : State) : Out :=
  s.fp2 FpEnv.mul (fmtS f32) 0 4 gd d a (.reg b)
/-- R121. -/
def execFmulLit (gd : Guard) (f32 : Bool) (d a : GIx) (w : Word) (s : State) : Out :=
  s.fp2 FpEnv.mul (fmtS f32) 0 12 gd d a (.lit w)
/-- R121. -/
def execFmulExt (gd : Guard) (ft : BitVec 2) (rmo : BitVec 3) (d a : GIx) (b : OpB) (s : State) : Out :=
  s.fp2 FpEnv.mul (fmtT ft) rmo (extLen b) gd d a b
/-- R121. -/
def execFdiv (gd : Guard) (f32 : Bool) (d a b : GIx) (s : State) : Out :=
  s.fpDiv (fmtS f32) 0 4 gd d a (.reg b)
/-- R121. -/
def execFdivLit (gd : Guard) (f32 : Bool) (d a : GIx) (w : Word) (s : State) : Out :=
  s.fpDiv (fmtS f32) 0 12 gd d a (.lit w)
/-- R121. -/
def execFdivExt (gd : Guard) (ft : BitVec 2) (rmo : BitVec 3) (d a : GIx) (b : OpB) (s : State) : Out :=
  s.fpDiv (fmtT ft) rmo (extLen b) gd d a b
/-- R121. -/
def execFfma (gd : Guard) (ft : BitVec 2) (rmo : BitVec 3) (d a : GIx) (b : OpB) (c : GIx) (s : State) : Out :=
  s.issue { gd := gd, len := extLen b, reads := .g a :: .g c :: opBReads b, writes := [.g d] } false fun e =>
    let r := (s.fpEnv (fmtT ft) rmo).fma (s.g a).toNat (s.opB b).toNat (s.g c).toNat
    s.fpEnd r.2 fun t => t.putG d (BitVec.ofNat 64 r.1) e.taint e.pois
/-- R121: long; a literal stands in place of gA. -/
def execFsqrt (gd : Guard) (ft : BitVec 2) (rmo : BitVec 3) (d : GIx) (a : OpB) (s : State) : Out :=
  s.issue { gd := gd, len := extLen a, reads := opBReads a, writes := [.g d] } false fun e =>
    let r := (s.fpEnv (fmtT ft) rmo).sqrt (s.opB a).toNat
    s.fpEnd r.2 fun t => t.startLong (.g d) (BitVec.ofNat 256 r.1) e.taint e.pois (fpLong (fmtT ft))
/-- R122. -/
def execFmin (gd : Guard) (f32 : Bool) (d a b : GIx) (s : State) : Out :=
  s.fp2 (FpEnv.minMax false) (fmtS f32) 0 4 gd d a (.reg b)
/-- R122. -/
def execFminLit (gd : Guard) (f32 : Bool) (d a : GIx) (w : Word) (s : State) : Out :=
  s.fp2 (FpEnv.minMax false) (fmtS f32) 0 12 gd d a (.lit w)
/-- R122. -/
def execFminExt (gd : Guard) (ft : BitVec 2) (rmo : BitVec 3) (d a : GIx) (b : OpB) (s : State) : Out :=
  s.fp2 (FpEnv.minMax false) (fmtT ft) rmo (extLen b) gd d a b
/-- R122. -/
def execFmax (gd : Guard) (ft : BitVec 2) (rmo : BitVec 3) (d a : GIx) (b : OpB) (s : State) : Out :=
  s.fp2 (FpEnv.minMax true) (fmtT ft) rmo (extLen b) gd d a b
/-- R123. -/
def execFcmp (gd : Guard) (f32 : Bool) (cc : BitVec 3) (q : PIx) (a b : GIx) (s : State) : Out :=
  s.fcmp (fmtS f32) 4 gd cc q a (.reg b)
/-- R123. -/
def execFcmpLit (gd : Guard) (f32 : Bool) (cc : BitVec 3) (q : PIx) (a : GIx) (w : Word) (s : State) : Out :=
  s.fcmp (fmtS f32) 12 gd cc q a (.lit w)
/-- R123. -/
def execFcmpExt (gd : Guard) (ft : BitVec 2) (_rmo : BitVec 3) (cc : BitVec 3) (q : PIx) (a : GIx) (b : OpB) (s : State) : Out :=
  s.fcmp (fmtT ft) (extLen b) gd cc q a b
/-- R124: an integer result is extended to 64 bits by its signedness, a floating one is zero-extended; `rsr` steps the generator
once for a destination of 16 bits or fewer (R51). -/
def execFcvt (gd : Guard) (rmo : BitVec 3) (dst src : BitVec 5) (d a : GIx) (s : State) : Out :=
  s.issue { gd := gd, len := 12, reads := [.g a], writes := [.g d] } false fun e =>
    let r0 := s.rounder (rmCode rmo s.cs.fpcr) (codeBits dst)
    let (mode, r) := r0.next
    let x := decodeCode src (fpFzi s.cs.fpcr) (s.g a).toNat
    let (v, fl) := encodeCode dst mode (fpSatf s.cs.fpcr) (fpFzo s.cs.fpcr) x
    let w : Word := if codeIsInt dst then BitVec.ofInt 64 (intOf (codeSigned dst) (codeBits dst) v) else BitVec.ofNat 64 v
    (s.putSr r).fpEnd fl fun t => t.putG d w e.taint e.pois
/-- R125. -/
def execFclass (gd : Guard) (ty : BitVec 5) (d a : GIx) (s : State) : Out :=
  s.issue { gd := gd, len := 12, reads := [.g a], writes := [.g d] } false fun e =>
    let f := FFmt.ofCode ty
    .done (s.putG d (BitVec.ofNat 64 (2 ^ fclassBit f ((s.g a).toNat % 2 ^ f.width))) e.taint e.pois)

end Sys2Proof.Machine
end

