-- ==== Sys2Proof/Machine/Integer.lean ====
section
/-! DEFINITION. Integer instructions (spec/05 R107 to R113): two operands, multiply-high, division, bits, fields, SEL, LEA, compares and
predicate logic. -/

namespace Sys2Proof.Machine

-- what the operations give (R109); operands at 64 bits, the result at the operation's width

def aluAdd (w32 : Bool) (a b : Word) : Word := fit w32 (a + b)
def aluSub (w32 : Bool) (a b : Word) : Word := fit w32 (a - b)
def aluMul (w32 : Bool) (a b : Word) : Word := fit w32 (a * b)
def aluAnd (w32 : Bool) (a b : Word) : Word := fit w32 (a &&& b)
def aluOr (w32 : Bool) (a b : Word) : Word := fit w32 (a ||| b)
def aluXor (w32 : Bool) (a b : Word) : Word := fit w32 (a ^^^ b)
def aluAndn (w32 : Bool) (a b : Word) : Word := fit w32 (a &&& ~~~b)
def aluOrn (w32 : Bool) (a b : Word) : Word := fit w32 (a ||| ~~~b)
/-- The count is taken modulo the width. -/
def shiftCount (w32 : Bool) (b : Word) : Nat := b.toNat % opWidth w32
def aluShl (w32 : Bool) (a b : Word) : Word := fit w32 (a <<< shiftCount w32 b)
def aluShr (w32 : Bool) (a b : Word) : Word := fit w32 (BitVec.ofNat 64 (natAt w32 a >>> shiftCount w32 b))
def aluSra (w32 : Bool) (a b : Word) : Word :=
  if w32 then ((a.setWidth 32).sshiftRight (shiftCount w32 b)).signExtend 64 else a.sshiftRight (shiftCount w32 b)
def aluRol (w32 : Bool) (a b : Word) : Word :=
  if w32 then ((a.setWidth 32).rotateLeft (shiftCount w32 b)).signExtend 64 else a.rotateLeft (shiftCount w32 b)
def aluMin (w32 : Bool) (a b : Word) : Word := fit w32 (if intAt w32 a ≤ intAt w32 b then a else b)
def aluMax (w32 : Bool) (a b : Word) : Word := fit w32 (if intAt w32 a < intAt w32 b then b else a)
def aluMinn (w32 : Bool) (a b : Word) : Word := fit w32 (if natAt w32 a ≤ natAt w32 b then a else b)
def aluMaxn (w32 : Bool) (a b : Word) : Word := fit w32 (if natAt w32 a < natAt w32 b then b else a)

-- R110

def aluMulh (w32 : Bool) (a b : Word) : Word := ofIntAt w32 ((intAt w32 a * intAt w32 b) / 2 ^ opWidth w32)
def aluMulhn (w32 : Bool) (a b : Word) : Word := fit w32 (BitVec.ofNat 64 ((natAt w32 a * natAt w32 b) / 2 ^ opWidth w32))
/-- Toward zero; all ones for b = 0; the most negative value by −1 wraps to itself. -/
def aluDiv (w32 : Bool) (a b : Word) : Word :=
  if natAt w32 b = 0 then BitVec.allOnes 64 else ofIntAt w32 (Int.tdiv (intAt w32 a) (intAt w32 b))
def aluDivn (w32 : Bool) (a b : Word) : Word :=
  if natAt w32 b = 0 then BitVec.allOnes 64 else fit w32 (BitVec.ofNat 64 (natAt w32 a / natAt w32 b))
def aluRem (w32 : Bool) (a b : Word) : Word :=
  if natAt w32 b = 0 then fit w32 a else ofIntAt w32 (Int.tmod (intAt w32 a) (intAt w32 b))
def aluRemn (w32 : Bool) (a b : Word) : Word :=
  if natAt w32 b = 0 then fit w32 a else fit w32 (BitVec.ofNat 64 (natAt w32 a % natAt w32 b))

-- R111

/-- Zero bits above the highest one bit. -/
def bitClz (w32 : Bool) (a : Word) : Word :=
  let v := natAt w32 a
  BitVec.ofNat 64 (if v = 0 then opWidth w32 else opWidth w32 - 1 - v.log2)
/-- Zero bits below the lowest one bit, of `n` bits. -/
def lowZeros : Nat → Nat → Nat
  | 0, _ => 0
  | n + 1, v => if v % 2 = 1 then 0 else 1 + lowZeros n (v / 2)
def bitCtz (w32 : Bool) (a : Word) : Word := BitVec.ofNat 64 (lowZeros (opWidth w32) (natAt w32 a))
def bitPopc (w32 : Bool) (a : Word) : Word := BitVec.ofNat 64 (popNat (opWidth w32) (natAt w32 a))
def bitBrev (w32 : Bool) (a : Word) : Word := if w32 then (a.setWidth 32).reverse.signExtend 64 else a.reverse
def bitBswap (w32 : Bool) (a : Word) : Word :=
  let n := if w32 then 4 else 8
  fit w32 (BitVec.ofNat 64 ((List.range n).foldl (fun r i => r + 256 ^ (n - 1 - i) * (a.toNat / 256 ^ i % 256)) 0))
def bitAbs (w32 : Bool) (a : Word) : Word := ofIntAt w32 (intAt w32 a).natAbs

-- R112

/-- The low `n` bits of a word. -/
def lowBits (n : Nat) (v : Word) : Word := BitVec.ofNat 64 (v.toNat % 2 ^ n)
/-- `pos` + `wm` is beyond the word, or beyond its low half. -/
def fieldBad (w32 : Bool) (pos wm : BitVec 6) : Bool := decide (opWidth w32 - 1 < pos.toNat + wm.toNat)
def fieldX (a : Word) (pos wm : BitVec 6) : Word := lowBits (wm.toNat + 1) (a >>> pos.toNat)
def fieldXs (a : Word) (pos wm : BitVec 6) : Word :=
  let v := fieldX a pos wm
  if v.getLsbD wm.toNat then v - BitVec.ofNat 64 (2 ^ (wm.toNat + 1)) else v
def fieldI (d a : Word) (pos wm : BitVec 6) : Word :=
  let mask := (BitVec.ofNat 64 (2 ^ (wm.toNat + 1) - 1)) <<< pos.toNat
  (d &&& ~~~mask) ||| ((a <<< pos.toNat) &&& mask)

-- R101, R113

def condS (w32 : Bool) (cc : BitVec 3) (a b : Word) : Bool :=
  let x := intAt w32 a
  let y := intAt w32 b
  match cc.toNat with
  | 0 => decide (x = y) | 1 => decide (x ≠ y) | 2 => decide (x < y) | 3 => decide (x ≤ y) | 4 => decide (y < x) | _ => decide (y ≤ x)
def condN (w32 : Bool) (cc : BitVec 3) (a b : Word) : Bool :=
  let x := natAt w32 a
  let y := natAt w32 b
  match cc.toNat with
  | 0 => decide (x = y) | 1 => decide (x ≠ y) | 2 => decide (x < y) | 3 => decide (x ≤ y) | 4 => decide (y < x) | _ => decide (y ≤ x)

-- the shapes

/-- A two-operand integer instruction (R109). -/
def State.alu (f : Bool → Word → Word → Word) (len : Nat) (gd : Guard) (w32 : Bool) (d a : GIx) (b : OpB) (s : State) : Out :=
  s.issue { gd := gd, len := len, reads := .g a :: opBReads b, writes := [.g d] } false fun e =>
    .done (s.putG d (f w32 (s.g a) (s.opB b)) e.taint e.pois)

/-- A long integer instruction (R107, R110): 2 rotations at 32 bits, 4 at 64. -/
def State.aluLong (f : Bool → Word → Word → Word) (gd : Guard) (w32 : Bool) (d a : GIx) (b : OpB) (s : State) : Out :=
  s.issue { gd := gd, len := extLen b, reads := .g a :: opBReads b, writes := [.g d] } false fun e =>
    .done (s.startLong (.g d) ((f w32 (s.g a) (s.opB b)).setWidth 256) e.taint e.pois (if w32 then 2 else 4))

/-- A one-operand bit instruction (R111). -/
def State.alu1 (f : Bool → Word → Word) (gd : Guard) (w32 : Bool) (d a : GIx) (s : State) : Out :=
  s.issue { gd := gd, len := 4, reads := [.g a], writes := [.g d] } false fun e =>
    .done (s.putG d (f w32 (s.g a)) e.taint e.pois)

/-- A bit-field instruction (R112). -/
def State.field (f : Word → Word → BitVec 6 → BitVec 6 → Word) (readsD : Bool) (gd : Guard) (w32 : Bool) (d a : GIx)
    (pos wm : BitVec 6) (s : State) : Out :=
  s.issue { gd := gd, len := 12, reads := .g a :: (if readsD then [.g d] else []), writes := [.g d] } false fun e =>
    if fieldBad w32 pos wm then .trap s causeOperand 0
    else .done (s.putG d (fit w32 (f (s.g d) (s.g a) pos wm)) e.taint e.pois)

/-- A compare (R113). -/
def State.cmp (f : Bool → BitVec 3 → Word → Word → Bool) (len : Nat) (gd : Guard) (w32 : Bool) (cc : BitVec 3) (q : PIx) (a : GIx)
    (b : OpB) (s : State) : Out :=
  s.issue { gd := gd, len := len, reads := .g a :: opBReads b, writes := [.p q] } false fun e =>
    .done (s.putP q (f w32 cc (s.g a) (s.opB b)) e.taint e.pois)

/-- Predicate logic (R113): complemented under `S` = 1. -/
def State.pred2 (f : Bool → Bool → Bool) (gd : Guard) (n : Bool) (d a b : PIx) (s : State) : Out :=
  s.issue { gd := gd, len := 4, reads := [.p a, .p b], writes := [.p d] } false fun e =>
    .done (s.putP d (f (s.cs.readP a) (s.cs.readP b) ^^ n) e.taint e.pois)

-- the instructions

/-- R109. -/
def execAddReg (gd : Guard) (w32 : Bool) (d a b : GIx) (s : State) : Out := s.alu aluAdd 4 gd w32 d a (.reg b)
/-- R91, R109. -/
def execAddImm (gd : Guard) (w32 : Bool) (d a : GIx) (imm : BitVec 6) (s : State) : Out := s.alu aluAdd 4 gd w32 d a (immS imm)
/-- R89, R109. -/
def execAddLit (gd : Guard) (w32 : Bool) (d a : GIx) (w : Word) (s : State) : Out := s.alu aluAdd 12 gd w32 d a (.lit w)
/-- R109. -/
def execSubReg (gd : Guard) (w32 : Bool) (d a b : GIx) (s : State) : Out := s.alu aluSub 4 gd w32 d a (.reg b)
/-- R91, R109. -/
def execSubImm (gd : Guard) (w32 : Bool) (d a : GIx) (imm : BitVec 6) (s : State) : Out := s.alu aluSub 4 gd w32 d a (immS imm)
/-- R89, R109. -/
def execSubLit (gd : Guard) (w32 : Bool) (d a : GIx) (w : Word) (s : State) : Out := s.alu aluSub 12 gd w32 d a (.lit w)
/-- R109. -/
def execMulReg (gd : Guard) (w32 : Bool) (d a b : GIx) (s : State) : Out := s.alu aluMul 4 gd w32 d a (.reg b)
/-- R91, R109. -/
def execMulImm (gd : Guard) (w32 : Bool) (d a : GIx) (imm : BitVec 6) (s : State) : Out := s.alu aluMul 4 gd w32 d a (immS imm)
/-- R89, R109. -/
def execMulLit (gd : Guard) (w32 : Bool) (d a : GIx) (w : Word) (s : State) : Out := s.alu aluMul 12 gd w32 d a (.lit w)
/-- R109. -/
def execAndReg (gd : Guard) (w32 : Bool) (d a b : GIx) (s : State) : Out := s.alu aluAnd 4 gd w32 d a (.reg b)
/-- R91, R109. -/
def execAndImm (gd : Guard) (w32 : Bool) (d a : GIx) (imm : BitVec 6) (s : State) : Out := s.alu aluAnd 4 gd w32 d a (immS imm)
/-- R89, R109. -/
def execAndLit (gd : Guard) (w32 : Bool) (d a : GIx) (w : Word) (s : State) : Out := s.alu aluAnd 12 gd w32 d a (.lit w)
/-- R109. -/
def execOrReg (gd : Guard) (w32 : Bool) (d a b : GIx) (s : State) : Out := s.alu aluOr 4 gd w32 d a (.reg b)
/-- R91, R109. -/
def execOrImm (gd : Guard) (w32 : Bool) (d a : GIx) (imm : BitVec 6) (s : State) : Out := s.alu aluOr 4 gd w32 d a (immS imm)
/-- R89, R109. -/
def execOrLit (gd : Guard) (w32 : Bool) (d a : GIx) (w : Word) (s : State) : Out := s.alu aluOr 12 gd w32 d a (.lit w)
/-- R109. -/
def execXorReg (gd : Guard) (w32 : Bool) (d a b : GIx) (s : State) : Out := s.alu aluXor 4 gd w32 d a (.reg b)
/-- R91, R109. -/
def execXorImm (gd : Guard) (w32 : Bool) (d a : GIx) (imm : BitVec 6) (s : State) : Out := s.alu aluXor 4 gd w32 d a (immS imm)
/-- R89, R109. -/
def execXorLit (gd : Guard) (w32 : Bool) (d a : GIx) (w : Word) (s : State) : Out := s.alu aluXor 12 gd w32 d a (.lit w)
/-- R109. -/
def execShlReg (gd : Guard) (w32 : Bool) (d a b : GIx) (s : State) : Out := s.alu aluShl 4 gd w32 d a (.reg b)
/-- R91, R109. -/
def execShlImm (gd : Guard) (w32 : Bool) (d a : GIx) (imm : BitVec 6) (s : State) : Out := s.alu aluShl 4 gd w32 d a (immN imm)
/-- R89, R109. -/
def execShlLit (gd : Guard) (w32 : Bool) (d a : GIx) (w : Word) (s : State) : Out := s.alu aluShl 12 gd w32 d a (.lit w)
/-- R109. -/
def execShrReg (gd : Guard) (w32 : Bool) (d a b : GIx) (s : State) : Out := s.alu aluShr 4 gd w32 d a (.reg b)
/-- R91, R109. -/
def execShrImm (gd : Guard) (w32 : Bool) (d a : GIx) (imm : BitVec 6) (s : State) : Out := s.alu aluShr 4 gd w32 d a (immN imm)
/-- R89, R109. -/
def execShrLit (gd : Guard) (w32 : Bool) (d a : GIx) (w : Word) (s : State) : Out := s.alu aluShr 12 gd w32 d a (.lit w)
/-- R109. -/
def execSraReg (gd : Guard) (w32 : Bool) (d a b : GIx) (s : State) : Out := s.alu aluSra 4 gd w32 d a (.reg b)
/-- R91, R109. -/
def execSraImm (gd : Guard) (w32 : Bool) (d a : GIx) (imm : BitVec 6) (s : State) : Out := s.alu aluSra 4 gd w32 d a (immN imm)
/-- R89, R109. -/
def execSraLit (gd : Guard) (w32 : Bool) (d a : GIx) (w : Word) (s : State) : Out := s.alu aluSra 12 gd w32 d a (.lit w)
/-- R109. -/
def execRolReg (gd : Guard) (w32 : Bool) (d a b : GIx) (s : State) : Out := s.alu aluRol 4 gd w32 d a (.reg b)
/-- R91, R109. -/
def execRolImm (gd : Guard) (w32 : Bool) (d a : GIx) (imm : BitVec 6) (s : State) : Out := s.alu aluRol 4 gd w32 d a (immN imm)
/-- R89, R109. -/
def execRolLit (gd : Guard) (w32 : Bool) (d a : GIx) (w : Word) (s : State) : Out := s.alu aluRol 12 gd w32 d a (.lit w)
/-- R109. -/
def execMinReg (gd : Guard) (w32 : Bool) (d a b : GIx) (s : State) : Out := s.alu aluMin 4 gd w32 d a (.reg b)
/-- R91, R109. -/
def execMinImm (gd : Guard) (w32 : Bool) (d a : GIx) (imm : BitVec 6) (s : State) : Out := s.alu aluMin 4 gd w32 d a (immS imm)
/-- R89, R109. -/
def execMinLit (gd : Guard) (w32 : Bool) (d a : GIx) (w : Word) (s : State) : Out := s.alu aluMin 12 gd w32 d a (.lit w)
/-- R109. -/
def execMaxReg (gd : Guard) (w32 : Bool) (d a b : GIx) (s : State) : Out := s.alu aluMax 4 gd w32 d a (.reg b)
/-- R91, R109. -/
def execMaxImm (gd : Guard) (w32 : Bool) (d a : GIx) (imm : BitVec 6) (s : State) : Out := s.alu aluMax 4 gd w32 d a (immS imm)
/-- R89, R109. -/
def execMaxLit (gd : Guard) (w32 : Bool) (d a : GIx) (w : Word) (s : State) : Out := s.alu aluMax 12 gd w32 d a (.lit w)
/-- R109. -/
def execMinnReg (gd : Guard) (w32 : Bool) (d a b : GIx) (s : State) : Out := s.alu aluMinn 4 gd w32 d a (.reg b)
/-- R89, R109. -/
def execMinnLit (gd : Guard) (w32 : Bool) (d a : GIx) (w : Word) (s : State) : Out := s.alu aluMinn 12 gd w32 d a (.lit w)
/-- R109. -/
def execMaxnReg (gd : Guard) (w32 : Bool) (d a b : GIx) (s : State) : Out := s.alu aluMaxn 4 gd w32 d a (.reg b)
/-- R89, R109. -/
def execMaxnLit (gd : Guard) (w32 : Bool) (d a : GIx) (w : Word) (s : State) : Out := s.alu aluMaxn 12 gd w32 d a (.lit w)
/-- R109. -/
def execAndnReg (gd : Guard) (w32 : Bool) (d a b : GIx) (s : State) : Out := s.alu aluAndn 4 gd w32 d a (.reg b)
/-- R89, R109. -/
def execAndnLit (gd : Guard) (w32 : Bool) (d a : GIx) (w : Word) (s : State) : Out := s.alu aluAndn 12 gd w32 d a (.lit w)
/-- R109. -/
def execOrnReg (gd : Guard) (w32 : Bool) (d a b : GIx) (s : State) : Out := s.alu aluOrn 4 gd w32 d a (.reg b)
/-- R89, R109. -/
def execOrnLit (gd : Guard) (w32 : Bool) (d a : GIx) (w : Word) (s : State) : Out := s.alu aluOrn 12 gd w32 d a (.lit w)
/-- R110. -/
def execMulh (gd : Guard) (w32 : Bool) (d a : GIx) (b : OpB) (s : State) : Out := s.alu aluMulh (extLen b) gd w32 d a b
/-- R110. -/
def execMulhn (gd : Guard) (w32 : Bool) (d a : GIx) (b : OpB) (s : State) : Out := s.alu aluMulhn (extLen b) gd w32 d a b
/-- R110. -/
def execDiv (gd : Guard) (w32 : Bool) (d a : GIx) (b : OpB) (s : State) : Out := s.aluLong aluDiv gd w32 d a b
/-- R110. -/
def execDivn (gd : Guard) (w32 : Bool) (d a : GIx) (b : OpB) (s : State) : Out := s.aluLong aluDivn gd w32 d a b
/-- R110. -/
def execRem (gd : Guard) (w32 : Bool) (d a : GIx) (b : OpB) (s : State) : Out := s.aluLong aluRem gd w32 d a b
/-- R110. -/
def execRemn (gd : Guard) (w32 : Bool) (d a : GIx) (b : OpB) (s : State) : Out := s.aluLong aluRemn gd w32 d a b
/-- R110: (a × b + c) modulo 2^w. -/
def execMad (gd : Guard) (w32 : Bool) (d a : GIx) (b : OpB) (c : GIx) (s : State) : Out :=
  s.issue { gd := gd, len := extLen b, reads := .g a :: .g c :: opBReads b, writes := [.g d] } false fun e =>
    .done (s.putG d (fit w32 (s.g a * s.opB b + s.g c)) e.taint e.pois)
/-- R111. -/
def execClz (gd : Guard) (w32 : Bool) (d a : GIx) (s : State) : Out := s.alu1 bitClz gd w32 d a
/-- R111. -/
def execCtz (gd : Guard) (w32 : Bool) (d a : GIx) (s : State) : Out := s.alu1 bitCtz gd w32 d a
/-- R111. -/
def execPopc (gd : Guard) (w32 : Bool) (d a : GIx) (s : State) : Out := s.alu1 bitPopc gd w32 d a
/-- R111. -/
def execBrev (gd : Guard) (w32 : Bool) (d a : GIx) (s : State) : Out := s.alu1 bitBrev gd w32 d a
/-- R111. -/
def execBswap (gd : Guard) (w32 : Bool) (d a : GIx) (s : State) : Out := s.alu1 bitBswap gd w32 d a
/-- R111. -/
def execAbs (gd : Guard) (w32 : Bool) (d a : GIx) (s : State) : Out := s.alu1 bitAbs gd w32 d a
/-- R112. -/
def execBfx (gd : Guard) (w32 : Bool) (d a : GIx) (pos wm : BitVec 6) (s : State) : Out := 
  s.field (fun _ a p w => fieldX a p w) false gd w32 d a pos wm
/-- R112. -/
def execBfxs (gd : Guard) (w32 : Bool) (d a : GIx) (pos wm : BitVec 6) (s : State) : Out := 
  s.field (fun _ a p w => fieldXs a p w) false gd w32 d a pos wm
/-- R112. -/
def execBfi (gd : Guard) (w32 : Bool) (d a : GIx) (pos wm : BitVec 6) (s : State) : Out := 
  s.field (fieldI) true gd w32 d a pos wm
/-- R112: the predicate is read as data. -/
def execSel (gd : Guard) (w32 : Bool) (d : GIx) (q : PIx) (a : GIx) (b : OpB) (s : State) : Out :=
  s.issue { gd := gd, len := extLen b, reads := .p q :: .g a :: opBReads b, writes := [.g d] } false fun e =>
    .done (s.putG d (fit w32 (if s.cs.readP q then s.g a else s.opB b)) e.taint e.pois)
/-- R112. -/
def execLea (gd : Guard) (w32 : Bool) (d a : GIx) (b : OpB) (off : BitVec 32) (s : State) : Out :=
  s.issue { gd := gd, len := extLen b, reads := .g a :: opBReads b, writes := [.g d] } false fun e =>
    .done (s.putG d (fit w32 (s.g a + s.opB b + off.signExtend 64)) e.taint e.pois)
/-- R112: the base is the instruction's own address. -/
def execLeaPcr (gd : Guard) (w32 : Bool) (d : GIx) (b : OpB) (off : BitVec 32) (s : State) : Out :=
  s.issue { gd := gd, len := extLen b, reads := opBReads b, writes := [.g d] } false fun e =>
    .done (s.putG d (fit w32 (s.cs.pc.setWidth 64 + s.opB b + off.signExtend 64)) e.taint e.pois)
/-- R113. -/
def execCmpSignedReg (gd : Guard) (w32 : Bool) (cc : BitVec 3) (q : PIx) (a b : GIx) (s : State) : Out := 
  s.cmp condS 4 gd w32 cc q a (.reg b)
/-- R91, R113. -/
def execCmpSignedImm (gd : Guard) (w32 : Bool) (cc : BitVec 3) (q : PIx) (a : GIx) (imm : BitVec 6) (s : State) : Out := 
  s.cmp condS 4 gd w32 cc q a (immS imm)
/-- R89, R113. -/
def execCmpSignedLit (gd : Guard) (w32 : Bool) (cc : BitVec 3) (q : PIx) (a : GIx) (w : Word) (s : State) : Out := 
  s.cmp condS 12 gd w32 cc q a (.lit w)
/-- R113. -/
def execCmpNaturalReg (gd : Guard) (w32 : Bool) (cc : BitVec 3) (q : PIx) (a b : GIx) (s : State) : Out := 
  s.cmp condN 4 gd w32 cc q a (.reg b)
/-- R91, R113. -/
def execCmpNaturalImm (gd : Guard) (w32 : Bool) (cc : BitVec 3) (q : PIx) (a : GIx) (imm : BitVec 6) (s : State) : Out := 
  s.cmp condN 4 gd w32 cc q a (immN imm)
/-- R89, R113. -/
def execCmpNaturalLit (gd : Guard) (w32 : Bool) (cc : BitVec 3) (q : PIx) (a : GIx) (w : Word) (s : State) : Out := 
  s.cmp condN 12 gd w32 cc q a (.lit w)
/-- R113. -/
def execPand (gd : Guard) (n : Bool) (d a b : PIx) (s : State) : Out := s.pred2 (fun x y => x && y) gd n d a b
/-- R113. -/
def execPor (gd : Guard) (n : Bool) (d a b : PIx) (s : State) : Out := s.pred2 (fun x y => x || y) gd n d a b
/-- R113. -/
def execPxor (gd : Guard) (n : Bool) (d a b : PIx) (s : State) : Out := s.pred2 (fun x y => x ^^ y) gd n d a b
/-- R113. -/
def execPmov (gd : Guard) (n : Bool) (d a : PIx) (s : State) : Out :=
  s.issue { gd := gd, len := 4, reads := [.p a], writes := [.p d] } false fun e =>
    .done (s.putP d (s.cs.readP a ^^ n) e.taint e.pois)
/-- R9, R107: a long result is written, in time for the turn that is due. A word for g61 needs room. -/
def tryLongResultWrite (c : CoreId) (k : BitVec 4) (n : Nat) (s : State) : Option State :=
  s.onSlot c k fun s =>
    match takeNth n s.cs.longs with
    | none => none
    | some (l, rest) =>
      if s.instant c < l.due then none
      else if decide (l.dst = .g 61) && !s.outRoom then none
      else some ((s.setCs { (s.cs.setPend false l.dst) with longs := rest }).putReg l.dst l.val l.taint l.pois)
def execLongResultWrite (c : CoreId) (k : BitVec 4) (n : Nat) (s : State) : Out := orSame s (tryLongResultWrite c k n s)

end Sys2Proof.Machine
end

