-- ==== Sys2Proof/Machine/Special.lean ====
section
/-! DEFINITION. VSFU's functions (spec/06 R137): the exact value of each to far more bits than `fp32` keeps. Each answer is
m × 2^e with a mark that the value goes on; the value of a function at a floating argument is either one of the exact cases
named here or irrational, so the mark is never wrong. Fixed point: an integer `v` stands for v / 2^`fxp`. -/

namespace Sys2Proof.Machine

/-- Fraction bits of the fixed-point values. -/
def fxp : Nat := 400

/-- The sum of z^(2k+1) / (2k+1), signs alternating when `alt`: the series of atanh or atan, `n` terms from the k-th. -/
def oddSeries (alt : Bool) (z2 : Int) : Nat → Nat → Int → Int
  | 0, _, _ => 0
  | n + 1, k, p =>
    let t := p / (2 * k + 1 : Nat)
    (if alt && decide (k % 2 = 1) then -t else t) + oddSeries alt z2 n (k + 1) (p * z2 / 2 ^ fxp)

/-- atanh z and atan z of a fixed-point z of at most 1/3. -/
def fxAtanh (z : Int) : Int := oddSeries false (z * z / 2 ^ fxp) 140 0 z
def fxAtan (z : Int) : Int := oddSeries true (z * z / 2 ^ fxp) 140 0 z

/-- The natural logarithm of 2, and π / 2 (Machin's formula). -/
def fxLn2 : Int := 2 * fxAtanh (2 ^ fxp / 3)
def fxHalfPi : Int := 8 * fxAtan (2 ^ fxp / 5) - 2 * fxAtan (2 ^ fxp / 239)

/-- The sum of p × t^k / k! from the k-th term on, with steps of 1. -/
def expSeries (t : Int) : Nat → Nat → Int → Int
  | 0, _, _ => 0
  | n + 1, k, p => p + expSeries t n (k + 1) (p * t / 2 ^ fxp / (k + 1 : Nat))

/-- The sum of every second term of the exponential series, signs alternating: sine from k = 1, cosine from k = 0. -/
def trigSeries (t2 : Int) : Nat → Nat → Int → Int
  | 0, _, _ => 0
  | n + 1, k, p => p - trigSeries t2 n (k + 2) (p * t2 / 2 ^ fxp / ((k + 1) * (k + 2) : Nat))

/-- 2^f for a fixed-point f from 0 to 1, in fixed point. -/
def fxExp2 (f : Int) : Int := expSeries (f * fxLn2 / 2 ^ fxp) 120 0 (2 ^ fxp)

/-- Just below, and just above, m × 2^e, at 64 further bits. -/
def justBelow (n : Bool) (m : Nat) (e : Int) : XVal := .num n (m * 2 ^ 64 - 1) (e - 64) true
def justAbove (n : Bool) (m : Nat) (e : Int) : XVal := .num n (m * 2 ^ 64) (e - 64) true

/-- An irrational value in fixed point. -/
def ofFx (v : Int) (k : Int) : XVal := .num (decide (v < 0)) v.natAbs (k - fxp) true

/-- m × 2^e in fixed point, rounded down. -/
def toFx (m : Nat) (e : Int) : Int := shiftNat m (e + fxp)

/-- 2^a (R137). -/
def sfExp2 (n : Bool) (m : Nat) (e : Int) : XVal :=
  let v : Int := if n then -(toFx m e) else toFx m e
  let exact := decide (m = 0) || (decide (-(fxp : Int) ≤ e) && decide (v % 2 ^ fxp = 0))
  let l := log2Of m e
  if exact then
    let a := v / 2 ^ fxp
    .num false 1 (max (-2000) (min 2000 a)) false
  else if 10 ≤ l then (if n then .num false 1 (-2000) true else .num false 1 2000 false)
  else if l < -70 then (if n then justBelow false 1 0 else justAbove false 1 0)
  else
    let k := v / 2 ^ fxp
    ofFx (fxExp2 (v - k * 2 ^ fxp)) k

/-- log2 a of a positive a (R137). -/
def sfLog2 (m : Nat) (e : Int) : XVal :=
  let l := m.log2
  let k : Int := (l : Int) + e
  if m = 2 ^ l then .ofInt k
  else
    let x := toFx m (-(l : Int))
    let one : Int := 2 ^ fxp
    let z := (x - one) * one / (x + one)
    let frac := 2 * fxAtanh z * one / fxLn2
    ofFx (k * one + frac) 0

/-- 1 / √a of a positive a (R137). -/
def sfRsq (m : Nat) (e : Int) : XVal :=
  let m' := if e % 2 = 1 then 2 * m else m
  let e' := if e % 2 = 1 then e - 1 else e
  let q := 2 ^ 320 / m'
  let r := isqrt 170 q
  .num false r (-(e' / 2) - 160) (decide (r * r * m' ≠ 2 ^ 320))

/-- sin and cos of ± m × 2^e (R137). -/
def sfSinCos (cosine n : Bool) (m : Nat) (e : Int) : XVal :=
  let l := log2Of m e
  if m = 0 then (if cosine then .num false 1 0 false else .zero n)
  else if l < -46 then (if cosine then justBelow false 1 0 else justBelow n m e)
  else
    let a := toFx m e
    let k := a / fxHalfPi
    let r := a - k * fxHalfPi
    let quad := ((if cosine then k + 1 else k) % 4).toNat
    let r2 := r * r / 2 ^ fxp
    let s := trigSeries r2 60 1 r
    let c := trigSeries r2 60 0 (2 ^ fxp)
    let v := match quad with
      | 0 => s
      | 1 => c
      | 2 => -s
      | _ => -c
    ofFx (if n && !cosine then -v else v) 0

/-- tanh of ± m × 2^e (R137). -/
def sfTanh (n : Bool) (m : Nat) (e : Int) : XVal :=
  let l := log2Of m e
  if m = 0 then .zero n
  else if l < -46 then justBelow n m e
  else if 6 ≤ l then justBelow n 1 0
  else
    let t := 2 * toFx m e * 2 ^ fxp / fxLn2
    let k := t / 2 ^ fxp
    let ex := fxExp2 (t - k * 2 ^ fxp) <<< k.toNat
    let one : Int := 2 ^ fxp
    ofFx (let v := (ex - one) * one / (ex + one); if n then -v else v) 0

/-- VSFU's function `fn` of an operand (R137): EXP2, LOG2, RCP, RSQ, SIN, COS, TANH. -/
def specialFn (fn : Nat) (x : XVal) : XVal × FFlags :=
  match x with
  | .nan s => (.nan false, if s then flagNV else 0)
  | .inf n =>
    match fn with
    | 0 => (if n then .zero false else .inf false, 0)
    | 1 => if n then (.nan false, flagNV) else (.inf false, 0)
    | 2 => (.zero n, 0)
    | 3 => if n then (.nan false, flagNV) else (.zero false, 0)
    | 4 => (.nan false, flagNV)
    | 5 => (.nan false, flagNV)
    | _ => (.num n 1 0 false, 0)
  | .num n m e _ =>
    match fn with
    | 0 => (sfExp2 n m e, 0)
    | 1 => if m = 0 then (.inf true, flagDZ) else if n then (.nan false, flagNV) else (sfLog2 m e, 0)
    | 2 => if m = 0 then (.inf n, flagDZ) else xdiv (.ofInt 1) x
    | 3 => if m = 0 then (.inf n, flagDZ) else if n then (.nan false, flagNV) else (sfRsq m e, 0)
    | 4 => (sfSinCos false n m e, 0)
    | 5 => (sfSinCos true n m e, 0)
    | _ => (sfTanh n m e, 0)

end Sys2Proof.Machine
end

