-- ==== Sys2Proof/Machine/Vector.lean ====
section
/-! DEFINITION. Vector instructions (spec/06 R127 to R138): elements and lane masks, element-wise arithmetic, logic and shifts, compare
and select, lane moves, reductions, dot product, special functions, conversion. -/

namespace Sys2Proof.Machine

/-- How a vector instruction computes: the element type code (R127), saturation, the floating-point environment. -/
structure VEnv where
  ty   : BitVec 5
  isat : Bool
  fp   : FpEnv
  deriving DecidableEq, Repr

/-- VFMT as an instruction captures it (R127). -/
def State.vEnv (s : State) (rmo : BitVec 3) : VEnv :=
  let ty := s.cs.vfmt.extractLsb' 0 5
  ⟨ty, s.cs.vfmt.getLsbD 8, s.fpEnv (FFmt.ofCode ty) rmo⟩

/-- Element width and count (R128). -/
def VEnv.w (e : VEnv) : Nat := codeBits e.ty
def VEnv.n (e : VEnv) : Nat := 256 / e.w
def VEnv.isInt (e : VEnv) : Bool := codeIsInt e.ty
def VEnv.signed (e : VEnv) : Bool := codeSigned e.ty

/-- The elements of a register at a width. -/
def elems (w : Nat) (v : VWord) : List Nat := unpackBits w (256 / w) v.toNat
/-- A register from elements. -/
def ofElems (w : Nat) (vs : List Nat) : VWord := BitVec.ofNat 256 (packBits w vs)

/-- Which elements a lane mask makes active (R128). -/
def actives (w : Nat) (m : BitVec 32) : List Bool := (List.range (256 / w)).map fun i => m.getLsbD (i * w / 8)

/-- New elements where active, old ones or zeros elsewhere (R128). -/
def merge (vz : Bool) : List Bool → List Nat → List Nat → List Nat
  | a :: as, n :: ns, o :: os => (if a then n else if vz then 0 else o) :: merge vz as ns os
  | _, _, _ => []

/-- The flags that active elements raise. -/
def activeFlags : List Bool → List FFlags → FFlags
  | a :: as, f :: fs => (if a then f else 0) ||| activeFlags as fs
  | _, _ => 0

/-- Some element is kept: a partial write (R129). -/
def keeps (vz : Bool) (act : List Bool) : Bool := !vz && act.any (!·)

/-- The taint and poison of a vector destination: a partial write joins the old ones (R129). -/
def Slot.vtaint (x : Slot) (e : Env) (d : RegId) (part : Bool) : Byte := if part then e.taint ||| (x.mark d).taint else e.taint
def Slot.vpois (x : Slot) (e : Env) (d : RegId) (part : Bool) : Bool := if part then e.pois || (x.mark d).pois else e.pois

/-- No mask: form 00 (R104). -/
def noMask : VMask := ⟨0, false⟩

/-- The end of an element-wise instruction: results and flags of every element, merged under the lane mask (R128, R129). -/
def State.putElems (s : State) (e : Env) (x : VMask) (w : Nat) (d : VIx) (rs : List (Nat × FFlags)) : Res :=
  let act := actives w (s.cs.readM x.vm)
  let part := keeps x.vz act
  let v := ofElems w (merge x.vz act (rs.map Prod.fst) (elems w (s.cs.readV d)))
  s.fpEnd (activeFlags act (rs.map Prod.snd)) fun t => t.putV d v (s.cs.vtaint e (.v d) part) (s.cs.vpois e (.v d) part)

/-- Elements of up to three sources, together. -/
def zip3 (f : Nat → Nat → Nat → Nat × FFlags) : List Nat → List Nat → List Nat → List (Nat × FFlags)
  | a :: as, b :: bs, c :: cs => f a b c :: zip3 f as bs cs
  | _, _, _ => []

/-- An element-wise instruction on v registers. -/
def State.vmap3 (f : VEnv → Nat → Nat → Nat → Nat × FFlags) (len : Nat) (x : VMask) (rmo : BitVec 3) (gd : Guard) (d a b c : VIx)
    (s : State) : Out :=
  s.issue { gd := gd, len := len, reads := [.v a, .v b, .v c, .m x.vm], writes := [.v d] } false fun e =>
    let v := s.vEnv rmo
    s.putElems e x v.w d (zip3 (f v) (elems v.w (s.cs.readV a)) (elems v.w (s.cs.readV b)) (elems v.w (s.cs.readV c)))

/-- With two sources, and with one. -/
def State.vmap2 (f : VEnv → Nat → Nat → Nat × FFlags) (len : Nat) (x : VMask) (rmo : BitVec 3) (gd : Guard) (d a b : VIx)
    (s : State) : Out := s.vmap3 (fun v p q _ => f v p q) len x rmo gd d a b b
def State.vmap1 (f : VEnv → Nat → Nat) (len : Nat) (x : VMask) (gd : Guard) (d a : VIx) (s : State) : Out :=
  s.vmap3 (fun v p _ _ => (f v p, 0)) len x 0 gd d a a a

-- element operations (R130, R131)

/-- An integer result clamped under `ISAT`, then reduced (R130). -/
def VEnv.sat (v : VEnv) (r : Int) : Nat :=
  if v.isat then
    let lo : Int := if v.signed then -(2 ^ (v.w - 1)) else 0
    let hi : Int := if v.signed then 2 ^ (v.w - 1) - 1 else 2 ^ v.w - 1
    wrap v.w (max lo (min hi r))
  else wrap v.w r
/-- An element as an integer of its type. -/
def VEnv.int (v : VEnv) (a : Nat) : Int := intOf v.signed v.w a

def velAdd (v : VEnv) (a b : Nat) : Nat × FFlags := if v.isInt then (v.sat (v.int a + v.int b), 0) else v.fp.add a b
def velSub (v : VEnv) (a b : Nat) : Nat × FFlags := if v.isInt then (v.sat (v.int a - v.int b), 0) else v.fp.sub a b
def velMul (v : VEnv) (a b : Nat) : Nat × FFlags := if v.isInt then (a * b % 2 ^ v.w, 0) else v.fp.mul a b
def velMin (v : VEnv) (a b : Nat) : Nat × FFlags :=
  if v.isInt then (if v.int a ≤ v.int b then a else b, 0) else v.fp.minMax false a b
def velMax (v : VEnv) (a b : Nat) : Nat × FFlags :=
  if v.isInt then (if v.int a < v.int b then b else a, 0) else v.fp.minMax true a b
def velFma (v : VEnv) (a b c : Nat) : Nat × FFlags := if v.isInt then ((a * b + c) % 2 ^ v.w, 0) else v.fp.fma a b c
def velAbs (v : VEnv) (a : Nat) : Nat := if v.isInt then wrap v.w (v.int a).natAbs else a % 2 ^ (v.w - 1)
def velShl (v : VEnv) (a b : Nat) : Nat := (a <<< (b % v.w)) % 2 ^ v.w
def velShr (v : VEnv) (a b : Nat) : Nat := a >>> (b % v.w)
def velSra (v : VEnv) (a b : Nat) : Nat := wrap v.w (intOf true v.w a / 2 ^ (b % v.w))

/-- A shift by the elements of vB or by an immediate (R131). -/
def State.vshift (f : VEnv → Nat → Nat → Nat) (len : Nat) (x : VMask) (imm : Bool) (gd : Guard) (d a : VIx) (b : BitVec 6)
    (s : State) : Out :=
  if imm then s.vmap1 (fun v p => f v p b.toNat) len x gd d a
  else s.vmap2 (fun v p q => (f v p q, 0)) len x 0 gd d a (b.setWidth 5)

-- compare and select (R132, R133)

/-- A compare of two elements: the truth and its flags. -/
def velCmp (v : VEnv) (cc : BitVec 3) (a b : Nat) : Bool × FFlags :=
  if v.isInt then
    let x := v.int a
    let y := v.int b
    (match cc.toNat with
      | 0 => decide (x = y) | 1 => decide (x ≠ y) | 2 => decide (x < y) | 3 => decide (x ≤ y) | 4 => decide (y < x)
      | _ => decide (y ≤ x), 0)
  else fcompare cc.toNat (v.fp.dec a) (v.fp.dec b)

/-- R132: the result goes to every byte lane of the element. -/
def State.vcmp (len : Nat) (x : VMask) (gd : Guard) (cc : BitVec 3) (q : MIx) (a b : VIx) (s : State) : Out :=
  s.issue { gd := gd, len := len, reads := [.v a, .v b, .m x.vm], writes := [.m q] } false fun e =>
    let v := s.vEnv 0
    if v.isInt && decide (5 < cc.toNat) then .trap s causeOperand 0
    else
      let n := v.w / 8
      let act := actives v.w (s.cs.readM x.vm)
      let part := keeps x.vz act
      let rs := zip3 (fun p r _ => let c := velCmp v cc p r; (if c.1 then 2 ^ n - 1 else 0, c.2))
        (elems v.w (s.cs.readV a)) (elems v.w (s.cs.readV b)) (elems v.w (s.cs.readV b))
      let old := unpackBits n (32 / n) (s.cs.readM q).toNat
      let m := BitVec.ofNat 32 (packBits n (merge x.vz act (rs.map Prod.fst) old))
      s.fpEnd (activeFlags act (rs.map Prod.snd)) fun t => t.putM q m (s.cs.vtaint e (.m q) part) (s.cs.vpois e (.m q) part)

/-- Bytes of `a` where the select bit is set, of `b` elsewhere. -/
def selectBytes (m : BitVec 32) (a b : VWord) : VWord :=
  ofElems 8 ((List.range 32).map fun j => (if m.getLsbD j then a else b).toNat / 256 ^ j % 256)

/-- R133. -/
def execVsel (gd : Guard) (x : VMask) (d : VIx) (q : MIx) (a b : VIx) (s : State) : Out :=
  s.issue { gd := gd, len := 12, reads := [.v a, .v b, .m q, .m x.vm], writes := [.v d] } false fun e =>
    let v := s.vEnv 0
    s.putElems e x v.w d ((elems v.w (selectBytes (s.cs.readM q) (s.cs.readV a) (s.cs.readV b))).map fun r => (r, 0))

-- lane moves (R134)

/-- The n-th of some elements, 0 beyond them. -/
def nthEl (vs : List Nat) (k : Nat) : Nat := vs.getD k 0

def State.vbcast (len : Nat) (x : VMask) (gd : Guard) (d : VIx) (a : GIx) (s : State) : Out :=
  s.issue { gd := gd, len := len, reads := [.g a, .m x.vm], writes := [.v d] } false fun e =>
    let v := s.vEnv 0
    s.putElems e x v.w d (List.replicate v.n ((s.g a).toNat % 2 ^ v.w, 0))

/-- A partial write (R129, R134). -/
def State.vins (len : Nat) (gd : Guard) (d : VIx) (a : GIx) (lane : BitVec 6) (s : State) : Out :=
  s.issue { gd := gd, len := len, reads := [.g a, .v d], writes := [.v d] } false fun e =>
    let v := s.vEnv 0
    if v.n ≤ lane.toNat then .trap s causeOperand 0
    else .done (s.putV d (ofElems v.w ((elems v.w (s.cs.readV d)).set lane.toNat ((s.g a).toNat % 2 ^ v.w))) e.taint e.pois)

def State.vext (len : Nat) (gd : Guard) (d : GIx) (a : VIx) (lane : BitVec 6) (s : State) : Out :=
  s.issue { gd := gd, len := len, reads := [.v a], writes := [.g d] } false fun e =>
    let v := s.vEnv 0
    if v.n ≤ lane.toNat then .trap s causeOperand 0
    else .done (s.putG d (BitVec.ofInt 64 (v.int (nthEl (elems v.w (s.cs.readV a)) lane.toNat))) e.taint e.pois)

def State.vshuf (len : Nat) (x : VMask) (gd : Guard) (d a b : VIx) (s : State) : Out :=
  s.issue { gd := gd, len := len, reads := [.v a, .v b, .m x.vm], writes := [.v d] } false fun e =>
    let v := s.vEnv 0
    let as := elems v.w (s.cs.readV a)
    s.putElems e x v.w d ((elems v.w (s.cs.readV b)).map fun k => (nthEl as k, 0))

def State.vslide (up : Bool) (len : Nat) (x : VMask) (gd : Guard) (d a : VIx) (n : BitVec 5) (s : State) : Out :=
  s.issue { gd := gd, len := len, reads := [.v a, .m x.vm], writes := [.v d] } false fun e =>
    let v := s.vEnv 0
    let as := elems v.w (s.cs.readV a)
    s.putElems e x v.w d ((List.range v.n).map fun i =>
      (if up then (if i < n.toNat then 0 else nthEl as (i - n.toNat)) else nthEl as (i + n.toNat), 0))

-- reductions (R135)

/-- The active ones of some elements. -/
def chosen : List Bool → List Nat → List Nat
  | a :: as, v :: vs => if a then v :: chosen as vs else chosen as vs
  | _, _ => []

/-- A reduction: the 64-bit result and its flags from the active elements. -/
def State.vred (f : VEnv → List Nat → Word × FFlags) (len : Nat) (vm : MIx) (rmo : BitVec 3) (gd : Guard) (d : GIx) (a : VIx)
    (s : State) : Out :=
  s.issue { gd := gd, len := len, reads := [.v a, .m vm], writes := [.g d] } false fun e =>
    let v := s.vEnv rmo
    let r := f v (chosen (actives v.w (s.cs.readM vm)) (elems v.w (s.cs.readV a)))
    s.fpEnd r.2 fun t => t.putG d r.1 e.taint e.pois

def redAdd (v : VEnv) (es : List Nat) : Word × FFlags :=
  if v.isInt then (BitVec.ofInt 64 (es.foldl (fun a e => a + v.int e) 0), 0)
  else
    let xs := es.map v.fp.dec
    let r := v.fp.round (xs.foldl (fun a x => a ||| x.sigFlag) 0) (xsum v.fp.rdn xs)
    (BitVec.ofNat 64 r.1, r.2)

def redMinMax (isMax : Bool) (v : VEnv) (es : List Nat) : Word × FFlags :=
  if v.isInt then
    let top : Int := if v.signed then 2 ^ (v.w - 1) - 1 else 2 ^ v.w - 1
    let bot : Int := if v.signed then -(2 ^ (v.w - 1)) else 0
    (BitVec.ofInt 64 (es.foldl (fun a e => if isMax then max a (v.int e) else min a (v.int e)) (if isMax then bot else top)), 0)
  else
    match es with
    | [] => (BitVec.ofNat 64 (infBits v.fp.fmt isMax), 0)
    | e :: r =>
      let q := r.foldl (fun a x => let y := v.fp.minMax isMax a.1 x; (y.1, a.2 ||| y.2)) (v.fp.minMax isMax e e)
      (BitVec.ofNat 64 q.1, q.2)

-- dot product (R136)

/-- VDOT's element types. -/
def dotType (ty : BitVec 5) : Bool := [0, 4, 1, 5, 10, 11].contains ty.toNat

/-- One 32-bit accumulator with its products (R136). An exactly zero sum of floating-point terms is -0 where every term is -0, or under `rdn` where both
signs occur, else +0: no rule gives the sign (log 92: DESIGN CHOICE). -/
def dotWord (v : VEnv) (acc : Nat) (as bs : List Nat) : Nat × FFlags :=
  if v.isInt then (wrap 32 ((acc : Int) + ((as.zip bs).map fun p => v.int p.1 * v.int p.2).foldl (· + ·) 0), 0)
  else
    let xs := as.map v.fp.dec
    let ys := bs.map v.fp.dec
    let z := decodeF .fp32 v.fp.fzi acc
    let ps := (xs.zip ys).map fun p => xmul p.1 p.2
    let fl := (xs ++ ys).foldl (fun a x => a ||| x.sigFlag) (z.sigFlag ||| ps.foldl (fun a p => a ||| p.2) 0)
    let t := xsum v.fp.rdn (z :: ps.map Prod.fst)
    let (r, fl') := roundF .fp32 v.fp.mode false v.fp.fzo t.1
    (r, fl ||| t.2 ||| fl')

/-- R136. -/
def execVdot (gd : Guard) (x : VMask) (rmo : BitVec 3) (d a b : VIx) (s : State) : Out :=
  s.issue { gd := gd, len := 12, reads := [.v a, .v b, .v d, .m x.vm], writes := [.v d] } false fun e =>
    let v := s.vEnv rmo
    if !dotType v.ty then .trap s causeOperand 0
    else
      let r := 32 / v.w
      let as := chunks r 8 (elems v.w (s.cs.readV a))
      let bs := chunks r 8 (elems v.w (s.cs.readV b))
      s.putElems e x 32 d (((elems 32 (s.cs.readV d)).zip (as.zip bs)).map fun p => dotWord v p.1 p.2.1 p.2.2)

-- special functions (R137)

/-- R137: long. -/
def execVsfu (gd : Guard) (x : VMask) (fn : BitVec 4) (d a : VIx) (s : State) : Out :=
  s.issue { gd := gd, len := 12, reads := [.v a, .m x.vm], writes := [.v d] } false fun e =>
    let v := s.vEnv 0
    if !([9, 10, 11].contains v.ty.toNat) then .trap s causeOperand 0
    else
      let f : FpEnv := { v.fp with mode := .rne }
      let rs := (elems v.w (s.cs.readV a)).map fun p => let y := f.dec p; f.round y.sigFlag (specialFn fn.toNat y)
      let act := actives v.w (s.cs.readM x.vm)
      let part := keeps x.vz act
      let r := ofElems v.w (merge x.vz act (rs.map Prod.fst) (elems v.w (s.cs.readV d)))
      s.fpEnd (activeFlags act (rs.map Prod.snd)) fun t =>
        t.startLong (.v d) r (s.cs.vtaint e (.v d) part) (s.cs.vpois e (.v d) part) (if v.w = 32 then 6 else 3)

-- conversion (R138)

/-- The container width of a type code: `e2m3` and `e3m2` lie in 8 bits. -/
def contBits (ty : BitVec 5) : Nat := if codeBits ty = 6 then 8 else codeBits ty

/-- Active elements converted in ascending order, one generator step each (R51); inactive ones give none. -/
def convActive (f : RMode → Nat → Nat × FFlags) : List Bool → List Nat → Rounder → List Nat × FFlags × Rounder
  | a :: as, v :: vs, r =>
    if a then
      let (mode, r) := r.next
      let (y, fl) := f mode v
      let (ys, fl', r) := convActive f as vs r
      (y :: ys, fl ||| fl', r)
    else
      let (ys, fl', r) := convActive f as vs r
      (0 :: ys, fl', r)
  | _, _, r => ([], 0, r)

/-- R138. -/
def execVcvt (gd : Guard) (x : VMask) (rmo : BitVec 3) (part : BitVec 4) (dst src : BitVec 5) (d a : VIx) (s : State) : Out :=
  s.issue { gd := gd, len := 12, reads := [.v a, .m x.vm], writes := [.v d] } false fun e =>
    let ws := contBits src
    let wd := contBits dst
    let n := 256 / max ws wd
    let p := part.toNat * n
    let fpcr := s.cs.fpcr
    let srcs := if ws < wd then ((elems ws (s.cs.readV a)).drop p).take n else elems ws (s.cs.readV a)
    let at0 := if wd < ws then p else 0
    let act := ((actives wd (s.cs.readM x.vm)).drop at0).take n
    let (vs, fl, r) := convActive
      (fun mode v => encodeCode dst mode (fpSatf fpcr) (fpFzo fpcr) (decodeCode src (fpFzi fpcr) (v % 2 ^ codeBits src)))
      act srcs (s.rounder (rmCode rmo fpcr) wd)
    let old := elems wd (s.cs.readV d)
    let new := old.take at0 ++ merge x.vz act vs ((old.drop at0).take n) ++ old.drop (at0 + n)
    let kept := decide (wd < ws) || keeps x.vz act
    (s.putSr r).fpEnd fl fun t => t.putV d (ofElems wd new) (s.cs.vtaint e (.v d) kept) (s.cs.vpois e (.v d) kept)

-- the instructions

/-- R130. -/
def execVadd (gd : Guard) (d a b : VIx) (s : State) : Out :=
  s.vmap2 velAdd 4 noMask 0 gd d a b
/-- R130. -/
def execVaddExt (gd : Guard) (x : VMask) (rmo : BitVec 3) (d a b : VIx) (s : State) : Out :=
  s.vmap2 velAdd 12 x rmo gd d a b
/-- R130. -/
def execVsub (gd : Guard) (d a b : VIx) (s : State) : Out :=
  s.vmap2 velSub 4 noMask 0 gd d a b
/-- R130. -/
def execVsubExt (gd : Guard) (x : VMask) (rmo : BitVec 3) (d a b : VIx) (s : State) : Out :=
  s.vmap2 velSub 12 x rmo gd d a b
/-- R130. -/
def execVmul (gd : Guard) (d a b : VIx) (s : State) : Out :=
  s.vmap2 velMul 4 noMask 0 gd d a b
/-- R130. -/
def execVmulExt (gd : Guard) (x : VMask) (rmo : BitVec 3) (d a b : VIx) (s : State) : Out :=
  s.vmap2 velMul 12 x rmo gd d a b
/-- R130. -/
def execVmin (gd : Guard) (d a b : VIx) (s : State) : Out :=
  s.vmap2 velMin 4 noMask 0 gd d a b
/-- R130. -/
def execVminExt (gd : Guard) (x : VMask) (rmo : BitVec 3) (d a b : VIx) (s : State) : Out :=
  s.vmap2 velMin 12 x rmo gd d a b
/-- R130. -/
def execVmax (gd : Guard) (d a b : VIx) (s : State) : Out :=
  s.vmap2 velMax 4 noMask 0 gd d a b
/-- R130. -/
def execVmaxExt (gd : Guard) (x : VMask) (rmo : BitVec 3) (d a b : VIx) (s : State) : Out :=
  s.vmap2 velMax 12 x rmo gd d a b
/-- R130. -/
def execVfma (gd : Guard) (x : VMask) (rmo : BitVec 3) (d a b c : VIx) (s : State) : Out :=
  s.vmap3 velFma 12 x rmo gd d a b c
/-- R130. -/
def execVabs (gd : Guard) (d a : VIx) (s : State) : Out :=
  s.vmap1 velAbs 4 noMask gd d a
/-- R130. -/
def execVabsExt (gd : Guard) (x : VMask) (d a : VIx) (s : State) : Out :=
  s.vmap1 velAbs 12 x gd d a
/-- R130. -/
def execVmov (gd : Guard) (d a : VIx) (s : State) : Out :=
  s.vmap1 (fun _ p => p) 4 noMask gd d a
/-- R130. -/
def execVmovExt (gd : Guard) (x : VMask) (d a : VIx) (s : State) : Out :=
  s.vmap1 (fun _ p => p) 12 x gd d a
/-- R131. -/
def execVand (gd : Guard) (d a b : VIx) (s : State) : Out :=
  s.vmap2 (fun _ p q => (Nat.land p q, 0)) 4 noMask 0 gd d a b
/-- R131. -/
def execVandExt (gd : Guard) (x : VMask) (d a b : VIx) (s : State) : Out :=
  s.vmap2 (fun _ p q => (Nat.land p q, 0)) 12 x 0 gd d a b
/-- R131. -/
def execVor (gd : Guard) (d a b : VIx) (s : State) : Out :=
  s.vmap2 (fun _ p q => (Nat.lor p q, 0)) 4 noMask 0 gd d a b
/-- R131. -/
def execVorExt (gd : Guard) (x : VMask) (d a b : VIx) (s : State) : Out :=
  s.vmap2 (fun _ p q => (Nat.lor p q, 0)) 12 x 0 gd d a b
/-- R131. -/
def execVxor (gd : Guard) (d a b : VIx) (s : State) : Out :=
  s.vmap2 (fun _ p q => (Nat.xor p q, 0)) 4 noMask 0 gd d a b
/-- R131. -/
def execVxorExt (gd : Guard) (x : VMask) (d a b : VIx) (s : State) : Out :=
  s.vmap2 (fun _ p q => (Nat.xor p q, 0)) 12 x 0 gd d a b
/-- R131. -/
def execVshlReg (gd : Guard) (d a b : VIx) (s : State) : Out :=
  s.vshift velShl 4 noMask false gd d a (b.setWidth 6)
/-- R131. -/
def execVshlImm (gd : Guard) (d a : VIx) (imm : BitVec 6) (s : State) : Out :=
  s.vshift velShl 4 noMask true gd d a imm
/-- R131. -/
def execVshlExt (gd : Guard) (x : VMask) (i : Bool) (d a : VIx) (b : BitVec 6) (s : State) : Out :=
  s.vshift velShl 12 x i gd d a b
/-- R131. -/
def execVshrReg (gd : Guard) (d a b : VIx) (s : State) : Out :=
  s.vshift velShr 4 noMask false gd d a (b.setWidth 6)
/-- R131. -/
def execVshrImm (gd : Guard) (d a : VIx) (imm : BitVec 6) (s : State) : Out :=
  s.vshift velShr 4 noMask true gd d a imm
/-- R131. -/
def execVshrExt (gd : Guard) (x : VMask) (i : Bool) (d a : VIx) (b : BitVec 6) (s : State) : Out :=
  s.vshift velShr 12 x i gd d a b
/-- R131. -/
def execVsraReg (gd : Guard) (d a b : VIx) (s : State) : Out :=
  s.vshift velSra 4 noMask false gd d a (b.setWidth 6)
/-- R131. -/
def execVsraImm (gd : Guard) (d a : VIx) (imm : BitVec 6) (s : State) : Out :=
  s.vshift velSra 4 noMask true gd d a imm
/-- R131. -/
def execVsraExt (gd : Guard) (x : VMask) (i : Bool) (d a : VIx) (b : BitVec 6) (s : State) : Out :=
  s.vshift velSra 12 x i gd d a b
/-- R132. -/
def execVcmp (gd : Guard) (cc : BitVec 3) (q : MIx) (a b : VIx) (s : State) : Out :=
  s.vcmp 4 noMask gd cc q a b
/-- R132. -/
def execVcmpExt (gd : Guard) (x : VMask) (cc : BitVec 3) (q : MIx) (a b : VIx) (s : State) : Out :=
  s.vcmp 12 x gd cc q a b
/-- R134. -/
def execVbcast (gd : Guard) (d : VIx) (a : GIx) (s : State) : Out :=
  s.vbcast 4 noMask gd d a
/-- R134. -/
def execVbcastExt (gd : Guard) (x : VMask) (d : VIx) (a : GIx) (s : State) : Out :=
  s.vbcast 12 x gd d a
/-- R134. -/
def execVins (gd : Guard) (d : VIx) (a : GIx) (lane : BitVec 6) (s : State) : Out :=
  s.vins 4 gd d a lane
/-- R134. -/
def execVinsExt (gd : Guard) (d : VIx) (a : GIx) (lane : BitVec 6) (s : State) : Out :=
  s.vins 12 gd d a lane
/-- R134. -/
def execVext (gd : Guard) (d : GIx) (a : VIx) (lane : BitVec 6) (s : State) : Out :=
  s.vext 4 gd d a lane
/-- R134. -/
def execVextExt (gd : Guard) (d : GIx) (a : VIx) (lane : BitVec 6) (s : State) : Out :=
  s.vext 12 gd d a lane
/-- R134. -/
def execVshuf (gd : Guard) (d a b : VIx) (s : State) : Out :=
  s.vshuf 4 noMask gd d a b
/-- R134. -/
def execVshufExt (gd : Guard) (x : VMask) (d a b : VIx) (s : State) : Out :=
  s.vshuf 12 x gd d a b
/-- R134. -/
def execVslideUp (gd : Guard) (d a : VIx) (n : BitVec 5) (s : State) : Out :=
  s.vslide true 4 noMask gd d a n
/-- R134. -/
def execVslideUpExt (gd : Guard) (x : VMask) (d a : VIx) (n : BitVec 5) (s : State) : Out :=
  s.vslide true 12 x gd d a n
/-- R134. -/
def execVslideDown (gd : Guard) (d a : VIx) (n : BitVec 5) (s : State) : Out :=
  s.vslide false 4 noMask gd d a n
/-- R134. -/
def execVslideDownExt (gd : Guard) (x : VMask) (d a : VIx) (n : BitVec 5) (s : State) : Out :=
  s.vslide false 12 x gd d a n
/-- R135. -/
def execVredadd (gd : Guard) (d : GIx) (a : VIx) (s : State) : Out :=
  s.vred redAdd 4 0 0 gd d a
/-- R135. -/
def execVredaddExt (gd : Guard) (vm : MIx) (rmo : BitVec 3) (d : GIx) (a : VIx) (s : State) : Out :=
  s.vred redAdd 12 vm rmo gd d a
/-- R135. -/
def execVredmin (gd : Guard) (d : GIx) (a : VIx) (s : State) : Out :=
  s.vred (redMinMax false) 4 0 0 gd d a
/-- R135. -/
def execVredminExt (gd : Guard) (vm : MIx) (rmo : BitVec 3) (d : GIx) (a : VIx) (s : State) : Out :=
  s.vred (redMinMax false) 12 vm rmo gd d a
/-- R135. -/
def execVredmax (gd : Guard) (d : GIx) (a : VIx) (s : State) : Out :=
  s.vred (redMinMax true) 4 0 0 gd d a
/-- R135. -/
def execVredmaxExt (gd : Guard) (vm : MIx) (rmo : BitVec 3) (d : GIx) (a : VIx) (s : State) : Out :=
  s.vred (redMinMax true) 12 vm rmo gd d a

end Sys2Proof.Machine
end

