-- ==== Sys2Proof/Machine/Quant.lean ====
section
/-! DEFINITION. Quantisation, the Hadamard transform, block addition and mask instructions (spec/06 R139 to R144). -/

namespace Sys2Proof.Machine

-- register groups and images (R139, R140)

/-- The registers of a group. -/
def vgroup (v : VIx) (n : Nat) : List VIx := (List.range n).map fun i => v + BitVec.ofNat 5 i
/-- A group starts at a multiple of its size. -/
def misgrouped (v : VIx) (n : Nat) : Bool := decide (v.toNat % n ≠ 0)

/-- Block formats by code (R140): MX element type, or the SX width k; the elements of a unit. -/
def mxElt (fmt : BitVec 4) : Option FFmt :=
  match fmt.toNat with
  | 10 => some .e2m1 | 11 => some .e2m3 | 12 => some .e4m3
  | _ => none
def sxK (fmt : BitVec 4) : Nat :=
  match fmt.toNat with
  | 13 => 2 | 14 => 4 | _ => 7
def unitElems (fmt : BitVec 4) : Nat :=
  match fmt.toNat with
  | 13 => 64 | 15 => 16 | _ => 32
/-- The blocks of an SX image, and the bits of one (R39). -/
def sxBlocks (fmt : BitVec 4) : Nat := unitElems fmt / 16
def sxBits (k : Nat) : Nat := 16 + 16 * (k + 1)

/-- SX blocks one after another through one rounder. -/
def sxEncodeAll (k : Nat) : List (List XVal) → Rounder → List Nat × FFlags × Rounder
  | [], r => ([], 0, r)
  | b :: bs, r =>
    let (v, fl, r) := sxEncode k b r
    let (vs, fl', r) := sxEncodeAll k bs r
    (v :: vs, fl ||| fl', r)

/-- A unit built from values: the image, the scale of an MX unit, the flags, the rounder after it (R141). -/
def toImage (fmt : BitVec 4) (xs : List XVal) (r : Rounder) : VWord × Nat × FFlags × Rounder :=
  match mxElt fmt with
  | some elt =>
    let (sc, vs, fl, r) := mxEncode elt xs r
    (BitVec.ofNat 256 (packBits elt.width vs), sc, fl, r)
  | none =>
    let k := sxK fmt
    let (bs, fl, r) := sxEncodeAll k (chunks 16 (sxBlocks fmt) xs) r
    (BitVec.ofNat 256 (packBits (sxBits k) bs), 0, fl, r)

/-- The values of an image (R140, R141). -/
def ofImage (fmt : BitVec 4) (v : VWord) (scale : Nat) : List XVal :=
  match mxElt fmt with
  | some elt => mxDecode elt scale (unpackBits elt.width 32 v.toNat)
  | none => (unpackBits (sxBits (sxK fmt)) (sxBlocks fmt) v.toNat).flatMap (sxDecode (sxK fmt))

/-- The VFMT types of VQNT and VDQNT (R141). -/
def quantType (ty : BitVec 5) : Bool := [9, 10, 11].contains ty.toNat

/-- The elements of a group. -/
def State.groupElems (s : State) (w : Nat) (vs : List VIx) : List Nat := vs.flatMap fun v => elems w (s.cs.readV v)
/-- A group written from its elements. -/
def State.putGroup (s : State) (w : Nat) (t : Byte) (po : Bool) : List VIx → List Nat → State
  | [], _ => s
  | v :: vs, es => State.putGroup (s.putV v (ofElems w (es.take (256 / w))) t po) w t po vs (es.drop (256 / w))

/-- R141. -/
def execVqnt (gd : Guard) (rmo : BitVec 3) (fmt : BitVec 4) (d a : VIx) (c : GIx) (s : State) : Out :=
  let v := s.vEnv rmo
  let n := unitElems fmt * v.w / 256
  s.issue { gd := gd, len := 12, reads := (vgroup a n).map .v, writes := [.v d, .g c] } false fun e =>
    if !quantType v.ty || misgrouped a n then .trap s causeOperand 0
    else
      let xs := (s.groupElems v.w (vgroup a n)).map v.fp.dec
      let sig := xs.foldl (fun f x => f ||| x.sigFlag) 0
      let (im, sc, fl, r) := toImage fmt xs (s.rounder (rmCode rmo s.cs.fpcr) 8)
      (s.putSr r).fpEnd (fl ||| sig) fun t =>
        let t := t.putV d im e.taint e.pois
        if (mxElt fmt).isSome then t.putG c (BitVec.ofNat 64 sc) e.taint e.pois else t

/-- R141. -/
def execVdqnt (gd : Guard) (fmt : BitVec 4) (d a : VIx) (c : GIx) (s : State) : Out :=
  let v := s.vEnv 0
  let n := unitElems fmt * v.w / 256
  s.issue { gd := gd, len := 12, reads := [.v a, .g c], writes := (vgroup d n).map .v } false fun e =>
    if !quantType v.ty || misgrouped d n then .trap s causeOperand 0
    else
      let xs := ofImage fmt (s.cs.readV a) ((s.g c).toNat % 256)
      let sat := fpSatf s.cs.fpcr && decide (v.w = 16)
      let (ys, fl, r) := convList (fun mode x => roundF v.fp.fmt mode sat v.fp.fzo x) xs (s.rounder (fpRm s.cs.fpcr) v.w)
      (s.putSr r).fpEnd fl fun t => t.putGroup v.w e.taint e.pois (vgroup d n) ys

/-- An integer run transformed modulo 2^w (R142). -/
def hadamardInt (w : Nat) (xs : List Int) : List Nat :=
  (List.range xs.length).map fun i =>
    wrap w ((xs.zipIdx.map fun p => if parity 6 (Nat.land i p.2) then -p.1 else p.1).foldl (· + ·) 0)

/-- One run of VHAD (R142). (log 14: DEDUCED) -/
def hadRun (v : VEnv) (es : List Nat) : List Nat × FFlags :=
  if v.isInt then (hadamardInt v.w (es.map v.int), 0)
  else
    let xs := es.map v.fp.dec
    let sig := xs.foldl (fun f x => f ||| x.sigFlag) 0
    let (ys, fl) := hadamard v.fp.rdn xs
    let rs := ys.map fun y => roundF v.fp.fmt v.fp.mode false v.fp.fzo y
    (rs.map Prod.fst, rs.foldl (fun f r => f ||| r.2) (sig ||| fl))

/-- R142. -/
def execVhad (gd : Guard) (h32 : Bool) (d a : VIx) (s : State) : Out :=
  let v := s.vEnv 0
  let run := if h32 then 32 else 16
  let n := max 1 (run * v.w / 256)
  s.issue { gd := gd, len := 12, reads := (vgroup a n).map .v, writes := (vgroup d n).map .v } false fun e =>
    if (v.isInt && !v.signed) || misgrouped a n || misgrouped d n then .trap s causeOperand 0
    else
      let rs := (chunks run (n * v.n / run) (s.groupElems v.w (vgroup a n))).map (hadRun v)
      s.fpEnd (rs.foldl (fun f r => f ||| r.2) 0) fun t =>
        t.putGroup v.w e.taint e.pois (vgroup d n) (rs.flatMap Prod.fst)

/-- R143. -/
def execVbaddq (gd : Guard) (rmo : BitVec 3) (fmt : BitVec 4) (d a b c : VIx) (s : State) : Out :=
  s.issue { gd := gd, len := 12, reads := [.v a, .v b, .v c], writes := [.v d] } false fun e =>
    let im (r : VIx) := ofImage fmt (s.cs.readV r) 0
    let sums := ((im a).zip ((im b).zip (im c))).map fun p => (xsum false [p.1, p.2.1, p.2.2]).1
    let (v, _, fl, r) := toImage fmt sums (s.rounder (rmCode rmo s.cs.fpcr) 8)
    (s.putSr r).fpEnd fl fun t => t.putV d v e.taint e.pois

-- masks (R144)

/-- Two masks into one. -/
def State.mask2 (f : BitVec 32 → BitVec 32 → BitVec 32) (gd : Guard) (d a b : MIx) (s : State) : Out :=
  s.issue { gd := gd, len := 4, reads := [.m a, .m b], writes := [.m d] } false fun e =>
    .done (s.putM d (f (s.cs.readM a) (s.cs.readM b)) e.taint e.pois)

/-- R144. -/
def execMand (gd : Guard) (d a b : MIx) (s : State) : Out := s.mask2 (fun x y => x &&& y) gd d a b
/-- R144. -/
def execMor (gd : Guard) (d a b : MIx) (s : State) : Out := s.mask2 (fun x y => x ||| y) gd d a b
/-- R144. -/
def execMxor (gd : Guard) (d a b : MIx) (s : State) : Out := s.mask2 (fun x y => x ^^^ y) gd d a b
/-- R144. -/
def execMnot (gd : Guard) (d a : MIx) (s : State) : Out := s.mask2 (fun x _ => ~~~x) gd d a a
/-- R144. -/
def execMpop (gd : Guard) (d : GIx) (a : MIx) (s : State) : Out :=
  s.issue { gd := gd, len := 4, reads := [.m a], writes := [.g d] } false fun e =>
    .done (s.putG d (BitVec.ofNat 64 (popNat 32 (s.cs.readM a).toNat)) e.taint e.pois)
/-- R144: gA is data. -/
def execGtom (gd : Guard) (d : MIx) (a : GIx) (s : State) : Out :=
  s.issue { gd := gd, len := 4, reads := [.g a], writes := [.m d] } false fun e =>
    .done (s.putM d ((s.g a).setWidth 32) e.taint e.pois)
/-- R144: a partial write; gA names a lane (R30). -/
def execMtog (gd : Guard) (d : MIx) (a : GIx) (s : State) : Out :=
  s.issue { gd := gd, len := 4, reads := [.g a, .m d], writes := [.m d], traps := [.g a] } false fun e =>
    if 31 < (s.g a).toNat then .trap s causeOperand 0
    else .done (s.putM d (s.cs.readM d ^^^ BitVec.ofNat 32 (2 ^ (s.g a).toNat)) e.taint e.pois)

end Sys2Proof.Machine
end

