-- ==== Sys2Proof/Machine/Sregs.lean ====
section
/-! DEFINITION. Special registers (spec/01 R15 to R19, spec/05 R126): what each number reads, and what a write checks and does. -/

namespace Sys2Proof.Machine

/-- Mode bits of a slab's groups (R165): 3 while a group changes. -/
def Slab.gmode (x : Slab) : Nat :=
  (List.range 12).foldl (fun a g =>
    a + 4 ^ g * (if (Sparse.find x.changing g).isSome then 3 else (Sparse.get (0 : BitVec 2) x.modes g).toNat)) 0

/-- DSTAT (R165). -/
def State.dstat (s : State) (c : CoreId) : Word :=
  let d := s.die c.die
  BitVec.ofNat 64 ((s.slab c).gmode + (if d.therm then 2 ^ 24 else 0) + 2 ^ 32 * d.tj.toNat)

/-- GOVSTAT (R243). -/
def Core.govstat (x : Core) : Word := x.budget ++ x.used ++ (0 : BitVec 16) ++ x.stalls

/-- LOOPST (R19). -/
def Slot.loopst (x : Slot) : Word :=
  match x.loops with
  | [] => 0
  | e :: r => e.count ++ (0 : BitVec 29) ++ BitVec.ofNat 3 (r.length + 1)

/-- The value of a special register for the current slot; none for a number that is not in the map (R15). -/
def State.readSpecial (s : State) (num : Nat) : Option Word :=
  let x := s.cs
  let b := s.block
  match num with
  | 0x000 => some x.fpcr
  | 0x001 => some x.vfmt
  | 0x002 => some (s.ctx b.ctx).mxflags
  | 0x010 => some (x.thr.setWidth 64)
  | 0x011 => some (BitVec.ofNat 64 b.nthr)
  | 0x012 => some (b.blkIx.setWidth 64)
  | 0x013 => some (b.nblkM1.setWidth 64 + 1)
  | 0x014 => some (b.grp.setWidth 64)
  | 0x015 => some (b.ngrpM1.setWidth 64 + 1)
  | 0x016 => some (b.stg.setWidth 64)
  | 0x017 => some (b.nstgM1.setWidth 64 + 1)
  | 0x020 => some (b.launch.setWidth 64)
  | 0x021 => some (x.gen.setWidth 64)
  | 0x022 => some (b.ctx.setWidth 64)
  | 0x023 => some ((0 : BitVec 51) ++ s.cc.y ++ (0 : BitVec 3) ++ s.cc.x)
  | 0x024 => some ((s.lnumOf s.cc).setWidth 64)
  | 0x025 => some (s.cc.die.setWidth 64)
  | 0x030 => some (BitVec.ofNat 64 (s.clock s.cc))
  | 0x031 => some x.mdest
  | 0x040 => some (b.cwm.setWidth 64)
  | 0x050 => some x.trapvec
  | 0x051 => some x.trappc
  | 0x052 => some x.trapcause
  | 0x053 => some x.trapaddr
  | 0x060 => some ((s.ctx b.ctx).split.setWidth 64)
  | 0x061 => some (s.dstat s.cc)
  | 0x070 => some (s.core s.cc).govstat
  | 0x071 => some (s.core s.cc).deadletter
  | 0x072 => some x.loopst
  | _ => none

/-- FPCR's reserved bits, or an `RM` of 6 or 7 (R41). -/
def fpcrBad (v : Word) : Bool := decide (v &&& 0xFFFFE0C0 ≠ 0) || decide (5 < (v &&& 7).toNat)
/-- VFMT's reserved bits, or an `ETYPE` above 11 (R127). -/
def vfmtBad (v : Word) : Bool := decide (v &&& 0xFFFFFFFFFFFFFEE0 ≠ 0) || decide (11 < (v &&& 0x1F).toNat)
/-- MXFLAGS' reserved bits (R44). -/
def mxflagsBad (v : Word) : Bool := decide (v &&& 0xFFFFFFFFFFFFE0E0 ≠ 0)
/-- MDEST's reserved bits (R266). -/
def mdestBad (v : Word) : Bool := decide (v &&& 0xFFFFFFFE00000000 ≠ 0)
/-- CWM outside 8 to 64 (R17). -/
def cwmBad (v : Word) : Bool := decide (v.toNat < 8) || decide (64 < v.toNat)
/-- TRAPVEC and TRAPPC: bits 1:0 or 63:48 (R126). -/
def addrBad (v : Word) : Bool := decide (v.extractLsb' 0 2 ≠ 0) || decide (v.extractLsb' 48 16 ≠ 0)
/-- GOVSTAT: bits 63:32 (R243). -/
def govstatBad (v : Word) : Bool := decide (v.extractLsb' 32 32 ≠ 0)

/-- A special register written by the current slot; none where the write is not allowed (R15, R126). A flag that is raised in the cycle of
a write of MXFLAGS is set in the written value, whichever of the two the model takes first (R45). -/
def State.writeSpecial (s : State) (num : Nat) (v : Word) : Option State :=
  let x := s.cs
  let b := s.block
  match num with
  | 0x000 => if fpcrBad v then none else some (s.setCs { x with fpcr := v })
  | 0x001 => if vfmtBad v then none else some (s.setCs { x with vfmt := v })
  | 0x002 => if mxflagsBad v then none else some (s.setCtx b.ctx { s.ctx b.ctx with mxflags := v ||| (s.ctx b.ctx).mxnew })
  | 0x031 => if mdestBad v then none else some (s.setCs { x with mdest := v })
  | 0x040 => if cwmBad v then none else some (s.setBlock s.cc s.curBlk { b with cwm := v.setWidth 7 })
  | 0x050 => if addrBad v then none else some (s.setCs { x with trapvec := v })
  | 0x051 => if addrBad v then none else some (s.setCs { x with trappc := v })
  | 0x070 => if govstatBad v then none else some (s.setCore s.cc { s.core s.cc with stalls := v.setWidth 32 })
  | 0x071 => some (s.setCore s.cc { s.core s.cc with deadletter := v })
  | _ => none

/-- A special register's number (R126): bits 9:6 and 5:0. -/
def specialNum (h : BitVec 4) (l : BitVec 6) : Nat := (h ++ l).toNat

/-- R126. -/
def execRds (gd : Guard) (d : GIx) (h : BitVec 4) (l : BitVec 6) (s : State) : Out :=
  s.issue { gd := gd, len := 4, reads := [], writes := [.g d] } false fun _ =>
    match s.readSpecial (specialNum h l) with
    | none => .trap s causeOperand 0
    | some v => .done (s.putG d v 0 false)

/-- R126: waits for the source's taint to clear. -/
def execWrs (gd : Guard) (h : BitVec 4) (l : BitVec 6) (a : GIx) (s : State) : Out :=
  s.issue { gd := gd, len := 4, reads := [.g a], writes := [], traps := [.g a] } (decide ((s.cs.mark (.g a)).taint ≠ 0)) fun _ =>
    match s.writeSpecial (specialNum h l) (s.g a) with
    | none => .trap s causeOperand 0
    | some t => .done t

end Sys2Proof.Machine
end

