-- ==== Sys2Proof/Machine/Dispatch.lean ====
section
/-! DEFINITION. One arm for each step of the machine. -/

namespace Sys2Proof.Machine

def exec (i : Instr) (s : State) : Host.Outcome State Fault Refusal :=
  match i with
  | .addReg gd w32 d a b => Sys2Proof.Machine.execAddReg gd w32 d a b s
  | .addImm gd w32 d a imm => Sys2Proof.Machine.execAddImm gd w32 d a imm s
  | .addLit gd w32 d a w => Sys2Proof.Machine.execAddLit gd w32 d a w s
  | .subReg gd w32 d a b => Sys2Proof.Machine.execSubReg gd w32 d a b s
  | .subImm gd w32 d a imm => Sys2Proof.Machine.execSubImm gd w32 d a imm s
  | .subLit gd w32 d a w => Sys2Proof.Machine.execSubLit gd w32 d a w s
  | .mulReg gd w32 d a b => Sys2Proof.Machine.execMulReg gd w32 d a b s
  | .mulImm gd w32 d a imm => Sys2Proof.Machine.execMulImm gd w32 d a imm s
  | .mulLit gd w32 d a w => Sys2Proof.Machine.execMulLit gd w32 d a w s
  | .andReg gd w32 d a b => Sys2Proof.Machine.execAndReg gd w32 d a b s
  | .andImm gd w32 d a imm => Sys2Proof.Machine.execAndImm gd w32 d a imm s
  | .andLit gd w32 d a w => Sys2Proof.Machine.execAndLit gd w32 d a w s
  | .orReg gd w32 d a b => Sys2Proof.Machine.execOrReg gd w32 d a b s
  | .orImm gd w32 d a imm => Sys2Proof.Machine.execOrImm gd w32 d a imm s
  | .orLit gd w32 d a w => Sys2Proof.Machine.execOrLit gd w32 d a w s
  | .xorReg gd w32 d a b => Sys2Proof.Machine.execXorReg gd w32 d a b s
  | .xorImm gd w32 d a imm => Sys2Proof.Machine.execXorImm gd w32 d a imm s
  | .xorLit gd w32 d a w => Sys2Proof.Machine.execXorLit gd w32 d a w s
  | .shlReg gd w32 d a b => Sys2Proof.Machine.execShlReg gd w32 d a b s
  | .shlImm gd w32 d a imm => Sys2Proof.Machine.execShlImm gd w32 d a imm s
  | .shlLit gd w32 d a w => Sys2Proof.Machine.execShlLit gd w32 d a w s
  | .shrReg gd w32 d a b => Sys2Proof.Machine.execShrReg gd w32 d a b s
  | .shrImm gd w32 d a imm => Sys2Proof.Machine.execShrImm gd w32 d a imm s
  | .shrLit gd w32 d a w => Sys2Proof.Machine.execShrLit gd w32 d a w s
  | .sraReg gd w32 d a b => Sys2Proof.Machine.execSraReg gd w32 d a b s
  | .sraImm gd w32 d a imm => Sys2Proof.Machine.execSraImm gd w32 d a imm s
  | .sraLit gd w32 d a w => Sys2Proof.Machine.execSraLit gd w32 d a w s
  | .rolReg gd w32 d a b => Sys2Proof.Machine.execRolReg gd w32 d a b s
  | .rolImm gd w32 d a imm => Sys2Proof.Machine.execRolImm gd w32 d a imm s
  | .rolLit gd w32 d a w => Sys2Proof.Machine.execRolLit gd w32 d a w s
  | .minReg gd w32 d a b => Sys2Proof.Machine.execMinReg gd w32 d a b s
  | .minImm gd w32 d a imm => Sys2Proof.Machine.execMinImm gd w32 d a imm s
  | .minLit gd w32 d a w => Sys2Proof.Machine.execMinLit gd w32 d a w s
  | .maxReg gd w32 d a b => Sys2Proof.Machine.execMaxReg gd w32 d a b s
  | .maxImm gd w32 d a imm => Sys2Proof.Machine.execMaxImm gd w32 d a imm s
  | .maxLit gd w32 d a w => Sys2Proof.Machine.execMaxLit gd w32 d a w s
  | .minnReg gd w32 d a b => Sys2Proof.Machine.execMinnReg gd w32 d a b s
  | .minnLit gd w32 d a w => Sys2Proof.Machine.execMinnLit gd w32 d a w s
  | .maxnReg gd w32 d a b => Sys2Proof.Machine.execMaxnReg gd w32 d a b s
  | .maxnLit gd w32 d a w => Sys2Proof.Machine.execMaxnLit gd w32 d a w s
  | .andnReg gd w32 d a b => Sys2Proof.Machine.execAndnReg gd w32 d a b s
  | .andnLit gd w32 d a w => Sys2Proof.Machine.execAndnLit gd w32 d a w s
  | .ornReg gd w32 d a b => Sys2Proof.Machine.execOrnReg gd w32 d a b s
  | .ornLit gd w32 d a w => Sys2Proof.Machine.execOrnLit gd w32 d a w s
  | .mulh gd w32 d a b => Sys2Proof.Machine.execMulh gd w32 d a b s
  | .mulhn gd w32 d a b => Sys2Proof.Machine.execMulhn gd w32 d a b s
  | .div gd w32 d a b => Sys2Proof.Machine.execDiv gd w32 d a b s
  | .divn gd w32 d a b => Sys2Proof.Machine.execDivn gd w32 d a b s
  | .rem gd w32 d a b => Sys2Proof.Machine.execRem gd w32 d a b s
  | .remn gd w32 d a b => Sys2Proof.Machine.execRemn gd w32 d a b s
  | .mad gd w32 d a b c => Sys2Proof.Machine.execMad gd w32 d a b c s
  | .clz gd w32 d a => Sys2Proof.Machine.execClz gd w32 d a s
  | .ctz gd w32 d a => Sys2Proof.Machine.execCtz gd w32 d a s
  | .popc gd w32 d a => Sys2Proof.Machine.execPopc gd w32 d a s
  | .brev gd w32 d a => Sys2Proof.Machine.execBrev gd w32 d a s
  | .bswap gd w32 d a => Sys2Proof.Machine.execBswap gd w32 d a s
  | .abs gd w32 d a => Sys2Proof.Machine.execAbs gd w32 d a s
  | .bfx gd w32 d a pos wm => Sys2Proof.Machine.execBfx gd w32 d a pos wm s
  | .bfxs gd w32 d a pos wm => Sys2Proof.Machine.execBfxs gd w32 d a pos wm s
  | .bfi gd w32 d a pos wm => Sys2Proof.Machine.execBfi gd w32 d a pos wm s
  | .sel gd w32 d q a b => Sys2Proof.Machine.execSel gd w32 d q a b s
  | .lea gd w32 d a b off => Sys2Proof.Machine.execLea gd w32 d a b off s
  | .leaPcr gd w32 d b off => Sys2Proof.Machine.execLeaPcr gd w32 d b off s
  | .cmpSignedReg gd w32 cc q a b => Sys2Proof.Machine.execCmpSignedReg gd w32 cc q a b s
  | .cmpSignedImm gd w32 cc q a imm => Sys2Proof.Machine.execCmpSignedImm gd w32 cc q a imm s
  | .cmpSignedLit gd w32 cc q a w => Sys2Proof.Machine.execCmpSignedLit gd w32 cc q a w s
  | .cmpNaturalReg gd w32 cc q a b => Sys2Proof.Machine.execCmpNaturalReg gd w32 cc q a b s
  | .cmpNaturalImm gd w32 cc q a imm => Sys2Proof.Machine.execCmpNaturalImm gd w32 cc q a imm s
  | .cmpNaturalLit gd w32 cc q a w => Sys2Proof.Machine.execCmpNaturalLit gd w32 cc q a w s
  | .pand gd w32 d a b => Sys2Proof.Machine.execPand gd w32 d a b s
  | .por gd w32 d a b => Sys2Proof.Machine.execPor gd w32 d a b s
  | .pxor gd w32 d a b => Sys2Proof.Machine.execPxor gd w32 d a b s
  | .pmov gd w32 d a => Sys2Proof.Machine.execPmov gd w32 d a s
  | .bra gd ob oa od => Sys2Proof.Machine.execBra gd ob oa od s
  | .call gd ob oa od => Sys2Proof.Machine.execCall gd ob oa od s
  | .brx gd a => Sys2Proof.Machine.execBrx gd a s
  | .callx gd a => Sys2Proof.Machine.execCallx gd a s
  | .ret gd => Sys2Proof.Machine.execRet gd s
  | .btag gd tag off => Sys2Proof.Machine.execBtag gd tag off s
  | .loopImm gd n endo => Sys2Proof.Machine.execLoopImm gd n endo s
  | .loopReg gd a endo => Sys2Proof.Machine.execLoopReg gd a endo s
  | .lexit gd => Sys2Proof.Machine.execLexit gd s
  | .tclr gd dc d mask => Sys2Proof.Machine.execTclr gd dc d mask s
  | .tdep gd dc d ac a => Sys2Proof.Machine.execTdep gd dc d ac a s
  | .twait gd mask => Sys2Proof.Machine.execTwait gd mask s
  | .tget gd d ac a => Sys2Proof.Machine.execTget gd d ac a s
  | .fadd gd w32 d a b => Sys2Proof.Machine.execFadd gd w32 d a b s
  | .faddLit gd w32 d a w => Sys2Proof.Machine.execFaddLit gd w32 d a w s
  | .faddExt gd ft rmo d a b => Sys2Proof.Machine.execFaddExt gd ft rmo d a b s
  | .fsub gd w32 d a b => Sys2Proof.Machine.execFsub gd w32 d a b s
  | .fsubLit gd w32 d a w => Sys2Proof.Machine.execFsubLit gd w32 d a w s
  | .fsubExt gd ft rmo d a b => Sys2Proof.Machine.execFsubExt gd ft rmo d a b s
  | .fmul gd w32 d a b => Sys2Proof.Machine.execFmul gd w32 d a b s
  | .fmulLit gd w32 d a w => Sys2Proof.Machine.execFmulLit gd w32 d a w s
  | .fmulExt gd ft rmo d a b => Sys2Proof.Machine.execFmulExt gd ft rmo d a b s
  | .fdiv gd w32 d a b => Sys2Proof.Machine.execFdiv gd w32 d a b s
  | .fdivLit gd w32 d a w => Sys2Proof.Machine.execFdivLit gd w32 d a w s
  | .fdivExt gd ft rmo d a b => Sys2Proof.Machine.execFdivExt gd ft rmo d a b s
  | .ffma gd ft rmo d a b c => Sys2Proof.Machine.execFfma gd ft rmo d a b c s
  | .fsqrt gd ft rmo d a => Sys2Proof.Machine.execFsqrt gd ft rmo d a s
  | .fmin gd w32 d a b => Sys2Proof.Machine.execFmin gd w32 d a b s
  | .fminLit gd w32 d a w => Sys2Proof.Machine.execFminLit gd w32 d a w s
  | .fminExt gd ft rmo d a b => Sys2Proof.Machine.execFminExt gd ft rmo d a b s
  | .fmax gd ft rmo d a b => Sys2Proof.Machine.execFmax gd ft rmo d a b s
  | .fcmp gd w32 cc q a b => Sys2Proof.Machine.execFcmp gd w32 cc q a b s
  | .fcmpLit gd w32 cc q a w => Sys2Proof.Machine.execFcmpLit gd w32 cc q a w s
  | .fcmpExt gd ft rmo cc q a b => Sys2Proof.Machine.execFcmpExt gd ft rmo cc q a b s
  | .fcvt gd rmo dst src d a => Sys2Proof.Machine.execFcvt gd rmo dst src d a s
  | .fclass gd ty d a => Sys2Proof.Machine.execFclass gd ty d a s
  | .rds gd d h l => Sys2Proof.Machine.execRds gd d h l s
  | .wrs gd h l a => Sys2Proof.Machine.execWrs gd h l a s
  | .vadd gd d a b => Sys2Proof.Machine.execVadd gd d a b s
  | .vaddExt gd x rmo d a b => Sys2Proof.Machine.execVaddExt gd x rmo d a b s
  | .vsub gd d a b => Sys2Proof.Machine.execVsub gd d a b s
  | .vsubExt gd x rmo d a b => Sys2Proof.Machine.execVsubExt gd x rmo d a b s
  | .vmul gd d a b => Sys2Proof.Machine.execVmul gd d a b s
  | .vmulExt gd x rmo d a b => Sys2Proof.Machine.execVmulExt gd x rmo d a b s
  | .vmin gd d a b => Sys2Proof.Machine.execVmin gd d a b s
  | .vminExt gd x rmo d a b => Sys2Proof.Machine.execVminExt gd x rmo d a b s
  | .vmax gd d a b => Sys2Proof.Machine.execVmax gd d a b s
  | .vmaxExt gd x rmo d a b => Sys2Proof.Machine.execVmaxExt gd x rmo d a b s
  | .vfma gd x rmo d a b c => Sys2Proof.Machine.execVfma gd x rmo d a b c s
  | .vabs gd d a => Sys2Proof.Machine.execVabs gd d a s
  | .vabsExt gd x d a => Sys2Proof.Machine.execVabsExt gd x d a s
  | .vmov gd d a => Sys2Proof.Machine.execVmov gd d a s
  | .vmovExt gd x d a => Sys2Proof.Machine.execVmovExt gd x d a s
  | .vand gd d a b => Sys2Proof.Machine.execVand gd d a b s
  | .vandExt gd x d a b => Sys2Proof.Machine.execVandExt gd x d a b s
  | .vor gd d a b => Sys2Proof.Machine.execVor gd d a b s
  | .vorExt gd x d a b => Sys2Proof.Machine.execVorExt gd x d a b s
  | .vxor gd d a b => Sys2Proof.Machine.execVxor gd d a b s
  | .vxorExt gd x d a b => Sys2Proof.Machine.execVxorExt gd x d a b s
  | .vshlReg gd d a b => Sys2Proof.Machine.execVshlReg gd d a b s
  | .vshlImm gd d a imm => Sys2Proof.Machine.execVshlImm gd d a imm s
  | .vshlExt gd x w32 d a b => Sys2Proof.Machine.execVshlExt gd x w32 d a b s
  | .vshrReg gd d a b => Sys2Proof.Machine.execVshrReg gd d a b s
  | .vshrImm gd d a imm => Sys2Proof.Machine.execVshrImm gd d a imm s
  | .vshrExt gd x w32 d a b => Sys2Proof.Machine.execVshrExt gd x w32 d a b s
  | .vsraReg gd d a b => Sys2Proof.Machine.execVsraReg gd d a b s
  | .vsraImm gd d a imm => Sys2Proof.Machine.execVsraImm gd d a imm s
  | .vsraExt gd x w32 d a b => Sys2Proof.Machine.execVsraExt gd x w32 d a b s
  | .vcmp gd cc q a b => Sys2Proof.Machine.execVcmp gd cc q a b s
  | .vcmpExt gd x cc q a b => Sys2Proof.Machine.execVcmpExt gd x cc q a b s
  | .vsel gd x d q a b => Sys2Proof.Machine.execVsel gd x d q a b s
  | .vbcast gd d a => Sys2Proof.Machine.execVbcast gd d a s
  | .vbcastExt gd x d a => Sys2Proof.Machine.execVbcastExt gd x d a s
  | .vins gd d a lane => Sys2Proof.Machine.execVins gd d a lane s
  | .vinsExt gd d a lane => Sys2Proof.Machine.execVinsExt gd d a lane s
  | .vext gd d a lane => Sys2Proof.Machine.execVext gd d a lane s
  | .vextExt gd d a lane => Sys2Proof.Machine.execVextExt gd d a lane s
  | .vshuf gd d a b => Sys2Proof.Machine.execVshuf gd d a b s
  | .vshufExt gd x d a b => Sys2Proof.Machine.execVshufExt gd x d a b s
  | .vslideUp gd d a n => Sys2Proof.Machine.execVslideUp gd d a n s
  | .vslideUpExt gd x d a n => Sys2Proof.Machine.execVslideUpExt gd x d a n s
  | .vslideDown gd d a n => Sys2Proof.Machine.execVslideDown gd d a n s
  | .vslideDownExt gd x d a n => Sys2Proof.Machine.execVslideDownExt gd x d a n s
  | .vredadd gd d a => Sys2Proof.Machine.execVredadd gd d a s
  | .vredaddExt gd vm rmo d a => Sys2Proof.Machine.execVredaddExt gd vm rmo d a s
  | .vredmin gd d a => Sys2Proof.Machine.execVredmin gd d a s
  | .vredminExt gd vm rmo d a => Sys2Proof.Machine.execVredminExt gd vm rmo d a s
  | .vredmax gd d a => Sys2Proof.Machine.execVredmax gd d a s
  | .vredmaxExt gd vm rmo d a => Sys2Proof.Machine.execVredmaxExt gd vm rmo d a s
  | .vdot gd x rmo d a b => Sys2Proof.Machine.execVdot gd x rmo d a b s
  | .vsfu gd x fn d a => Sys2Proof.Machine.execVsfu gd x fn d a s
  | .vcvt gd x rmo part dst src d a => Sys2Proof.Machine.execVcvt gd x rmo part dst src d a s
  | .vqnt gd rmo fmt d a c => Sys2Proof.Machine.execVqnt gd rmo fmt d a c s
  | .vdqnt gd fmt d a c => Sys2Proof.Machine.execVdqnt gd fmt d a c s
  | .vhad gd h32 d a => Sys2Proof.Machine.execVhad gd h32 d a s
  | .vbaddq gd rmo fmt d a b c => Sys2Proof.Machine.execVbaddq gd rmo fmt d a b c s
  | .mand gd d a b => Sys2Proof.Machine.execMand gd d a b s
  | .mor gd d a b => Sys2Proof.Machine.execMor gd d a b s
  | .mxor gd d a b => Sys2Proof.Machine.execMxor gd d a b s
  | .mnot gd d a => Sys2Proof.Machine.execMnot gd d a s
  | .mpop gd d a => Sys2Proof.Machine.execMpop gd d a s
  | .gtom gd d a => Sys2Proof.Machine.execGtom gd d a s
  | .mtog gd d a => Sys2Proof.Machine.execMtog gd d a s
  | .ld gd t d ea => Sys2Proof.Machine.execLd gd t d ea s
  | .ldro gd t d ea => Sys2Proof.Machine.execLdro gd t d ea s
  | .ldx gd t d ea => Sys2Proof.Machine.execLdx gd t d ea s
  | .ldv gd t d ea => Sys2Proof.Machine.execLdv gd t d ea s
  | .ldvGather gd t d va b disp => Sys2Proof.Machine.execLdvGather gd t d va b disp s
  | .lds gd t d ea => Sys2Proof.Machine.execLds gd t d ea s
  | .ldsv gd d ea => Sys2Proof.Machine.execLdsv gd d ea s
  | .sts gd t d ea => Sys2Proof.Machine.execSts gd t d ea s
  | .stsv gd d ea => Sys2Proof.Machine.execStsv gd d ea s
  | .ldd gd t d ea => Sys2Proof.Machine.execLdd gd t d ea s
  | .std gd t d ea => Sys2Proof.Machine.execStd gd t d ea s
  | .upd gd op t d ea => Sys2Proof.Machine.execUpd gd op t d ea s
  | .updx gd op t d ea => Sys2Proof.Machine.execUpdx gd op t d ea s
  | .updv gd op t d ea => Sys2Proof.Machine.execUpdv gd op t d ea s
  | .updvScatter gd op t d va b disp => Sys2Proof.Machine.execUpdvScatter gd op t d va b disp s
  | .atom gd op t d ea c => Sys2Proof.Machine.execAtom gd op t d ea c s
  | .cas gd t d a disp b c => Sys2Proof.Machine.execCas gd t d a disp b c s
  | .drain gd scope a b => Sys2Proof.Machine.execDrain gd scope a b s
  | .inval gd scope a b => Sys2Proof.Machine.execInval gd scope a b s
  | .fence gd scope eng => Sys2Proof.Machine.execFence gd scope eng s
  | .syncinit gd a disp b => Sys2Proof.Machine.execSyncinit gd a disp b s
  | .syncadd gd a disp b => Sys2Proof.Machine.execSyncadd gd a disp b s
  | .syncwait gd a disp => Sys2Proof.Machine.execSyncwait gd a disp s
  | .syncget gd d a disp => Sys2Proof.Machine.execSyncget gd d a disp s
  | .tdset gd dd a disp => Sys2Proof.Machine.execTdset gd dd a disp s
  | .tdget gd a disp dd => Sys2Proof.Machine.execTdget gd a disp dd s
  | .ringcfg gd q a disp => Sys2Proof.Machine.execRingcfg gd q a disp s
  | .ringstat gd d q => Sys2Proof.Machine.execRingstat gd d q s
  | .ringdrop gd q count => Sys2Proof.Machine.execRingdrop gd q count s
  | .tilecfg gd a => Sys2Proof.Machine.execTilecfg gd a s
  | .tilerel gd => Sys2Proof.Machine.execTilerel gd s
  | .tzero gd ta => Sys2Proof.Machine.execTzero gd ta s
  | .tld gd ta a disp => Sys2Proof.Machine.execTld gd ta a disp s
  | .tsts gd a disp ta => Sys2Proof.Machine.execTsts gd a disp ta s
  | .tupd gd op t ea ta => Sys2Proof.Machine.execTupd gd op t ea ta s
  | .mma gd ta qa qb => Sys2Proof.Machine.execMma gd ta qa qb s
  | .tcvt gd q ta => Sys2Proof.Machine.execTcvt gd q ta s
  | .cpy gd d a disp => Sys2Proof.Machine.execCpy gd d a disp s
  | .cpystat gd d a => Sys2Proof.Machine.execCpystat gd d a s
  | .cpyres gd a => Sys2Proof.Machine.execCpyres gd a s
  | .dsmode gd mode a => Sys2Proof.Machine.execDsmode gd mode a s
  | .bsld gd idx a disp b => Sys2Proof.Machine.execBsld gd idx a disp b s
  | .bsrun gd a b => Sys2Proof.Machine.execBsrun gd a b s
  | .bsres gd => Sys2Proof.Machine.execBsres gd s
  | .bsstat gd d => Sys2Proof.Machine.execBsstat gd d s
  | .barcfg gd bb a => Sys2Proof.Machine.execBarcfg gd bb a s
  | .bararr gd bb => Sys2Proof.Machine.execBararr gd bb s
  | .barwait gd bb => Sys2Proof.Machine.execBarwait gd bb s
  | .send gd tag nw a disp => Sys2Proof.Machine.execSend gd tag nw a disp s
  | .inpop gd d => Sys2Proof.Machine.execInpop gd d s
  | .gqtake gd d => Sys2Proof.Machine.execGqtake gd d s
  | .gqput gd a => Sys2Proof.Machine.execGqput gd a s
  | .trap gd code => Sys2Proof.Machine.execTrap gd code s
  | .tret gd => Sys2Proof.Machine.execTret gd s
  | .exit gd => Sys2Proof.Machine.execExit gd s
  | .brk gd code => Sys2Proof.Machine.execBrk gd code s
  | .hubcall gd code d a => Sys2Proof.Machine.execHubcall gd code d a s
  | .chkpt gd a => Sys2Proof.Machine.execChkpt gd a s
  | .pendingTrapDelivery c k => Sys2Proof.Machine.execPendingTrapDelivery c k s
  | .longResultWrite c k n => Sys2Proof.Machine.execLongResultWrite c k n s
  | .loadReturn c k tag elem => Sys2Proof.Machine.execLoadReturn c k tag elem s
  | .perform c k tag => Sys2Proof.Machine.execPerform c k tag s
  | .heldAccessProceed c k => Sys2Proof.Machine.execHeldAccessProceed c k s
  | .l1SnapshotDrop c line => Sys2Proof.Machine.execL1SnapshotDrop c line s
  | .imageReadReturn c k n => Sys2Proof.Machine.execImageReadReturn c k n s
  | .tldTileWrite c k n => Sys2Proof.Machine.execTldTileWrite c k n s
  | .updateInsertResume c k => Sys2Proof.Machine.execUpdateInsertResume c k s
  | .atomicStep c k tag => Sys2Proof.Machine.execAtomicStep c k tag s
  | .releaseProceed c k => Sys2Proof.Machine.execReleaseProceed c k s
  | .releaseComplete c k => Sys2Proof.Machine.execReleaseComplete c k s
  | .fenceApplyComplete c k => Sys2Proof.Machine.execFenceApplyComplete c k s
  | .watermarkPassStart l => Sys2Proof.Machine.execWatermarkPassStart l s
  | .idlePassStart l => Sys2Proof.Machine.execIdlePassStart l s
  | .derailleurMove l => Sys2Proof.Machine.execDerailleurMove l s
  | .recordAccept n => Sys2Proof.Machine.execRecordAccept n s
  | .applyToBase die => Sys2Proof.Machine.execApplyToBase die s
  | .copySlotReserve c k => Sys2Proof.Machine.execCopySlotReserve c k s
  | .copyUnitDeliver c cmd => Sys2Proof.Machine.execCopyUnitDeliver c cmd s
  | .copyTranslationFault c cmd => Sys2Proof.Machine.execCopyTranslationFault c cmd s
  | .engineFaultTrap c k => Sys2Proof.Machine.execEngineFaultTrap c k s
  | .mmaStart c => Sys2Proof.Machine.execMmaStart c s
  | .mmaRetire c => Sys2Proof.Machine.execMmaRetire c s
  | .governorWindow die => Sys2Proof.Machine.execGovernorWindow die s
  | .tcvtStart c => Sys2Proof.Machine.execTcvtStart c s
  | .tcvtRetire c => Sys2Proof.Machine.execTcvtRetire c s
  | .dsmodeGroupChangeDone c grp => Sys2Proof.Machine.execDsmodeGroupChangeDone c grp s
  | .mzero u => Sys2Proof.Machine.execMzero u s
  | .mcopy u => Sys2Proof.Machine.execMcopy u s
  | .microMnot u => Sys2Proof.Machine.execMicroMnot u s
  | .microMand u => Sys2Proof.Machine.execMicroMand u s
  | .microMor u => Sys2Proof.Machine.execMicroMor u s
  | .microMxor u => Sys2Proof.Machine.execMicroMxor u s
  | .madd u => Sys2Proof.Machine.execMadd u s
  | .msub u => Sys2Proof.Machine.execMsub u s
  | .mcmp u => Sys2Proof.Machine.execMcmp u s
  | .msel u => Sys2Proof.Machine.execMsel u s
  | .mshl u => Sys2Proof.Machine.execMshl u s
  | .mshr u => Sys2Proof.Machine.execMshr u s
  | .mfadd u => Sys2Proof.Machine.execMfadd u s
  | .mfmul u => Sys2Proof.Machine.execMfmul u s
  | .mloop u => Sys2Proof.Machine.execMloop u s
  | .mend u => Sys2Proof.Machine.execMend u s
  | .sequencerMessageAccept c => Sys2Proof.Machine.execSequencerMessageAccept c s
  | .bitSerialStopTrap c k => Sys2Proof.Machine.execBitSerialStopTrap c k s
  | .barrierDoneSignal c bb col => Sys2Proof.Machine.execBarrierDoneSignal c bb col s
  | .barrierRelease c bb => Sys2Proof.Machine.execBarrierRelease c bb s
  | .messageAccept n => Sys2Proof.Machine.execMessageAccept n s
  | .collectiveBlock sp coll idx fin pa data => Sys2Proof.Machine.execCollectiveBlock sp coll idx fin pa data s
  | .gatewayQueueAppend sp => Sys2Proof.Machine.execGatewayQueueAppend sp s
  | .kick sp fid q n => Sys2Proof.Machine.execKick sp fid q n s
  | .launchRecordRead q => Sys2Proof.Machine.execLaunchRecordRead q s
  | .bindRecordCommit c r => Sys2Proof.Machine.execBindRecordCommit c r s
  | .bindRecordWithdraw c n => Sys2Proof.Machine.execBindRecordWithdraw c n s
  | .blockComplete c n => Sys2Proof.Machine.execBlockComplete c n s
  | .launchComplete q => Sys2Proof.Machine.execLaunchComplete q s
  | .refusedLaunchComplete q => Sys2Proof.Machine.execRefusedLaunchComplete q s
  | .microTlbFill c n => Sys2Proof.Machine.execMicroTlbFill c n s
  | .pageWalkStart die n => Sys2Proof.Machine.execPageWalkStart die n s
  | .pageWalkComplete die n => Sys2Proof.Machine.execPageWalkComplete die n s
  | .faultRecordWrite ctx => Sys2Proof.Machine.execFaultRecordWrite ctx s
  | .hubcallReply c k full => Sys2Proof.Machine.execHubcallReply c k full s
  | .saveRequest c n pa => Sys2Proof.Machine.execSaveRequest c n pa s
  | .preemptStop c k => Sys2Proof.Machine.execPreemptStop c k s
  | .blockSave c n => Sys2Proof.Machine.execBlockSave c n s
  | .flitReplay sp => Sys2Proof.Machine.execFlitReplay sp s
  | .spokeFence sp => Sys2Proof.Machine.execSpokeFence sp s
  | .routeChange die => Sys2Proof.Machine.execRouteChange die s
  | .hostRead pa n => Sys2Proof.Machine.execHostRead pa n s
  | .hostWrite sp pa data pois => Sys2Proof.Machine.execHostWrite sp pa data pois s
  | .hostAgentApply die => Sys2Proof.Machine.execHostAgentApply die s
  | .remoteReadTimeout c k tag => Sys2Proof.Machine.execRemoteReadTimeout c k tag s
  | .recordUndeliverable n => Sys2Proof.Machine.execRecordUndeliverable n s
  | .claim rq => Sys2Proof.Machine.execClaim rq s
  | .attest rq => Sys2Proof.Machine.execAttest rq s
  | .status rq => Sys2Proof.Machine.execStatus rq s
  | .createContext rq => Sys2Proof.Machine.execCreateContext rq s
  | .endContext rq => Sys2Proof.Machine.execEndContext rq s
  | .setSplit rq => Sys2Proof.Machine.execSetSplit rq s
  | .createQueue rq => Sys2Proof.Machine.execCreateQueue rq s
  | .setWindow rq => Sys2Proof.Machine.execSetWindow rq s
  | .invalidateTranslations rq => Sys2Proof.Machine.execInvalidateTranslations rq s
  | .faultAnswer rq => Sys2Proof.Machine.execFaultAnswer rq s
  | .repair rq => Sys2Proof.Machine.execRepair rq s
  | .runtimeDisable rq => Sys2Proof.Machine.execRuntimeDisable rq s
  | .raceRing rq => Sys2Proof.Machine.execRaceRing rq s
  | .extendMeasurement rq => Sys2Proof.Machine.execExtendMeasurement rq s
  | .raiseRollbackCounter rq => Sys2Proof.Machine.execRaiseRollbackCounter rq s
  | .correctedError e => Sys2Proof.Machine.execCorrectedError e s
  | .uncorrectableError e => Sys2Proof.Machine.execUncorrectableError e s
  | .hbmChannelFence die ch => Sys2Proof.Machine.execHbmChannelFence die ch s
  | .bankGroupFence c grp => Sys2Proof.Machine.execBankGroupFence c grp s
  | .patrolScrubRead line err => Sys2Proof.Machine.execPatrolScrubRead line err s
  | .scrubWriteback line => Sys2Proof.Machine.execScrubWriteback line s
  | .hotListExpiry row => Sys2Proof.Machine.execHotListExpiry row s
  | .retirementScoreDecay row => Sys2Proof.Machine.execRetirementScoreDecay row s
  | .rowRetire row => Sys2Proof.Machine.execRowRetire row s
  | .powerBudgetUpdate budgets actlims => Sys2Proof.Machine.execPowerBudgetUpdate budgets actlims s
  | .actlimWindow die stack => Sys2Proof.Machine.execActlimWindow die stack s
  | .dieClockStop die => Sys2Proof.Machine.execDieClockStop die s
  | .dieClockRestart die => Sys2Proof.Machine.execDieClockRestart die s
  | .tjSample die tj => Sys2Proof.Machine.execTjSample die tj s
  | .computeDieThermal die tj => Sys2Proof.Machine.execComputeDieThermal die tj s
  | .thermalTrip die tj => Sys2Proof.Machine.execThermalTrip die tj s
  | .coolantLoss die => Sys2Proof.Machine.execCoolantLoss die s
  | .deviceReset bundle => Sys2Proof.Machine.execDeviceReset bundle s
  | .bootStateEnd die => Sys2Proof.Machine.execBootStateEnd die s
  | .yieldRequestSet c n => Sys2Proof.Machine.execYieldRequestSet c n s
  | .birspi die line dirty => Sys2Proof.Machine.execBirspi die line dirty s
  | .globalObservationResponse die => Sys2Proof.Machine.execGlobalObservationResponse die s

end Sys2Proof.Machine
end

