-- ==== Sys2Proof/Machine/Schedule.lean ====
section
/-! DEFINITION. What moves next (log 6: DESIGN CHOICE): a slot's turn (spec/01 R7, R8; spec/04 R84, R95), one core cycle, the sequencers, and, where the
agenda names nothing, the first step of the hardware that is due. In a cycle the turns come first, then the events (R8, R147, R150; log 81: DEDUCED). Also the placing of a word where the next step fetches. -/

namespace Sys2Proof.Machine

-- a turn

/-- A slot's turn: what comes before an issue, else the fetch, the decode check of R95 step 2, and the instruction. -/
def turn (c : CoreId) (k : BitVec 4) (s : State) : Host.Outcome State Fault Refusal :=
  if s.hasTurn c k then
    let s := { (s.useTurn c).purgeMisses c k.toNat with cur := (c, k) }
    let s := s.setCs s.cs.shiftPend
    match s.beforeIssue c k with
    | some t => .next t
    | none =>
      match s.fetch with
      | .wait t => .next t
      | .fault t cause va => .next (t.deliverFault c k cause va needX.kind t.cs.pc)
      | .illegal => .next (match s.openFetch with
        | none => s
        | some t => t.trapHere causeIllegal 0)
      | .instr i => match s.openFetch with
        | none => .next s
        | some t => exec i t
  else .next s

-- a cycle

/-- The units of a core that a TSTS or the copy engine writes in a cycle, after the slots' accesses (R147, R240, R250). -/
def State.storeUnits (s : State) (c : CoreId) : State :=
  let x := s.core c
  let now := s.clock c
  let (due, rest) := x.stores.partition fun u => decide (u.1 ≤ now)
  if due = [] then s
  else due.foldl (fun t u => t.putStore c u.2.1 u.2.2.1 u.2.2.2) (s.setCore c { x with stores := rest })

/-- The message at the head of a core's outbound queue goes into the mesh: one in each cycle (R267). -/
def State.sendHead (s : State) (c : CoreId) : State :=
  let x := s.core c
  match x.outq with
  | [] => s
  | m :: rest => { s.setCore c { x with outq := rest } with msgs := s.msgs ++ [m] }

/-- One core cycle ends: cores that run write and send, every die's timebase counts, held or stopped or not, and no flag is new any more (R18, R45,
R346, R355). (log 56: DEDUCED) -/
def State.tick (s : State) : State :=
  let s := (s.cores.map Prod.fst).foldl (fun t k =>
    let c := CoreId.ofKey k
    if t.coreRuns c then (t.storeUnits c).sendHead c else t) s
  { s with dies := s.dies.map (fun d => { d with clock := d.clock + 1 }), ctxs := s.ctxs.map fun y => { y with mxnew := 0 } }

-- what is due

/-- A step that may be due. -/
abbrev Try := State → Option State

/-- The steps of a slot. -/
def slotTries (x : Slot) (c : CoreId) (k : BitVec 4) : List Try :=
  (List.range x.longs.length).map (tryLongResultWrite c k)
    ++ x.tags.flatMap (fun t =>
      let tag := BitVec.ofNat 3 t.1
      tryPerform c k tag :: tryAtomicStep c k tag :: (List.range t.2.elems.length).map fun i => tryLoadReturn c k tag (BitVec.ofNat 3 i))
    ++ (if x.hold = [] then [] else [tryHeldAccessProceed c k, tryUpdateInsertResume c k, tryReleaseProceed c k, tryReleaseComplete c k])
    ++ (match x.busy with
      | none => []
      | some (.tld _ _ _ words _) => (List.range words.length).map (tryTldTileWrite c k)
      | some (.image _ _ _ words _) => (List.range words.length).map (tryImageReadReturn c k)
      | some _ => [tryReleaseProceed c k, tryReleaseComplete c k, tryFenceApplyComplete c k, tryCopySlotReserve c k, tryImageReadReturn c k 0])
    ++ (if x.hubcalls = [] then [] else [tryHubcallReply c k false])
    ++ (if x.stop then [tryPreemptStop c k] else [])

/-- The steps of a core and of the slab beneath it. -/
def coreTries (x : Core) (y : Slab) (c : CoreId) : List Try :=
  (List.range 16).flatMap (fun i => slotTries (x.slots[(BitVec.ofNat 4 i).toNat]) c (BitVec.ofNat 4 i))
    ++ (if x.mx = [] then [] else [tryMmaRetire c, tryTcvtRetire c, tryMmaStart c, tryTcvtStart c])
    ++ x.cmds.flatMap (fun e => [tryCopyUnitDeliver c (BitVec.ofNat 3 e.1), tryCopyTranslationFault c (BitVec.ofNat 3 e.1)])
    ++ x.bars.flatMap (fun e =>
      let b := BitVec.ofNat 2 e.1
      [tryBarrierRelease c b, tryBarrierDoneSignal c b false, tryBarrierDoneSignal c b true])
    ++ y.changing.map (fun e => tryDsmodeGroupChangeDone c (BitVec.ofNat 4 e.1))
    ++ (if y.seq.msgs = [] then [] else [trySequencerMessageAccept c])
    ++ x.table.flatMap (fun e => [tryBlockSave c e.1, tryBlockComplete c e.1])
    ++ [tryDerailleurMove (level0 c), tryWatermarkPassStart (level0 c), tryIdlePassStart (level0 c)]

/-- The steps of a die. -/
def dieTries (d : BitVec 3) (x : Die) : List Try :=
  [tryGovernorWindow d, tryActlimWindow d false, tryActlimWindow d true, tryApplyToBase d, tryHostAgentApply d,
   tryDerailleurMove (.cog2 d), tryWatermarkPassStart (.cog2 d), tryIdlePassStart (.cog2 d), tryRouteChange d, tryDieClockRestart d]
    ++ (List.range x.misses.length).flatMap (fun i =>
      match x.misses[i]? with
      | some m => [tryMicroTlbFill m.core i, tryPageWalkStart d i]
      | none => [])
    ++ (List.range x.walks.length).map (tryPageWalkComplete d)
    ++ (if x.raced = [] then [] else [fun s => s.tryRaceTrace d])
    ++ (if x.boot then [tryBootStateEnd d] else [])

/-- The steps of the hardware and of the monitors that take nothing from outside, in the model's order. -/
def State.tries (s : State) : List Try :=
  s.cores.flatMap (fun e => coreTries e.2 (s.slab (CoreId.ofKey e.1)) (CoreId.ofKey e.1))
    ++ s.clusters.flatMap (fun e =>
      let l : LevelId := .cog1 (BitVec.ofNat 3 (e.1 / 64)) (BitVec.ofNat 6 e.1)
      [tryDerailleurMove l, tryWatermarkPassStart l, tryIdlePassStart l])
    ++ (List.range 8).flatMap (fun d => dieTries (BitVec.ofNat 3 d) (s.die (BitVec.ofNat 3 d)))
    ++ (List.range s.transit.length).map tryRecordAccept
    ++ (List.range s.msgs.length).map tryMessageAccept
    ++ s.queues.flatMap (fun e =>
      let q := BitVec.ofNat 8 e.1
      [tryLaunchRecordRead q, tryLaunchComplete q, tryRefusedLaunchComplete q])
    ++ (List.range 64).map (fun n => tryFaultRecordWrite (BitVec.ofNat 6 n))
    ++ (List.range 32).map (fun n => tryGatewayQueueAppend (BitVec.ofNat 5 n))
    ++ [tryPeerApply, State.serve]

/-- The first step that is due. -/
def firstDue (s : State) : List Try → Option State
  | [] => none
  | f :: fs => match f s with
    | some t => some t
    | none => firstDue s fs

/-- A sequencer whose next microinstruction is due. -/
def State.dueSeq (s : State) : Option CoreId := ((s.slabs.map fun e => CoreId.ofKey e.1).find? s.seqReady)

/-- A slot that has its turn. -/
def State.dueTurn (s : State) : Option (CoreId × BitVec 4) :=
  (s.cores.map fun e =>
    let c := CoreId.ofKey e.1
    (c, BitVec.ofNat 4 (s.clock c))).find? fun x => s.hasTurn x.1 x.2

/-- A slot that has its turn in this cycle and has not used it. -/
def State.turnWaits (s : State) : Bool :=
  s.cores.any fun e => let c := CoreId.ofKey e.1; s.turnDue c (BitVec.ofNat 4 (s.clock c))

/-- The writes of long results that come before the turns that are due (R9). -/
def State.lateTries (s : State) : List Try :=
  s.cores.flatMap fun e =>
    let c := CoreId.ofKey e.1
    let k := BitVec.ofNat 4 (s.clock c)
    if s.turnDue c k && s.lateResult c k then (List.range (s.slot c k).longs.length).map (tryLongResultWrite c k) else []

/-- What takes place in its own cycle and no later: the matrix engine's steps (R241, R244), long results (R9), and the windows of the governor and of
ACTLIM (R243, R355). -/
def State.exactTries (s : State) : List Try :=
  s.cores.flatMap (fun e =>
    let c := CoreId.ofKey e.1
    (if e.2.mx = [] then [] else [tryMmaRetire c, tryTcvtRetire c, tryMmaStart c, tryTcvtStart c])
      ++ (List.range 16).flatMap fun i =>
        (List.range (e.2.slots[(BitVec.ofNat 4 i).toNat]).longs.length).map (tryLongResultWrite c (BitVec.ofNat 4 i)))
    ++ (List.range 8).flatMap fun d =>
      let die := BitVec.ofNat 3 d
      [tryGovernorWindow die, tryActlimWindow die false, tryActlimWindow die true]

/-- The cycle may end: no turn of it is left, nothing that belongs into it, and no microinstruction. -/
def State.mayTick (s : State) : Bool := !s.turnWaits && (firstDue s s.exactTries).isNone && s.dueSeq.isNone

/-- Where the agenda names nothing: the turns of the cycle, each after its slot's long results, then what is due, then the sequencers, then the next
cycle (log 6: DESIGN CHOICE). -/
def auto (s : State) : Host.Outcome State Fault Refusal :=
  match firstDue s s.lateTries with
  | some t => .next t
  | none =>
    match s.dueTurn with
    | some (c, k) => turn c k s
    | none =>
      match firstDue s s.tries with
      | some t => .next t
      | none =>
        match s.dueSeq with
        | some c => .next (s.seqStep c)
        | none => .next s.tick

-- an action

/-- The step is one of the sequencer's microinstructions. -/
def isMicro : Instr → Bool
  | .mzero _ => true
  | .mcopy _ => true
  | .microMnot _ => true
  | .microMand _ => true
  | .microMor _ => true
  | .microMxor _ => true
  | .madd _ => true
  | .msub _ => true
  | .mcmp _ => true
  | .msel _ => true
  | .mshl _ => true
  | .mshr _ => true
  | .mfadd _ => true
  | .mfmul _ => true
  | .mloop _ => true
  | .mend _ => true
  | _ => false

/-- The steps that belong to a slot's turn, or come before it. -/
def isTurnStep : Instr → Bool
  | .pendingTrapDelivery _ _ => true
  | .engineFaultTrap _ _ => true
  | .bitSerialStopTrap _ _ => true
  | .preemptStop _ _ => true
  | .longResultWrite _ _ _ => true
  | _ => false

/-- An event of the cycle, after its turns. -/
def State.eventStep (s : State) (t : Option State) : Host.Outcome State Fault Refusal := if s.turnWaits then .next s else .next (t.getD s)

/-- One action. An instruction runs only from a slot's turn, a microinstruction only from a sequencer's store; what is no step of a turn waits for the
turns of the cycle, and the cycle's end for all that belongs into it. -/
def act (a : Action) (s : State) : Host.Outcome State Fault Refusal :=
  match a with
  | .turn c k => turn c k s
  | .seq c => s.eventStep (some (s.seqStep c))
  | .event i =>
    if (fieldsOf i).isSome || isMicro i || (s.turnWaits && !isTurnStep i) then .next s else exec i s
  | .serve => s.eventStep s.serve
  | .peerApply => s.eventStep (tryPeerApply s)
  | .peerRecord sp r => s.eventStep (tryPeerRecord sp r s)
  | .race d => s.eventStep (s.tryRaceTrace d)
  | .hostStore pa b => s.eventStep (tryHostStore pa b s)
  | .barWrite sp off data => s.eventStep (tryBarWrite sp off data s)
  | .barRead sp off n => s.eventStep (tryBarRead sp off n s)
  | .tick => if s.mayTick then .next s.tick else .next s

/-- The head of the agenda, or what is due. (log 61: DESIGN CHOICE) -/
def advanceAgenda (s : State) : Host.Outcome State Fault Refusal :=
  match s.agenda with
  | [] => auto s
  | a :: r => act a { s with agenda := r }

-- the placing of a word

/-- The bytes of an instruction of `nbits` bits and zeros up to 20 bytes, at an address. -/
def placed (s : State) (pa nbits w : Nat) : State := { s with mem := writeBytes s.mem pa (w % 2 ^ nbits) 20 }

/-- Die 0 in boot state (R372) on core (0, 0), with an instruction at the entry address and the slot's turn next (log 6: DESIGN CHOICE). -/
def bootAt (s : State) (nbits w : Nat) : State :=
  let c : CoreId := ⟨0, 0, 0⟩
  let d := s.die 0
  let s := s.setDie 0 { d with clock := 16 * (d.clock / 16), held := false, stopped := false }
  let s := placed (s.setCore c (bootCore s.meshW s.meshH Config.bootEntry Config.bootParams true)) Config.bootEntry nbits w
  { s with cur := (c, 0), agenda := [.turn c 0] }

end Sys2Proof.Machine
end

