-- ==== Sys2Proof/Machine/Step.lean ====
section
/-! DEFINITION. One step, and the placing of a word where the next step fetches (log 6: DESIGN CHOICE). -/

namespace Sys2Proof.Machine

/-- One step: the head of the agenda, or what is due. -/
def step (s : State) : Host.Outcome State Fault Refusal := advanceAgenda s

/-- A state whose next step fetches and runs the instruction of `nbits` bits `w`. -/
def State.withFetchWord (s : State) (nbits w : Nat) : State := bootAt s nbits w

end Sys2Proof.Machine
end

