-- ==== Sys2Proof/Safety.lean ====
section
/-! DEFINITION. What counts as a safe run: `n` steps that neither fault nor refuse; and the terms in which the statements speak of an
instruction that issues and completes. -/

namespace Sys2Proof.Safety

open Sys2Proof.Machine

/-- The state after `n` steps, if none of them stops the run. -/
def after : Nat → State → Option State
  | 0, s => some s
  | n + 1, s =>
    match step s with
    | .next t => after n t
    | .fault _ => none
    | .refused _ => none

/-- `n` steps stop at no fault and no refusal. -/
def Safe (n : Nat) (s : State) : Prop := (after n s).isSome = true

end Sys2Proof.Safety

namespace Sys2Proof.Claims

open Sys2Proof.Machine

-- an instruction that issues and completes (R8, R93, R95)

/-- Nothing stops an instruction of the slot whose turn it is before its own effect: no register that it names is pending (R8), its
guard is clean and true (R93), it waits for no message register, and it breaks no rule of R95 steps 3 to 6. -/
structure Ready (s : State) (f : Issue) : Prop where
  settled : s.cs.anyPend (.p f.gd.p :: (f.reads ++ f.writes)) = false
  guardClean : (s.cs.mark (.p f.gd.p)).pois = false
  guardOn : s.cs.guard f.gd = true
  noWait : s.regWait f = false
  allowed : f.bad = false
  clean : s.cs.anyPois f.traps = false
  sendable : f.sends = true → s.badDest = false

/-- The taint of a result (R26): that of the guard and of every register that the instruction reads. -/
def taintIn (s : State) (f : Issue) : Byte := s.cs.taints (.p f.gd.p :: f.reads)
/-- The poison of a result (R29). -/
def poisIn (s : State) (f : Issue) : Bool := s.cs.anyPois f.reads
/-- The taint of the guard alone. -/
def guardTaint (s : State) (f : Issue) : Byte := (s.cs.mark (.p f.gd.p)).taint

/-- The machine after an instruction with the effect `t`: the word of g60 that it read is gone (R12), and the slot goes on after the
instruction or, at the end of a loop's body, back to its start (R116). -/
def finish (f : Issue) (t : State) : State := (t.took f).advance t.cur.1 t.cur.2 f.len

/-- The machine after a taken branch with the effect `t`. -/
def jumped (f : Issue) (t : State) (target : BitVec 48) : State :=
  let t := t.took f
  t.setCs { t.cs with pc := target }

/-- A result in gD with the taint and poison of R26 and R29; nothing is kept of a write to g0, and a write to g61 sends (R12). -/
def toG (s : State) (f : Issue) (d : GIx) (v : Word) : State := finish f (s.putG d v (taintIn s f) (poisIn s f))
/-- A result in pD. -/
def toP (s : State) (f : Issue) (d : PIx) (b : Bool) : State := finish f (s.putP d b (taintIn s f) (poisIn s f))

/-- A long result (R107): gD is pending, and the value comes `rot` rotations later. -/
def toLong (s : State) (f : Issue) (d : GIx) (v : Word) (rot : Nat) : State :=
  finish f (s.startLong (.g d) (v.setWidth 256) (taintIn s f) (poisIn s f) rot)

end Sys2Proof.Claims

namespace Sys2Proof.Claims

open Sys2Proof.Machine

-- what every instruction reads and writes (R8, R26, R29, R30), chapter by chapter

/-- The registers of a memory operand (R189). -/
def eaRegs (e : MemA) : List RegId := [.g e.a, .g e.b]
/-- The registers of operand B (R89). -/
def bRegs : OpB → List RegId
  | .reg b => [.g b]
  | .lit _ => []
/-- Registers of a group, as VQNT, VDQNT and VHAD take them (R139): `n` from `v` up. -/
def groupRegs (v : VIx) (n : Nat) : List RegId := (List.range n).map fun i => .v (v + BitVec.ofNat 5 i)
/-- The registers that hold a unit of a block format, and a run of VHAD, at the width that VFMT gives (R140, R142). -/
def unitRegs (s : State) (fmt : BitVec 4) : Nat := unitElems fmt * codeBits (s.cs.vfmt.extractLsb' 0 5) / 256
def runRegs (s : State) (h32 : Bool) : Nat := max 1 ((if h32 then 32 else 16) * codeBits (s.cs.vfmt.extractLsb' 0 5) / 256)
/-- A g destination of spec/09; g60, g61 and g62 are none (R188). -/
def memDst (d : GIx) : List RegId := if d = 60 ∨ d = 61 ∨ d = 62 then [] else [.g d]

/-- The registers an instruction reads, beside its guard. -/
def readsOf (s : State) : Instr → List RegId
  | .addReg _ _ _ a b | .subReg _ _ _ a b | .mulReg _ _ _ a b | .andReg _ _ _ a b | .orReg _ _ _ a b | .xorReg _ _ _ a b
  | .shlReg _ _ _ a b | .shrReg _ _ _ a b | .sraReg _ _ _ a b | .rolReg _ _ _ a b | .minReg _ _ _ a b | .maxReg _ _ _ a b
  | .minnReg _ _ _ a b | .maxnReg _ _ _ a b | .andnReg _ _ _ a b | .ornReg _ _ _ a b => [.g a, .g b]
  | .addImm _ _ _ a _ | .subImm _ _ _ a _ | .mulImm _ _ _ a _ | .andImm _ _ _ a _ | .orImm _ _ _ a _ | .xorImm _ _ _ a _
  | .shlImm _ _ _ a _ | .shrImm _ _ _ a _ | .sraImm _ _ _ a _ | .rolImm _ _ _ a _ | .minImm _ _ _ a _ | .maxImm _ _ _ a _ => [.g a]
  | .addLit _ _ _ a _ | .subLit _ _ _ a _ | .mulLit _ _ _ a _ | .andLit _ _ _ a _ | .orLit _ _ _ a _ | .xorLit _ _ _ a _
  | .shlLit _ _ _ a _ | .shrLit _ _ _ a _ | .sraLit _ _ _ a _ | .rolLit _ _ _ a _ | .minLit _ _ _ a _ | .maxLit _ _ _ a _
  | .minnLit _ _ _ a _ | .maxnLit _ _ _ a _ | .andnLit _ _ _ a _ | .ornLit _ _ _ a _ => [.g a]
  | .mulh _ _ _ a b | .mulhn _ _ _ a b | .div _ _ _ a b | .divn _ _ _ a b | .rem _ _ _ a b | .remn _ _ _ a b => .g a :: bRegs b
  | .mad _ _ _ a b c => .g a :: .g c :: bRegs b
  | .clz _ _ _ a | .ctz _ _ _ a | .popc _ _ _ a | .brev _ _ _ a | .bswap _ _ _ a | .abs _ _ _ a => [.g a]
  | .bfx _ _ _ a _ _ | .bfxs _ _ _ a _ _ => [.g a]
  | .bfi _ _ d a _ _ => [.g a, .g d]
  | .sel _ _ _ q a b => .p q :: .g a :: bRegs b
  | .lea _ _ _ a b _ => .g a :: bRegs b
  | .leaPcr _ _ _ b _ => bRegs b
  | .cmpSignedReg _ _ _ _ a b | .cmpNaturalReg _ _ _ _ a b => [.g a, .g b]
  | .cmpSignedImm _ _ _ _ a _ | .cmpNaturalImm _ _ _ _ a _ | .cmpSignedLit _ _ _ _ a _ | .cmpNaturalLit _ _ _ _ a _ => [.g a]
  | .pand _ _ _ a b | .por _ _ _ a b | .pxor _ _ _ a b => [.p a, .p b]
  | .pmov _ _ _ a => [.p a]
  | .brx _ a | .callx _ a => [.g a]
  | .ret _ => [.g 59]
  | .loopReg _ a _ => [.g a]
  | .tdep _ _ _ ac a | .tget _ _ ac a => [regOf ac a]
  | .fadd _ _ _ a b | .fsub _ _ _ a b | .fmul _ _ _ a b | .fdiv _ _ _ a b | .fmin _ _ _ a b => [.g a, .g b]
  | .faddLit _ _ _ a _ | .fsubLit _ _ _ a _ | .fmulLit _ _ _ a _ | .fdivLit _ _ _ a _ | .fminLit _ _ _ a _ => [.g a]
  | .faddExt _ _ _ _ a b | .fsubExt _ _ _ _ a b | .fmulExt _ _ _ _ a b | .fdivExt _ _ _ _ a b | .fminExt _ _ _ _ a b
  | .fmax _ _ _ _ a b => .g a :: bRegs b
  | .ffma _ _ _ _ a b c => .g a :: .g c :: bRegs b
  | .fsqrt _ _ _ _ a => bRegs a
  | .fcmp _ _ _ _ a b => [.g a, .g b]
  | .fcmpLit _ _ _ _ a _ => [.g a]
  | .fcmpExt _ _ _ _ _ a b => .g a :: bRegs b
  | .fcvt _ _ _ _ _ a | .fclass _ _ _ a => [.g a]
  | .wrs _ _ _ a => [.g a]
  | .vadd _ _ a b | .vsub _ _ a b | .vmul _ _ a b | .vmin _ _ a b | .vmax _ _ a b | .vand _ _ a b | .vor _ _ a b | .vxor _ _ a b =>
    [.v a, .v b, .v b, .m 0]
  | .vaddExt _ x _ _ a b | .vsubExt _ x _ _ a b | .vmulExt _ x _ _ a b | .vminExt _ x _ _ a b | .vmaxExt _ x _ _ a b
  | .vandExt _ x _ a b | .vorExt _ x _ a b | .vxorExt _ x _ a b => [.v a, .v b, .v b, .m x.vm]
  | .vfma _ x _ _ a b c => [.v a, .v b, .v c, .m x.vm]
  | .vabs _ _ a | .vmov _ _ a => [.v a, .v a, .v a, .m 0]
  | .vabsExt _ x _ a | .vmovExt _ x _ a => [.v a, .v a, .v a, .m x.vm]
  | .vshlReg _ _ a b | .vshrReg _ _ a b | .vsraReg _ _ a b => [.v a, .v b, .v b, .m 0]
  | .vshlImm _ _ a _ | .vshrImm _ _ a _ | .vsraImm _ _ a _ => [.v a, .v a, .v a, .m 0]
  | .vshlExt _ x i _ a b | .vshrExt _ x i _ a b | .vsraExt _ x i _ a b =>
    if i then [.v a, .v a, .v a, .m x.vm] else [.v a, .v (b.setWidth 5), .v (b.setWidth 5), .m x.vm]
  | .vcmp _ _ _ a b => [.v a, .v b, .m 0]
  | .vcmpExt _ x _ _ a b => [.v a, .v b, .m x.vm]
  | .vsel _ x _ q a b => [.v a, .v b, .m q, .m x.vm]
  | .vbcast _ _ a => [.g a, .m 0]
  | .vbcastExt _ x _ a => [.g a, .m x.vm]
  | .vins _ d a _ | .vinsExt _ d a _ => [.g a, .v d]
  | .vext _ _ a _ | .vextExt _ _ a _ => [.v a]
  | .vshuf _ _ a b => [.v a, .v b, .m 0]
  | .vshufExt _ x _ a b => [.v a, .v b, .m x.vm]
  | .vslideUp _ _ a _ | .vslideDown _ _ a _ => [.v a, .m 0]
  | .vslideUpExt _ x _ a _ | .vslideDownExt _ x _ a _ => [.v a, .m x.vm]
  | .vredadd _ _ a | .vredmin _ _ a | .vredmax _ _ a => [.v a, .m 0]
  | .vredaddExt _ vm _ _ a | .vredminExt _ vm _ _ a | .vredmaxExt _ vm _ _ a => [.v a, .m vm]
  | .vdot _ x _ d a b => [.v a, .v b, .v d, .m x.vm]
  | .vsfu _ x _ _ a => [.v a, .m x.vm]
  | .vcvt _ x _ _ _ _ _ a => [.v a, .m x.vm]
  | .vqnt _ _ fmt _ a _ => groupRegs a (unitRegs s fmt)
  | .vdqnt _ _ _ a c => [.v a, .g c]
  | .vhad _ h32 _ a => groupRegs a (runRegs s h32)
  | .vbaddq _ _ _ _ a b c => [.v a, .v b, .v c]
  | .mand _ _ a b | .mor _ _ a b | .mxor _ _ a b => [.m a, .m b]
  | .mnot _ _ a => [.m a, .m a]
  | .mpop _ _ a => [.m a]
  | .gtom _ _ a => [.g a]
  | .mtog _ d a => [.g a, .m d]
  | .ld _ _ _ ea | .ldro _ _ _ ea | .ldx _ _ _ ea | .ldv _ _ _ ea | .lds _ _ _ ea | .ldsv _ _ ea | .ldd _ _ _ ea => eaRegs ea
  | .ldvGather _ _ _ va b _ => [.v va, .g b]
  | .sts _ _ d ea | .std _ _ d ea | .upd _ _ _ d ea => eaRegs ea ++ [.g d]
  | .stsv _ d ea | .updv _ _ _ d ea => eaRegs ea ++ [.v d]
  | .updx _ _ _ d ea => eaRegs ea ++ [.g d, .g (d + 1)]
  | .updvScatter _ _ _ d va b _ => [.v va, .g b, .v d]
  | .atom _ _ _ _ ea c => eaRegs ea ++ [.g c]
  | .cas _ _ _ a _ b c => [.g a, .g b, .g c]
  | .drain _ _ a b | .inval _ _ a b => [.g a, .g b]
  | .syncinit _ a _ b | .syncadd _ a _ b => [.g a, .g b]
  | .syncwait _ a _ | .syncget _ _ a _ => [.g a]
  | .tdset _ _ a _ | .tdget _ a _ _ | .ringcfg _ _ a _ | .tilecfg _ a | .tld _ _ a _ | .tsts _ a _ _ => [.g a]
  | .tupd _ _ _ ea _ => eaRegs ea
  | .cpy _ _ a _ | .cpystat _ _ a | .cpyres _ a | .dsmode _ _ a => [.g a]
  | .bsld _ _ a _ b | .bsrun _ a b => [.g a, .g b]
  | .barcfg _ _ a | .send _ _ _ a _ | .gqput _ a | .hubcall _ _ _ a | .chkpt _ a => [.g a]
  | _ => []

/-- The registers an instruction writes. -/
def writesOf (s : State) : Instr → List RegId
  | .addReg _ _ d _ _ | .subReg _ _ d _ _ | .mulReg _ _ d _ _ | .andReg _ _ d _ _ | .orReg _ _ d _ _ | .xorReg _ _ d _ _
  | .shlReg _ _ d _ _ | .shrReg _ _ d _ _ | .sraReg _ _ d _ _ | .rolReg _ _ d _ _ | .minReg _ _ d _ _ | .maxReg _ _ d _ _
  | .minnReg _ _ d _ _ | .maxnReg _ _ d _ _ | .andnReg _ _ d _ _ | .ornReg _ _ d _ _ => [.g d]
  | .addImm _ _ d _ _ | .subImm _ _ d _ _ | .mulImm _ _ d _ _ | .andImm _ _ d _ _ | .orImm _ _ d _ _ | .xorImm _ _ d _ _
  | .shlImm _ _ d _ _ | .shrImm _ _ d _ _ | .sraImm _ _ d _ _ | .rolImm _ _ d _ _ | .minImm _ _ d _ _ | .maxImm _ _ d _ _ => [.g d]
  | .addLit _ _ d _ _ | .subLit _ _ d _ _ | .mulLit _ _ d _ _ | .andLit _ _ d _ _ | .orLit _ _ d _ _ | .xorLit _ _ d _ _
  | .shlLit _ _ d _ _ | .shrLit _ _ d _ _ | .sraLit _ _ d _ _ | .rolLit _ _ d _ _ | .minLit _ _ d _ _ | .maxLit _ _ d _ _
  | .minnLit _ _ d _ _ | .maxnLit _ _ d _ _ | .andnLit _ _ d _ _ | .ornLit _ _ d _ _ => [.g d]
  | .mulh _ _ d _ _ | .mulhn _ _ d _ _ | .div _ _ d _ _ | .divn _ _ d _ _ | .rem _ _ d _ _ | .remn _ _ d _ _ => [.g d]
  | .mad _ _ d _ _ _ => [.g d]
  | .clz _ _ d _ | .ctz _ _ d _ | .popc _ _ d _ | .brev _ _ d _ | .bswap _ _ d _ | .abs _ _ d _ => [.g d]
  | .bfx _ _ d _ _ _ | .bfxs _ _ d _ _ _ | .bfi _ _ d _ _ _ => [.g d]
  | .sel _ _ d _ _ _ | .lea _ _ d _ _ _ | .leaPcr _ _ d _ _ => [.g d]
  | .cmpSignedReg _ _ _ q _ _ | .cmpNaturalReg _ _ _ q _ _ | .cmpSignedImm _ _ _ q _ _ | .cmpNaturalImm _ _ _ q _ _
  | .cmpSignedLit _ _ _ q _ _ | .cmpNaturalLit _ _ _ q _ _ => [.p q]
  | .pand _ _ d _ _ | .por _ _ d _ _ | .pxor _ _ d _ _ => [.p d]
  | .pmov _ _ d _ => [.p d]
  | .call _ _ _ _ | .callx _ _ => [.g 59]
  | .tclr _ dc d _ | .tdep _ dc d _ _ => [regOf dc d]
  | .tget _ d _ _ => [.g d]
  | .fadd _ _ d _ _ | .fsub _ _ d _ _ | .fmul _ _ d _ _ | .fdiv _ _ d _ _ | .fmin _ _ d _ _ => [.g d]
  | .faddLit _ _ d _ _ | .fsubLit _ _ d _ _ | .fmulLit _ _ d _ _ | .fdivLit _ _ d _ _ | .fminLit _ _ d _ _ => [.g d]
  | .faddExt _ _ _ d _ _ | .fsubExt _ _ _ d _ _ | .fmulExt _ _ _ d _ _ | .fdivExt _ _ _ d _ _ | .fminExt _ _ _ d _ _
  | .fmax _ _ _ d _ _ => [.g d]
  | .ffma _ _ _ d _ _ _ => [.g d]
  | .fsqrt _ _ _ d _ => [.g d]
  | .fcmp _ _ _ q _ _ | .fcmpLit _ _ _ q _ _ | .fcmpExt _ _ _ _ q _ _ => [.p q]
  | .fcvt _ _ _ _ d _ | .fclass _ _ d _ => [.g d]
  | .rds _ d _ _ => [.g d]
  | .vadd _ d _ _ | .vsub _ d _ _ | .vmul _ d _ _ | .vmin _ d _ _ | .vmax _ d _ _ | .vand _ d _ _ | .vor _ d _ _ | .vxor _ d _ _ =>
    [.v d]
  | .vaddExt _ _ _ d _ _ | .vsubExt _ _ _ d _ _ | .vmulExt _ _ _ d _ _ | .vminExt _ _ _ d _ _ | .vmaxExt _ _ _ d _ _
  | .vandExt _ _ d _ _ | .vorExt _ _ d _ _ | .vxorExt _ _ d _ _ => [.v d]
  | .vfma _ _ _ d _ _ _ => [.v d]
  | .vabs _ d _ | .vmov _ d _ | .vabsExt _ _ d _ | .vmovExt _ _ d _ => [.v d]
  | .vshlReg _ d _ _ | .vshrReg _ d _ _ | .vsraReg _ d _ _ | .vshlImm _ d _ _ | .vshrImm _ d _ _ | .vsraImm _ d _ _ => [.v d]
  | .vshlExt _ _ _ d _ _ | .vshrExt _ _ _ d _ _ | .vsraExt _ _ _ d _ _ => [.v d]
  | .vcmp _ _ q _ _ | .vcmpExt _ _ _ q _ _ => [.m q]
  | .vsel _ _ d _ _ _ => [.v d]
  | .vbcast _ d _ | .vbcastExt _ _ d _ => [.v d]
  | .vins _ d _ _ | .vinsExt _ d _ _ => [.v d]
  | .vext _ d _ _ | .vextExt _ d _ _ => [.g d]
  | .vshuf _ d _ _ | .vshufExt _ _ d _ _ => [.v d]
  | .vslideUp _ d _ _ | .vslideDown _ d _ _ | .vslideUpExt _ _ d _ _ | .vslideDownExt _ _ d _ _ => [.v d]
  | .vredadd _ d _ | .vredmin _ d _ | .vredmax _ d _ | .vredaddExt _ _ _ d _ | .vredminExt _ _ _ d _ | .vredmaxExt _ _ _ d _ => [.g d]
  | .vdot _ _ _ d _ _ => [.v d]
  | .vsfu _ _ _ d _ => [.v d]
  | .vcvt _ _ _ _ _ _ d _ => [.v d]
  | .vqnt _ _ _ d _ c => [.v d, .g c]
  | .vdqnt _ fmt d _ _ => groupRegs d (unitRegs s fmt)
  | .vhad _ h32 d _ => groupRegs d (runRegs s h32)
  | .vbaddq _ _ _ d _ _ _ => [.v d]
  | .mand _ d _ _ | .mor _ d _ _ | .mxor _ d _ _ => [.m d]
  | .mnot _ d _ => [.m d]
  | .mpop _ d _ => [.g d]
  | .gtom _ d _ | .mtog _ d _ => [.m d]
  | .ld _ _ d _ | .ldro _ _ d _ => if d = 0 then [] else memDst d
  | .lds _ _ d _ | .ldd _ _ d _ => memDst d
  | .ldx _ _ d _ => [.g d, .g (d + 1)]
  | .ldv _ _ d _ | .ldsv _ d _ => [.v d]
  | .ldvGather _ _ d _ _ _ => [.v d]
  | .atom _ _ _ d _ _ => memDst d
  | .cas _ _ d _ _ _ _ => memDst d
  | .syncget _ d _ _ => memDst d
  | .ringstat _ d _ | .cpy _ d _ _ | .cpystat _ d _ | .bsstat _ d | .inpop _ d | .gqtake _ d | .hubcall _ _ d _ => [.g d]
  | _ => []

/-- The operands that trap when they are poisoned: an address, a branch target, a count, a word that goes to a unit (R30). -/
def trapsOf : Instr → List RegId
  | .brx _ a | .callx _ a => [.g a]
  | .ret _ => [.g 59]
  | .loopReg _ a _ => [.g a]
  | .wrs _ _ _ a => [.g a]
  | .mtog _ _ a => [.g a]
  | .ld _ _ _ ea | .ldro _ _ _ ea | .ldx _ _ _ ea | .ldv _ _ _ ea | .lds _ _ _ ea | .ldsv _ _ ea | .ldd _ _ _ ea => eaRegs ea
  | .ldvGather _ _ _ va b _ => [.v va, .g b]
  | .sts _ _ _ ea | .std _ _ _ ea | .upd _ _ _ _ ea | .stsv _ _ ea | .updv _ _ _ _ ea | .updx _ _ _ _ ea => eaRegs ea
  | .updvScatter _ _ _ _ va b _ => [.v va, .g b]
  | .atom _ _ _ _ ea _ => eaRegs ea
  | .cas _ _ _ a _ _ _ => [.g a]
  | .drain _ _ a b | .inval _ _ a b => [.g a, .g b]
  | .syncinit _ a _ b | .syncadd _ a _ b => [.g a, .g b]
  | .syncwait _ a _ | .syncget _ _ a _ => [.g a]
  | .tdset _ _ a _ | .tdget _ a _ _ | .ringcfg _ _ a _ | .tilecfg _ a | .tld _ _ a _ | .tsts _ a _ _ => [.g a]
  | .tupd _ _ _ ea _ => eaRegs ea
  | .cpy _ _ a _ | .cpystat _ _ a | .cpyres _ a | .dsmode _ _ a => [.g a]
  | .bsld _ _ a _ b => [.g a, .g b]
  | .bsrun _ a _ => [.g a]
  | .barcfg _ _ a | .send _ _ _ a _ | .gqput _ a | .hubcall _ _ _ a | .chkpt _ a => [.g a]
  | _ => []

/-- LDX and UPDX take an even register of at most g58 (R95 step 3, R192). -/
def limitOf : Instr → Bool
  | .ldx _ _ d _ | .updx _ _ _ d _ => pairBad d
  | _ => false

/-- Instructions that choose the next pc, and TCLR and TDEP on the control taint: their guard's taint joins it (R27, R93, R118). -/
def controls : Instr → Bool
  | .bra _ _ _ _ | .call _ _ _ _ | .brx _ _ | .callx _ _ | .ret _ | .btag _ _ _ | .loopImm _ _ _ | .loopReg _ _ _ | .lexit _ => true
  | .tclr _ dc d _ | .tdep _ dc d _ _ => decide (regOf dc d = .g 0)
  | _ => false

/-- TCLR and TDEP change the taint of a register and nothing else of it (R118). -/
def taintOnly : Instr → Bool
  | .tclr _ _ _ _ | .tdep _ _ _ _ _ => true
  | _ => false

/-- What the issue of a fetched instruction rests on: its encoded guard and length, and the registers above. -/
def issueOf (s : State) (i : Instr) : Option Issue :=
  (fieldsOf i).map fun f =>
    { gd := f.gd, len := lenBytes f.len, reads := readsOf s i, writes := writesOf s i, traps := trapsOf i, limit := limitOf i,
      ctl := controls i, touch := taintOnly i }

/-- Some register of a list, the guard or the control taint carries taint: the engines and messages wait for it to clear (R246). -/
def tainted (s : State) (i : Instr) : Bool :=
  match fieldsOf i with
  | none => false
  | some f => decide (s.cs.taints (.p f.gd.p :: readsOf s i) ||| s.cs.ctaint ≠ 0)

/-- A full hold queue that a global access must enter (R28): it is tainted, stands behind a release update (R199) or is one. -/
def holdWaits (s : State) (i : Instr) (scope : BitVec 3) : Bool :=
  decide (8 ≤ s.cs.hold.length) && (tainted s i || s.cs.hold.any Held.isRelease || decide (scope ≠ 0))

/-- The wait of its own that an instruction has at issue: a free load tag (R23), room in the hold queue (R28), the end of a store's data
taint (R206 to R208), no busy tag of a mask (R118), a quiet slot (R204, R315, R317), an unlocked tile or an idle ring (R95), a message or
room for one, or no taint at all (R246); a sync word that is complete (R209), an entry of the core's queue (R241, R244, R294), the governor's
limit (R243), a slot of the ring (R235), nothing at work in the groups of a mask (R255), a free sequencer (R258), a barrier's arrival or its
release (R265). -/
def waitsAt (s : State) (i : Instr) : Bool :=
  let noTag := (List.range 8).all fun t => (Sparse.find s.cs.tags t).isSome
  let dirty (r : RegId) : Bool := decide ((s.cs.mark r).taint ≠ 0)
  match i with
  | .twait _ mask => decide (s.cs.busyTags &&& mask ≠ 0)
  | .wrs _ _ _ a | .tilecfg _ a => dirty (.g a)
  | .ld _ _ d _ | .ldro _ _ d _ => decide (d ≠ 0) && (noTag || holdWaits s i 0)
  | .ldx _ _ _ _ | .ldv _ _ _ _ | .ldvGather _ _ _ _ _ _ | .atom _ _ _ _ _ _ | .cas _ _ _ _ _ _ _ => noTag || holdWaits s i 0
  | .upd _ _ t _ _ | .updx _ _ t _ _ | .updv _ _ t _ _ | .updvScatter _ _ t _ _ _ _ => holdWaits s i t.scope
  | .tdget _ _ _ _ => holdWaits s i 0
  | .tupd _ _ t _ ta => s.tileLocked ta.toNat || holdWaits s i t.scope
  | .ringcfg _ q _ _ | .ringdrop _ q _ => s.ringBusy q.toNat
  | .tzero _ ta | .tsts _ _ _ ta => s.tileLocked ta.toNat
  | .tilerel _ => s.block.tiles.any fun n => decide (((s.core s.cc).tile n).busy ≠ 0)
  | .sts _ _ d _ | .std _ _ d _ => dirty (.g d)
  | .stsv _ d _ => dirty (.v d)
  | .syncinit _ _ _ b | .syncadd _ _ _ b => dirty (.g b)
  | .inval _ _ _ _ => decide (s.cs.tags ≠ [])
  | .exit _ => decide (s.cs.tags ≠ [] ∨ s.cs.hold ≠ [])
  | .chkpt _ a => decide (s.cs.tags ≠ [] ∨ s.cs.hold ≠ []) || dirty (.g a)
  | .cpystat _ _ _ | .cpyres _ _ | .bsres _ | .bsstat _ _ | .barcfg _ _ _ | .hubcall _ _ _ _ => tainted s i
  | .syncwait _ a disp => s.syncPending (s.baseDisp a disp)
  | .mma _ _ _ _ => !s.mxRoom || !(s.core s.cc).mayIssue
  | .tcvt _ q _ => !s.mxRoom || s.ringFull q.toNat
  | .dsmode _ _ a => tainted s i || (decide (maskGroups (s.g a) ≠ []) && s.dsBusy s.cc (maskGroups (s.g a)))
  | .bsrun _ _ _ => tainted s i || s.bsrunWaits
  | .bararr _ bb => tainted s i || s.barFull bb
  | .barwait _ bb => tainted s i || s.barHolds bb
  | .send _ _ _ _ _ => tainted s i || !s.outRoom
  | .inpop _ _ => tainted s i || decide (s.cs.inbox = [])
  | .gqtake _ _ => tainted s i || s.gqEmpty
  | .gqput _ _ => tainted s i || s.gqNoRoom
  | _ => false

/-- The machine after a turn that an instruction loses to its own wait: that of a full queue notes since when the slot waits (R294), and one that an
MMA loses to the governor is counted (R243). -/
def lostAt (s : State) : Instr → State
  | .mma _ _ _ _ => s.mmaLost
  | .tcvt _ _ _ => if !s.mxRoom then s.mxWait else s.mxUnwait
  | _ => s

/-- The machine after an instruction whose guard is false (R93): nothing but taint, and the slot goes on after it. -/
def skipped (s : State) (f : Issue) : State :=
  let t := guardTaint s f
  let x := s.cs.joinTaint t f.writes
  s.setCs ((if f.ctl then { x with ctaint := x.ctaint ||| t } else x).advance f.len)

/-- A fetched instruction that nothing stops and that has nothing to wait for. -/
def Runs (s : State) (i : Instr) (f : Issue) : Prop := issueOf s i = some f ∧ Ready s f ∧ waitsAt s i = false

-- Drain as R177 writes it, whose steps a pass takes one after another

/-- Some records of a level moved out one after another, marked with who moved them. -/
def moveAll (s : State) (l : LevelId) (who : List Nat) : List Rec → Option State
  | [] => some s
  | r :: rs =>
    match s.moveOut l { r with movers := (r.movers ++ who).eraseDups } with
    | none => none
    | some t => moveAll t l who rs

/-- `Drain` over some levels, innermost first (R177); none where it must wait: a pass runs there, or there is no room. -/
def drainLevels (s : State) (n : BitVec 6) (rg : KeyRange) (who : List Nat) : List LevelId → Option State
  | [] => some s
  | l :: ls =>
    if (s.run l).pass.isSome then none
    else
      match moveAll s l who ((s.run l).recs.filter fun r => decide (r.ctx = n) && inRange rg r.key) with
      | none => none
      | some t => drainLevels t n rg who ls

/-- `Drain(ctx, path, upto, range)` (R177). -/
def drain (s : State) (c : CoreId) (n : BitVec 6) (scope : BitVec 3) (rg : KeyRange) (who : List Nat) : Option State :=
  drainLevels s n rg who (inside c scope)



end Sys2Proof.Claims
end

