-- ==== Sys2Proof/Certificates/Slice0/Obligations.lean ====
section
/-! DEFINITION. The statements for the provers: what the instructions and the machine's other steps do, in the terms of the spec's
rules. `Claims` holds the vocabulary and the tables that name which instructions a statement is about. -/

open Sys2Proof Sys2Proof.Machine Sys2Proof.Claims

namespace Sys2Proof.Claims

-- integers (R109 to R113)

/-- A value of the operation's width, sign-extended (R92, R109). -/
def wide {w : Nat} (r : BitVec w) : Word := r.signExtend 64

/-- An operation of width 32 (`S` = 1) or 64 on the low bits of its operands. -/
def atWidth (n : Bool) (f : (w : Nat) → BitVec w → BitVec w → BitVec w) (a b : Word) : Word :=
  if n then wide (f 32 (a.setWidth 32) (b.setWidth 32)) else f 64 a b

/-- The operations of R109 and the multiplications of R110. -/
inductive Two where
  | add | sub | mul | and | or | xor | andn | orn | shl | shr | sra | rol | min | max | minn | maxn | mulh | mulhn
  deriving DecidableEq, Repr

/-- Their results, at any width. -/
def Two.res (o : Two) (w : Nat) (a b : BitVec w) : BitVec w :=
  match o with
  | .add => BitVec.ofInt w (a.toInt + b.toInt)
  | .sub => BitVec.ofInt w (a.toInt - b.toInt)
  | .mul => BitVec.ofInt w (a.toInt * b.toInt)
  | .and => a &&& b
  | .or => a ||| b
  | .xor => a ^^^ b
  | .andn => a &&& ~~~b
  | .orn => a ||| ~~~b
  | .shl => a <<< (b.toNat % w)
  | .shr => a >>> (b.toNat % w)
  | .sra => a.sshiftRight (b.toNat % w)
  | .rol => a.rotateLeft (b.toNat % w)
  | .min => if a.toInt ≤ b.toInt then a else b
  | .max => if a.toInt ≤ b.toInt then b else a
  | .minn => if a.toNat ≤ b.toNat then a else b
  | .maxn => if a.toNat ≤ b.toNat then b else a
  | .mulh => BitVec.ofInt w (a.toInt * b.toInt / 2 ^ w)
  | .mulhn => BitVec.ofNat w (a.toNat * b.toNat / 2 ^ w)

/-- An instruction with a destination, a register operand and an operand B (R109, R110). -/
structure TwoForm where
  op : Two
  n  : Bool
  d  : GIx
  a  : GIx
  b  : OpB
  deriving DecidableEq, Repr

/-- The two-operand instructions, with their immediates as R91 reads them. -/
def twoForm : Instr → Option TwoForm
  | .addReg _ n d a b => some ⟨.add, n, d, a, .reg b⟩
  | .addImm _ n d a v => some ⟨.add, n, d, a, .lit (v.signExtend 64)⟩
  | .addLit _ n d a w => some ⟨.add, n, d, a, .lit w⟩
  | .subReg _ n d a b => some ⟨.sub, n, d, a, .reg b⟩
  | .subImm _ n d a v => some ⟨.sub, n, d, a, .lit (v.signExtend 64)⟩
  | .subLit _ n d a w => some ⟨.sub, n, d, a, .lit w⟩
  | .mulReg _ n d a b => some ⟨.mul, n, d, a, .reg b⟩
  | .mulImm _ n d a v => some ⟨.mul, n, d, a, .lit (v.signExtend 64)⟩
  | .mulLit _ n d a w => some ⟨.mul, n, d, a, .lit w⟩
  | .andReg _ n d a b => some ⟨.and, n, d, a, .reg b⟩
  | .andImm _ n d a v => some ⟨.and, n, d, a, .lit (v.signExtend 64)⟩
  | .andLit _ n d a w => some ⟨.and, n, d, a, .lit w⟩
  | .orReg _ n d a b => some ⟨.or, n, d, a, .reg b⟩
  | .orImm _ n d a v => some ⟨.or, n, d, a, .lit (v.signExtend 64)⟩
  | .orLit _ n d a w => some ⟨.or, n, d, a, .lit w⟩
  | .xorReg _ n d a b => some ⟨.xor, n, d, a, .reg b⟩
  | .xorImm _ n d a v => some ⟨.xor, n, d, a, .lit (v.signExtend 64)⟩
  | .xorLit _ n d a w => some ⟨.xor, n, d, a, .lit w⟩
  | .shlReg _ n d a b => some ⟨.shl, n, d, a, .reg b⟩
  | .shlImm _ n d a v => some ⟨.shl, n, d, a, .lit (v.setWidth 64)⟩
  | .shlLit _ n d a w => some ⟨.shl, n, d, a, .lit w⟩
  | .shrReg _ n d a b => some ⟨.shr, n, d, a, .reg b⟩
  | .shrImm _ n d a v => some ⟨.shr, n, d, a, .lit (v.setWidth 64)⟩
  | .shrLit _ n d a w => some ⟨.shr, n, d, a, .lit w⟩
  | .sraReg _ n d a b => some ⟨.sra, n, d, a, .reg b⟩
  | .sraImm _ n d a v => some ⟨.sra, n, d, a, .lit (v.setWidth 64)⟩
  | .sraLit _ n d a w => some ⟨.sra, n, d, a, .lit w⟩
  | .rolReg _ n d a b => some ⟨.rol, n, d, a, .reg b⟩
  | .rolImm _ n d a v => some ⟨.rol, n, d, a, .lit (v.setWidth 64)⟩
  | .rolLit _ n d a w => some ⟨.rol, n, d, a, .lit w⟩
  | .minReg _ n d a b => some ⟨.min, n, d, a, .reg b⟩
  | .minImm _ n d a v => some ⟨.min, n, d, a, .lit (v.signExtend 64)⟩
  | .minLit _ n d a w => some ⟨.min, n, d, a, .lit w⟩
  | .maxReg _ n d a b => some ⟨.max, n, d, a, .reg b⟩
  | .maxImm _ n d a v => some ⟨.max, n, d, a, .lit (v.signExtend 64)⟩
  | .maxLit _ n d a w => some ⟨.max, n, d, a, .lit w⟩
  | .minnReg _ n d a b => some ⟨.minn, n, d, a, .reg b⟩
  | .minnLit _ n d a w => some ⟨.minn, n, d, a, .lit w⟩
  | .maxnReg _ n d a b => some ⟨.maxn, n, d, a, .reg b⟩
  | .maxnLit _ n d a w => some ⟨.maxn, n, d, a, .lit w⟩
  | .andnReg _ n d a b => some ⟨.andn, n, d, a, .reg b⟩
  | .andnLit _ n d a w => some ⟨.andn, n, d, a, .lit w⟩
  | .ornReg _ n d a b => some ⟨.orn, n, d, a, .reg b⟩
  | .ornLit _ n d a w => some ⟨.orn, n, d, a, .lit w⟩
  | .mulh _ n d a b => some ⟨.mulh, n, d, a, b⟩
  | .mulhn _ n d a b => some ⟨.mulhn, n, d, a, b⟩
  | _ => none

end Sys2Proof.Claims

/-- An instruction of `twoForm` (every form of ADD, SUB, MUL, AND, OR, XOR, SHL, SHR, SRA, ROL, MIN, MAX, MINN, MAXN, ANDN, ORN, and
with R110's products MULH and MULHN) that `Runs` answers a next state: it takes the low w bits of gA and of operand B, writes
the operation's result modulo 2^w, sign-extended, to gD, with the taint and poison of what it read, and the slot goes on after it.
Nothing else changes. -/
def Obligations.TwoOperandIntegerResults : Prop :=
  ∀ (i : Instr) (f : Issue) (x : TwoForm) (s : State), twoForm i = some x → Runs s i f →
    exec i s = .next (toG s f x.d (atWidth x.n x.op.res (s.g x.a) (s.opB x.b)))

namespace Sys2Proof.Claims

/-- Quotients and remainders (R110); `nat` for the natural forms. -/
inductive Quo where
  | div | divn | rem | remn
  deriving DecidableEq, Repr

def Quo.res (o : Quo) (w : Nat) (a b : BitVec w) : BitVec w :=
  match o with
  | .div => if b = 0 then BitVec.allOnes w else if b = BitVec.allOnes w then -a else BitVec.ofInt w (Int.tdiv a.toInt b.toInt)
  | .divn => if b = 0 then BitVec.allOnes w else BitVec.ofNat w (a.toNat / b.toNat)
  | .rem => if b = 0 then a else if b = BitVec.allOnes w then 0 else BitVec.ofInt w (a.toInt - b.toInt * Int.tdiv a.toInt b.toInt)
  | .remn => if b = 0 then a else BitVec.ofNat w (a.toNat - b.toNat * (a.toNat / b.toNat))

/-- DIV, DIVN, REM and REMN with their operands. -/
def quoForm : Instr → Option (Quo × Bool × GIx × GIx × OpB)
  | .div _ n d a b => some (.div, n, d, a, b)
  | .divn _ n d a b => some (.divn, n, d, a, b)
  | .rem _ n d a b => some (.rem, n, d, a, b)
  | .remn _ n d a b => some (.remn, n, d, a, b)
  | _ => none

end Sys2Proof.Claims

/-- DIV, DIVN, REM and REMN, where they run, answer a next state in which gD is pending and the result is to arrive 4 rotations later at 64
bits and 2 at 32. The quotient is rounded toward zero; by 0 it is all ones and the remainder is the dividend; the most negative
value by −1 gives itself, with remainder 0. None of them traps. -/
def Sys2Proof.Claims.DivisionResults : Prop :=
  ∀ (i : Instr) (f : Issue) (o : Quo) (n : Bool) (d a : GIx) (b : OpB) (s : State), quoForm i = some (o, n, d, a, b) →
    Runs s i f →
    exec i s = .next (toLong s f d (atWidth n o.res (s.g a) (s.opB b)) (if n then 2 else 4))

namespace Sys2Proof.Claims

-- R111

inductive One where
  | clz | ctz | popc | brev | bswap | abs
  deriving DecidableEq, Repr

/-- `r` is what R111 gives for `a`. -/
def One.holds (o : One) {w : Nat} (a r : BitVec w) : Prop :=
  match o with
  | .clz => r = BitVec.ofNat w (((List.range w).reverse.takeWhile fun i => !a.getLsbD i).length)
  | .ctz => r = BitVec.ofNat w (((List.range w).takeWhile fun i => !a.getLsbD i).length)
  | .popc => r = BitVec.ofNat w (((List.range w).filter fun i => a.getLsbD i).length)
  | .brev => ∀ i, i < w → r.getLsbD i = a.getLsbD (w - 1 - i)
  | .bswap => ∀ i, i < w / 8 → r.extractLsb' (8 * i) 8 = a.extractLsb' (8 * (w / 8 - 1 - i)) 8
  | .abs => r = if a = BitVec.intMin w then a else BitVec.ofInt w a.toInt.natAbs

def oneForm : Instr → Option (One × Bool × GIx × GIx)
  | .clz _ n d a => some (.clz, n, d, a)
  | .ctz _ n d a => some (.ctz, n, d, a)
  | .popc _ n d a => some (.popc, n, d, a)
  | .brev _ n d a => some (.brev, n, d, a)
  | .bswap _ n d a => some (.bswap, n, d, a)
  | .abs _ n d a => some (.abs, n, d, a)
  | _ => none

end Sys2Proof.Claims

/-- Each one-operand bit instruction, where it runs, answers a next state in which gD holds the sign-extended w-bit value that R111 gives
for the low w bits of gA, and nothing else changes. -/
def Obligations.BitInstructionResults : Prop :=
  ∀ (i : Instr) (f : Issue) (o : One) (n : Bool) (d a : GIx) (s : State), oneForm i = some (o, n, d, a) → Runs s i f →
    (n = false → ∃ r : BitVec 64, o.holds (s.g a) r ∧ exec i s = .next (toG s f d r)) ∧
    (n = true → ∃ r : BitVec 32, o.holds ((s.g a).setWidth 32) r ∧ exec i s = .next (toG s f d (wide r)))

namespace Sys2Proof.Claims

-- R112

/-- The result at the operation's width. -/
def narrow (n : Bool) (r : Word) : Word := if n then wide (r.setWidth 32) else r

/-- BFX, BFXS, BFI: the width, the destination, the source, `POS` and `WM1`. -/
def fieldForm : Instr → Option (Bool × GIx × GIx × BitVec 6 × BitVec 6)
  | .bfx _ n d a p w => some (n, d, a, p, w)
  | .bfxs _ n d a p w => some (n, d, a, p, w)
  | .bfi _ n d a p w => some (n, d, a, p, w)
  | _ => none

/-- Bit `k` of the result before it is narrowed. -/
def fieldBit (i : Instr) (d a : Word) (p w k : Nat) : Bool :=
  match i with
  | .bfx _ _ _ _ _ _ => decide (k ≤ w) && a.getLsbD (p + k)
  | .bfxs _ _ _ _ _ _ => a.getLsbD (p + min k w)
  | _ => if p ≤ k ∧ k ≤ p + w then a.getLsbD (k - p) else d.getLsbD k

end Sys2Proof.Claims

/-- BFX, BFXS and BFI, where they run: with hi = `POS` + `WM1` at most 63 (31 under `S` = 1) the instruction answers a next state in which
gD holds the field of gA zero-extended, sign-extended from its top bit, or gD with the field replaced by the low bits of gA;
with a larger hi it traps with illegal operand. -/
def Sys2Proof.Claims.BitFieldResults : Prop :=
  ∀ (i : Instr) (f : Issue) (n : Bool) (d a : GIx) (p w : BitVec 6) (s : State),
    fieldForm i = some (n, d, a, p, w) → Runs s i f →
    (p.toNat + w.toNat ≤ (if n then 31 else 63) →
      ∃ r : Word, (∀ k, k < 64 → r.getLsbD k = fieldBit i (s.g d) (s.g a) p.toNat w.toNat k) ∧
        exec i s = .next (toG s f d (narrow n r))) ∧
    ((if n then 31 else 63) < p.toNat + w.toNat → exec i s = .next (s.trapHere causeOperand 0))

namespace Sys2Proof.Claims

/-- SEL, LEA and MAD: the width, the destination, and the result before it is narrowed. -/
def pickForm (s : State) : Instr → Option (Bool × GIx × Word)
  | .sel _ n d q a b => some (n, d, if s.cs.readP q then s.g a else s.opB b)
  | .lea _ n d a b o => some (n, d, BitVec.ofInt 64 ((s.g a).toInt + (s.opB b).toInt + o.toInt))
  | .leaPcr _ n d b o => some (n, d, BitVec.ofInt 64 (s.cs.pc.toNat + (s.opB b).toInt + o.toInt))
  | .mad _ n d a b c => some (n, d, BitVec.ofInt 64 ((s.g a).toInt * (s.opB b).toInt + (s.g c).toInt))
  | _ => none

end Sys2Proof.Claims

/-- SEL, LEA with a base register, LEA with the instruction's own address, and MAD, where they run, answer a next state with the result of
R112 or R110 in gD, cut to 32 bits and sign-extended under `S` = 1. SEL's predicate is read as data: its taint and poison go into
the result. -/
def Sys2Proof.Claims.SelectAddressAndMultiplyAdd : Prop :=
  ∀ (i : Instr) (f : Issue) (n : Bool) (d : GIx) (r : Word) (s : State), pickForm s i = some (n, d, r) → Runs s i f →
    exec i s = .next (toG s f d (narrow n r))

namespace Sys2Proof.Claims

-- R101, R113

/-- A condition code on numbers (R101). -/
def condition (cc : Nat) (x y : Int) : Bool :=
  match cc with
  | 0 => decide (x = y)
  | 1 => decide (x ≠ y)
  | 2 => decide (x < y)
  | 3 => decide (x ≤ y)
  | 4 => decide (x > y)
  | _ => decide (x ≥ y)

/-- CMP: width, condition, destination, operands, signed or natural. -/
def cmpForm : Instr → Option (Bool × BitVec 3 × PIx × GIx × OpB × Bool)
  | .cmpSignedReg _ n cc q a b => some (n, cc, q, a, .reg b, true)
  | .cmpSignedImm _ n cc q a v => some (n, cc, q, a, .lit (v.signExtend 64), true)
  | .cmpSignedLit _ n cc q a w => some (n, cc, q, a, .lit w, true)
  | .cmpNaturalReg _ n cc q a b => some (n, cc, q, a, .reg b, false)
  | .cmpNaturalImm _ n cc q a v => some (n, cc, q, a, .lit (v.setWidth 64), false)
  | .cmpNaturalLit _ n cc q a w => some (n, cc, q, a, .lit w, false)
  | _ => none

/-- An operand of a compare as a number. -/
def cmpNum (n signed : Bool) (v : Word) : Int :=
  match n, signed with
  | true, true => (v.setWidth 32).toInt
  | true, false => (v.setWidth 32).toNat
  | false, true => v.toInt
  | false, false => v.toNat

/-- PAND, POR, PXOR, PMOV: complement, destination, and the operation's value. -/
def predForm (x : Slot) : Instr → Option (Bool × PIx × Bool)
  | .pand _ n d a b => some (n, d, x.readP a && x.readP b)
  | .por _ n d a b => some (n, d, x.readP a || x.readP b)
  | .pxor _ n d a b => some (n, d, x.readP a != x.readP b)
  | .pmov _ n d a => some (n, d, x.readP a)
  | _ => none

end Sys2Proof.Claims

/-- CMP in its six forms, where it runs, answers a next state in which pD is the truth of the condition on gA and operand B, read at w bits
as signed or natural numbers; PAND, POR, PXOR and PMOV, where they run, write the operation on the predicates, complemented under
`S` = 1. A write to p0 is discarded, and nothing else changes. -/
def Sys2Proof.Claims.CompareAndPredicateResults : Prop :=
  (∀ (i : Instr) (f : Issue) (n : Bool) (cc : BitVec 3) (q : PIx) (a : GIx) (b : OpB) (sg : Bool) (s : State),
    cmpForm i = some (n, cc, q, a, b, sg) → Runs s i f →
    exec i s = .next (toP s f q (condition cc.toNat (cmpNum n sg (s.g a)) (cmpNum n sg (s.opB b))))) ∧
  (∀ (i : Instr) (f : Issue) (n : Bool) (d : PIx) (v : Bool) (s : State), predForm s.cs i = some (n, d, v) → Runs s i f →
    exec i s = .next (toP s f d (v != n)))

/-- For every fetched instruction (all 234), with its guard and length as encoded and the registers of `issueOf`: while a register
that it names is pending it loses the turn (R8). Otherwise, in this order: a poisoned guard traps with poison consumed, or with
illegal operand where a register-number rule is broken; a false guard ends it (its own waits do not count), with the guard's taint
joined into its destinations and, for one that chooses the pc, into the control taint; it loses the turn while it waits for the inbox,
for the outbound queue or for a condition of its own (`waitsAt`; `lostAt` says what that leaves, for MMA and TCVT the moment since
which the slot waits and the governor's count); a broken register-number rule traps with illegal operand; a poisoned
operand in a trapping role traps with poison consumed; a write of g61 that sends (TCLR and TDEP send nothing) to a bad destination
traps. -/
def Obligations.IssueChecksOfEveryInstruction : Prop :=
  ∀ (i : Instr) (f : Issue) (s : State), issueOf s i = some f →
    let x := s.cs
    let gp : RegId := .p f.gd.p
    (x.anyPend (gp :: (f.reads ++ f.writes)) = true → exec i s = .next s) ∧
    (x.anyPend (gp :: (f.reads ++ f.writes)) = false →
      ((x.mark gp).pois = true → exec i s = .next (s.trapHere (if f.bad then causeOperand else causePoison) 0)) ∧
      ((x.mark gp).pois = false → x.guard f.gd = false → f.bad = true → exec i s = .next (s.trapHere causeOperand 0)) ∧
      ((x.mark gp).pois = false → x.guard f.gd = false → f.bad = false → exec i s = .next (skipped s f)) ∧
      ((x.mark gp).pois = false → x.guard f.gd = true →
        (s.regWait f = true → exec i s = .next s) ∧
        (s.regWait f = false → waitsAt s i = true → exec i s = .next (lostAt s i)) ∧
        (s.regWait f = false → waitsAt s i = false →
          (f.bad = true → exec i s = .next (s.trapHere causeOperand 0)) ∧
          (f.bad = false → x.anyPois f.traps = true → exec i s = .next (s.trapHere causePoison 0)) ∧
          (f.bad = false → x.anyPois f.traps = false → f.sends = true → s.badDest = true →
            exec i s = .next (s.trapHere causeBadDest 0)))))

namespace Sys2Proof.Claims

-- branches (R27, R114)

/-- A mask joined into the control taint (R27). -/
def withCtaint (s : State) (t : Byte) : State := s.setCs { s.cs with ctaint := s.cs.ctaint ||| t }
/-- The link of a call in g59, with the guard's taint alone (R114). -/
def linked (s : State) (f : Issue) : State :=
  s.putG 59 ((s.cs.pc + BitVec.ofNat 48 f.len).setWidth 64) (guardTaint s f) false

/-- BRA, CALL and BTAG: the byte offset from the instruction, whether they link, whether the branch is taken. -/
def relForm (s : State) : Instr → Option (Int × Bool × Bool)
  | .bra _ b a d => some (4 * (b ++ a ++ d).toInt, false, true)
  | .call _ b a d => some (4 * (b ++ a ++ d).toInt, true, true)
  | .btag _ tag o => some (o.toInt, false, decide (s.cs.inbox.head?.map InMsg.tag = some tag))
  | _ => none
/-- BRX, CALLX and RET: the register of the target, and whether they link. -/
def regForm : Instr → Option (GIx × Bool)
  | .brx _ a => some (a, false)
  | .callx _ a => some (a, true)
  | .ret _ => some (59, false)
  | _ => none

end Sys2Proof.Claims

/-- BRA, CALL and BTAG, where they run: the taint of the guard joins the control taint; a taken one (always but for BTAG, which is
taken when the head message of the inbox has its tag) goes to its own address plus the offset, CALL with the next address in g59; a
BTAG not taken goes on. BRX, CALLX and RET go to the address in gA or g59, read before the link is written, with its taint in the
control taint; a target with a bit of 1:0 set traps with misaligned, one with a bit of 63:48 set with not present, the target in
TRAPADDR. -/
def Sys2Proof.Claims.BranchTargetsAndLinks : Prop :=
  (∀ (i : Instr) (f : Issue) (s : State) (off : Int) (link taken : Bool), relForm s i = some (off, link, taken) → Runs s i f →
    let t := withCtaint s (taintIn s f)
    exec i s = .next (if taken then jumped f (if link then linked t f else t) (BitVec.ofInt 48 (s.cs.pc.toNat + off))
      else finish f t)) ∧
  (∀ (i : Instr) (f : Issue) (s : State) (a : GIx) (link : Bool), regForm i = some (a, link) → Runs s i f →
    let t := withCtaint s (taintIn s f)
    ((s.g a).toNat % 4 = 0 → (s.g a).toNat < 2 ^ 48 →
      exec i s = .next (jumped f (if link then linked t f else t) (BitVec.ofNat 48 (s.g a).toNat))) ∧
    ((s.g a).toNat % 4 ≠ 0 → exec i s = .next (s.trapHere causeMisaligned (s.g a))) ∧
    ((s.g a).toNat % 4 = 0 → 2 ^ 48 ≤ (s.g a).toNat → exec i s = .next (s.trapHere causeNotPresent (s.g a))))

namespace Sys2Proof.Claims

-- loops (R115 to R117)

/-- LOOP's count and the end address of its body. -/
def loopForm (s : State) : Instr → Option (Nat × BitVec 48)
  | .loopImm _ n e => some (n.toNat, s.cs.pc + 12 + BitVec.ofNat 48 (4 * e.toNat))
  | .loopReg _ a e => some ((s.g a).toNat % 2 ^ 32, s.cs.pc + 12 + BitVec.ofNat 48 (4 * e.toNat))
  | _ => none

/-- The innermost loop ends at the current instruction. -/
def endsHere (x : Slot) : Bool := x.loops.head?.any fun e => decide (e.fin = x.pc)

end Sys2Proof.Claims

/-- LOOP, where it runs: at the end address of the innermost entry, or with a nonzero count and four entries, it traps with loop stack
overflow; with a nonzero count and room it pushes (start, end, count), start being the address after it, and goes to start; with a
zero count whose end address translates it goes past the instruction there, by the length of that instruction's first word, and a
fault of that fetch is taken with TRAPPC the end address. LEXIT pops the innermost entry and goes on; with no entry it traps. -/
def Obligations.LoopStackRules : Prop :=
  (∀ (i : Instr) (f : Issue) (s : State) (n : Nat) (fin : BitVec 48), loopForm s i = some (n, fin) → Runs s i f →
    let t := withCtaint s (taintIn s f)
    (endsHere s.cs = true → exec i s = .next (s.trapHere causeLoop 0)) ∧
    (endsHere s.cs = false → n ≠ 0 → s.cs.loops.length = 4 → exec i s = .next (s.trapHere causeLoop 0)) ∧
    (endsHere s.cs = false → n ≠ 0 → s.cs.loops.length ≠ 4 →
      exec i s = .next (jumped f (t.setCs { t.cs with loops := ⟨s.cs.pc + 12, fin, BitVec.ofNat 32 n⟩ :: t.cs.loops }) (s.cs.pc + 12))) ∧
    (endsHere s.cs = false → n = 0 → ∀ pa, s.tr (fin.setWidth 64) needX = .ok pa →
      exec i s = .next (jumped f t (fin + BitVec.ofNat 48
        (if s.readBase pa 4 % 4 = 0 then 4 else if s.readBase pa 4 % 4 = 3 then 20 else 12)))) ∧
    (endsHere s.cs = false → n = 0 → ∀ u cause, s.tr (fin.setWidth 64) needX = .fault u cause →
      exec i s = .next (u.deliverFault u.cur.1 u.cur.2 cause (fin.setWidth 64) 3 fin)) ∧
    (endsHere s.cs = false → n = 0 → ∀ u, s.tr (fin.setWidth 64) needX = .miss u → exec i s = .next u)) ∧
  (∀ (gd : Guard) (f : Issue) (s : State), Runs s (.lexit gd) f →
    (s.cs.loops = [] → exec (.lexit gd) s = .next (s.trapHere causeLoop 0)) ∧
    (∀ e r, s.cs.loops = e :: r →
      exec (.lexit gd) s = .next (finish f ((withCtaint s (taintIn s f)).setCs { (withCtaint s (taintIn s f)).cs with loops := r }))))

/-- A slot that goes on after an instruction of some length at its pc: with no loop, or an innermost loop that does not end there, it
goes to the next address; where the innermost loop ends there with a count other than 1, the count falls by one and the slot goes to
the loop's start; with a count of 1 the entry is popped and the test goes on with the entries that are left, to the address that they
give. Nothing else of the slot changes. -/
def Sys2Proof.Claims.EndOfBodyTest : Prop :=
  ∀ (x : Slot) (len : Nat),
    (x.loops = [] → x.advance len = { x with pc := x.pc + BitVec.ofNat 48 len }) ∧
    (∀ e r, x.loops = e :: r →
      (e.fin ≠ x.pc → x.advance len = { x with pc := x.pc + BitVec.ofNat 48 len }) ∧
      (e.fin = x.pc → e.count ≠ 1 → x.advance len = { x with pc := e.start, loops := { e with count := e.count - 1 } :: r }) ∧
      (e.fin = x.pc → e.count = 1 → x.advance len = { x with loops := r }.advance len))

namespace Sys2Proof.Claims

-- taint instructions (R118, R119)

/-- The taint that TDEP and TGET read of `y`; for TGET g0 stands for the control taint. -/
def taintOf (x : Slot) (r : RegId) : Byte := (x.mark r).taint
/-- A register's taint replaced; g0, where it names the control taint, is that one. -/
def withTaint (s : State) (r : RegId) (t : Byte) : State :=
  if r = .g 0 then s.setCs { s.cs with ctaint := t } else s.setCs (s.cs.setTaint t r)
/-- The taint of a register in the D position. -/
def taintAt (s : State) (r : RegId) : Byte := if r = .g 0 then s.cs.ctaint else taintOf s.cs r

/-- TCLR, TDEP: the register, and its new taint. -/
def taintForm (s : State) : Instr → Option (RegId × Byte)
  | .tclr _ dc d mask => some (regOf dc d, taintAt s (regOf dc d) &&& ~~~mask)
  | .tdep _ dc d ac a => some (regOf dc d, taintAt s (regOf dc d) ||| taintOf s.cs (regOf ac a))
  | _ => none

end Sys2Proof.Claims

/-- TCLR and TDEP, where they run, change the taint of x alone, but that TDEP with y = g60, as every instruction that reads g60, waits for
the inbox and dequeues its head word (the model's choice, log 70: R118 names no exception from R12, and no dequeue either): they clear the
mask's bits or join y's taint; g0 as x is the control taint, and TDEP or TCLR on p0 or m0 changes nothing. TWAIT waits while a busy tag is in its mask, and then does nothing but go on.
TGET writes the poison of y, the busy tags and the taint of y (the control taint for g0) to gD, with the guard's taint alone. -/
def Obligations.TaintInstructionEffects : Prop :=
  (∀ (i : Instr) (f : Issue) (s : State) (r : RegId) (t : Byte), taintForm s i = some (r, t) → Runs s i f →
    exec i s = .next (finish f (withTaint s r t))) ∧
  (∀ (gd : Guard) (mask : Byte) (f : Issue) (s : State), issueOf s (.twait gd mask) = some f → Ready s f →
    exec (.twait gd mask) s = .next (if s.cs.busyTags &&& mask = 0 then finish f s else s)) ∧
  (∀ (gd : Guard) (d : GIx) (ac : BitVec 2) (a : BitVec 6) (f : Issue) (s : State), Runs s (.tget gd d ac a) f →
    exec (.tget gd d ac a) s = .next (finish f (s.putG d
      (BitVec.ofNat 64 (65536 * (if (s.cs.mark (regOf ac a)).pois then 1 else 0) + 256 * s.cs.busyTags.toNat
        + (taintAt s (regOf ac a)).toNat)) (guardTaint s f) false)))

/-- In every state g0 reads as 0, p0 as true and m0 as all ones, each with no taint and no poison; a write to p0 or m0 leaves the slot as
it was, and so does one to g0, but that it ends the pending mark that a long instruction or a load may have set there (log 68); g60 reads the first word of the inbox's head message with that word's poison and no taint, g62 its tag; a write to g61
adds one message of that one word, tag 0, to the core's outbound queue, addressed as MDEST says, and changes no register's value: all
it does to the slot is to end g61's pending mark, if a long instruction had set it. -/
def Obligations.HardwiredAndMessageRegisters : Prop :=
  ∀ (s : State) (x : Slot),
    (x.readG 0 = 0 ∧ x.readP 0 = true ∧ x.readM 0 = BitVec.allOnes 32) ∧
    (∀ r ∈ [RegId.g 0, .p 0, .m 0], (x.mark r).taint = 0 ∧ (x.mark r).pois = false) ∧
    (∀ (r : Reg 64) (b : Reg 1) (m : Reg 32), x.writeG 0 r = x.setPend r.pend (.g 0) ∧ x.writeP 0 b = x ∧ x.writeM 0 m = x) ∧
    (∀ (p : Bool), (x.setPend p (.g 0)).readG 0 = 0 ∧ ∀ r, r ≠ .g 0 → (x.setPend p (.g 0)).mark r = x.mark r) ∧
    (∀ (m : InMsg) (w : MsgWord) (ms : List InMsg) (ws : List MsgWord), x.inbox = m :: ms → m.words = w :: ws →
      x.readG 60 = w.val ∧ (x.mark (.g 60)).taint = 0 ∧ (x.mark (.g 60)).pois = w.pois ∧ x.readG 62 = m.tag.setWidth 64) ∧
    (∀ (v : Word) (t : Byte) (po : Bool), ∃ m : Msg, m.words = [⟨v, po⟩] ∧ m.tag = 0 ∧ m.src = s.cc ∧ m.sslot = s.cur.2 ∧
      m.ddie = s.cs.mdest.extractLsb' 30 3 ∧ m.dcore = s.cs.mdest.extractLsb' 20 10 ∧ m.dslot = s.cs.mdest.extractLsb' 16 4 ∧
      m.gen = s.cs.mdest.extractLsb' 0 16 ∧
      (s.putG 61 v t po).cs = s.cs.setPend false (.g 61) ∧
      (s.putG 61 v t po).core s.cc =
        { (s.setCs (s.cs.setPend false (.g 61))).core s.cc with outq := (s.core s.cc).outq ++ [m] })

namespace Sys2Proof.Claims

-- rounding (R48)

def isFinite : XVal → Bool
  | .num _ _ _ _ => true
  | .nan _ => false
  | .inf _ => false

/-- `v` is the value that a mode picks for `x` among the values `ys` of a format (R48), all in one unit: the greatest not above for
`rdn`, the least not below for `rup`, the greatest in magnitude not beyond for `rtz`, the nearest for `rne` and `rna`, a tie of `rna`
away from zero. -/
def Picks (mode : RMode) (x v : Int) (ys : Int → Prop) : Prop :=
  match mode with
  | .rdn => v ≤ x ∧ ∀ y, ys y → y ≤ x → y ≤ v
  | .rup => x ≤ v ∧ ∀ y, ys y → x ≤ y → v ≤ y
  | .rtz => v.natAbs ≤ x.natAbs ∧ ∀ y, ys y → y.natAbs ≤ x.natAbs → y.natAbs ≤ v.natAbs
  | .rne => ∀ y, ys y → (v - x).natAbs ≤ (y - x).natAbs
  | .rna => ∀ y, ys y → (v - x).natAbs ≤ (y - x).natAbs ∧ ((v - x).natAbs = (y - x).natAbs → y.natAbs ≤ v.natAbs)
  | .sr _ => True

end Sys2Proof.Claims

/-- For each of the nine formats, each mode but the stochastic one, and each finite nonzero exact value x = ± m × 2^e whose rounding
does not overflow (no OF), with every value measured in the unit 2^min(e, the format's smallest exponent): the encoding that `Round`
gives decodes to a finite value v; v is the value of the format that the mode picks for x (nearest, directed or toward zero, over all
finite encodings of the format); under `rne` a tie gives an even encoding; the result has the sign of x; NX is raised exactly when v
differs from x. -/
def Obligations.RoundingPicksTheModesValue : Prop :=
  ∀ (f : FFmt) (mode : RMode) (n : Bool) (m : Nat) (e : Int), m ≠ 0 → (∀ u, mode ≠ .sr u) →
    let unit : Int := min e (1 - (f.bias : Int) - f.mb)
    let x := (XVal.num n m e false).scaled unit
    let r := roundF f mode false false (.num n m e false)
    let v := (decodeF f false r.1).scaled unit
    let ys : Int → Prop := fun y => ∃ b, b < 2 ^ f.width ∧ isFinite (decodeF f false b) = true ∧ (decodeF f false b).scaled unit = y
    r.2 &&& flagOF = 0 →
      isFinite (decodeF f false r.1) = true ∧ (decodeF f false r.1).neg = n ∧ Picks mode x v ys ∧
      (mode = .rne → (∃ y, ys y ∧ y ≠ v ∧ (v - x).natAbs = (y - x).natAbs) → r.1 % 2 = 0) ∧ (r.2 &&& flagNX ≠ 0 ↔ v ≠ x)

namespace Sys2Proof.Claims

-- scalar floating point (R120 to R125)

/-- The types of the base form (`S`) and of `FT` (R97, R120). -/
def baseType (f32 : Bool) : FFmt := if f32 then .fp32 else .fp64
def extType (ft : BitVec 2) : FFmt := if ft = 0 then .fp64 else if ft = 1 then .fp32 else if ft = 2 then .fp16 else .bf16

/-- How a floating-point instruction of the current slot computes: its type, the mode of `RMO` or of FPCR (`rsr` is to nearest where
nothing is converted), FPCR's `FZI` and `FZO` (R40, R42, R97). -/
def fpSetting (s : State) (f : FFmt) (rmo : BitVec 3) : FpEnv :=
  let rm := if rmo = 0 then s.cs.fpcr.toNat % 8 else rmo.toNat - 1
  { fmt := f
    mode := if rm = 1 then .rtz else if rm = 2 then .rdn else if rm = 3 then .rup else if rm = 4 then .rna else .rne
    fzi := s.cs.fpcr.getLsbD 3, fzo := s.cs.fpcr.getLsbD 4 }

/-- Flags raised in MXFLAGS of the slot's context, and among those of this cycle, which a WRS to it in the same cycle keeps (R45). -/
def flagged (s : State) (fl : FFlags) : State :=
  s.setCtx s.block.ctx { s.ctx s.block.ctx with
    mxflags := (s.ctx s.block.ctx).mxflags ||| fl.setWidth 64, mxnew := (s.ctx s.block.ctx).mxnew ||| fl.setWidth 64 }
/-- The exceptions that FPCR's `XE` enables among some flags (R47). -/
def enabled (s : State) (fl : FFlags) : FFlags := fl &&& s.cs.fpcr.extractLsb' 8 5

/-- The instructions that round one result into gD: the destination, the result and its flags, and the rotations until a long result
is there (0 at once). -/
def fpForm (s : State) : Instr → Option (GIx × (Nat × FFlags) × Nat)
  | .fadd _ t d a b => some (d, (fpSetting s (baseType t) 0).add (s.g a).toNat (s.g b).toNat, 0)
  | .faddLit _ t d a w => some (d, (fpSetting s (baseType t) 0).add (s.g a).toNat w.toNat, 0)
  | .faddExt _ t r d a b => some (d, (fpSetting s (extType t) r).add (s.g a).toNat (s.opB b).toNat, 0)
  | .fsub _ t d a b => some (d, (fpSetting s (baseType t) 0).sub (s.g a).toNat (s.g b).toNat, 0)
  | .fsubLit _ t d a w => some (d, (fpSetting s (baseType t) 0).sub (s.g a).toNat w.toNat, 0)
  | .fsubExt _ t r d a b => some (d, (fpSetting s (extType t) r).sub (s.g a).toNat (s.opB b).toNat, 0)
  | .fmul _ t d a b => some (d, (fpSetting s (baseType t) 0).mul (s.g a).toNat (s.g b).toNat, 0)
  | .fmulLit _ t d a w => some (d, (fpSetting s (baseType t) 0).mul (s.g a).toNat w.toNat, 0)
  | .fmulExt _ t r d a b => some (d, (fpSetting s (extType t) r).mul (s.g a).toNat (s.opB b).toNat, 0)
  | .fdiv _ t d a b => some (d, (fpSetting s (baseType t) 0).div (s.g a).toNat (s.g b).toNat, if t then 2 else 4)
  | .fdivLit _ t d a w => some (d, (fpSetting s (baseType t) 0).div (s.g a).toNat w.toNat, if t then 2 else 4)
  | .fdivExt _ t r d a b => some (d, (fpSetting s (extType t) r).div (s.g a).toNat (s.opB b).toNat, if t = 0 then 4 else 2)
  | .ffma _ t r d a b c => some (d, (fpSetting s (extType t) r).fma (s.g a).toNat (s.opB b).toNat (s.g c).toNat, 0)
  | .fsqrt _ t r d a => some (d, (fpSetting s (extType t) r).sqrt (s.opB a).toNat, if t = 0 then 4 else 2)
  | .fmin _ t d a b => some (d, (fpSetting s (baseType t) 0).minMax false (s.g a).toNat (s.g b).toNat, 0)
  | .fminLit _ t d a w => some (d, (fpSetting s (baseType t) 0).minMax false (s.g a).toNat w.toNat, 0)
  | .fminExt _ t r d a b => some (d, (fpSetting s (extType t) r).minMax false (s.g a).toNat (s.opB b).toNat, 0)
  | .fmax _ t r d a b => some (d, (fpSetting s (extType t) r).minMax true (s.g a).toNat (s.opB b).toNat, 0)
  | _ => none

/-- FCMP: the destination, the condition, the two values as FCMP reads them. -/
def fcmpForm (s : State) : Instr → Option (PIx × BitVec 3 × XVal × XVal)
  | .fcmp _ t cc q a b => some (q, cc, (fpSetting s (baseType t) 0).dec (s.g a).toNat, (fpSetting s (baseType t) 0).dec (s.g b).toNat)
  | .fcmpLit _ t cc q a w => some (q, cc, (fpSetting s (baseType t) 0).dec (s.g a).toNat, (fpSetting s (baseType t) 0).dec w.toNat)
  | .fcmpExt _ t _ cc q a b =>
    some (q, cc, (fpSetting s (extType t) 0).dec (s.g a).toNat, (fpSetting s (extType t) 0).dec (s.opB b).toNat)
  | _ => none

/-- FCMP's truth (R123). -/
def fcmpTruth (cc : Nat) (x y : XVal) : Bool :=
  let un := x.isNaN || y.isNaN
  match cc with
  | 0 => !un && decide (xcmp x y = 0)
  | 1 => un || decide (xcmp x y ≠ 0)
  | 2 => !un && decide (xcmp x y < 0)
  | 3 => !un && decide (xcmp x y ≤ 0)
  | 4 => !un && decide (xcmp x y > 0)
  | 5 => !un && decide (xcmp x y ≥ 0)
  | 6 => un
  | _ => !un
/-- FCMP's NV (R123): any NaN for the four order relations, a signalling one for the others. -/
def fcmpFlag (cc : Nat) (x y : XVal) : FFlags :=
  if 2 ≤ cc ∧ cc ≤ 5 then (if x.isNaN || y.isNaN then flagNV else 0) else (if x = .nan true ∨ y = .nan true then flagNV else 0)

end Sys2Proof.Claims

/-- FADD, FSUB, FMUL, FDIV, FFMA, FSQRT, FMIN and FMAX in all their forms, where they run: the flags of the rounded result are set in
the context's MXFLAGS. With none of them enabled in FPCR, gD gets the result zero-extended (FDIV and FSQRT: gD is pending, and the
result comes 4 rotations later for `fp64`, 2 for the others), with the taint and poison of what was read. With one enabled the slot
traps with illegal operand, the flags in TRAPADDR, and no destination is written. -/
def Sys2Proof.Claims.FloatArithmeticResults : Prop :=
  ∀ (i : Instr) (f : Issue) (s : State) (d : GIx) (v : Nat) (fl : FFlags) (rot : Nat), fpForm s i = some (d, (v, fl), rot) → Runs s i f →
    let t := flagged s fl
    (enabled s fl = 0 →
      exec i s = .next (if rot = 0 then finish f (t.putG d (BitVec.ofNat 64 v) (taintIn s f) (poisIn s f))
        else finish f (t.startLong (.g d) (BitVec.ofNat 256 v) (taintIn s f) (poisIn s f) rot))) ∧
    (enabled s fl ≠ 0 → exec i s = .next (t.trapHere causeOperand (fl.setWidth 64)))

namespace Sys2Proof.Claims

/-- An operand is a NaN, a signalling one. -/
def sNaN (e : FpEnv) (a : Nat) : Bool := decide (e.dec a = .nan true)
def aNaN (e : FpEnv) (a : Nat) : Bool := (e.dec a).isNaN
/-- The canonical NaN, with NV or not. -/
def nanWith (e : FpEnv) (nv : Bool) : Nat × FFlags := (e.fmt.cnan, if nv then flagNV else 0)
/-- The operand is an infinity, a zero, of a sign. -/
def isInfOf (e : FpEnv) (a : Nat) (neg : Bool) : Bool := decide (e.dec a = .inf neg)
def isZeroOf (e : FpEnv) (a : Nat) : Bool := (e.dec a).isZero
/-- The finite value n·m × 2^x, exactly. -/
def isNumOf (e : FpEnv) (a : Nat) (n : Bool) (m : Nat) (x : Int) : Prop := e.dec a = .num n m x false
/-- A signed multiple of 2^x as a multiple of 2^u, for u at most x. -/
def inUnit (u : Int) (n : Bool) (m : Nat) (x : Int) : Int := (if n then -(m : Int) else m) * 2 ^ (x - u).toNat
/-- `Round` of an exact value in the type and mode in force, with its flags (R48). -/
def rounded (e : FpEnv) (n : Bool) (m : Nat) (x : Int) (more : Bool) : Nat × FFlags := roundF e.fmt e.mode false e.fzo (.num n m x more)
/-- The exact sum s × 2^u, rounded; a sum that is exactly 0 with operands of opposite sign is +0, or −0 under `rdn` (R37). -/
def roundedSum (e : FpEnv) (s u : Int) : Nat × FFlags :=
  if s = 0 then (signBits e.fmt (decide (e.mode = .rdn)), 0) else rounded e (decide (s < 0)) s.natAbs u false

/-- One value lies below another, −0 below +0 (R37); neither is a NaN. -/
def below (x y : XVal) : Bool :=
  match x, y with
  | .inf true, .inf true => false
  | .inf true, _ => true
  | .inf false, _ => false
  | _, .inf n => !n
  | x, y =>
    let u := min x.exp y.exp
    decide (x.scaled u < y.scaled u) || (x.isZero && y.isZero && x.neg && !y.neg)
/-- An operand's encoding as FMIN and FMAX return it: unchanged, but zero of its sign where it reads as zero (R122). -/
def returned (e : FpEnv) (a : Nat) : Nat := if isZeroOf e a then signBits e.fmt (e.dec a).neg else a % 2 ^ e.fmt.width

end Sys2Proof.Claims

/-- For the four scalar types, every mode and flush setting, and all operands: a NaN operand gives the canonical NaN, with NV exactly
when an operand is signalling (in FFMA, where only the addend is a NaN, also for 0 × ∞); ∞ − ∞, 0 × ∞, 0 / 0 and ∞ / ∞ give it with NV; a finite
nonzero value divided by zero gives ∞ of the product of the signs with DZ alone; the root of −0 is −0 with no flag, of another
negative value the NaN with NV; a sum of two zeros of one sign is that zero, of two signs +0, or −0 under `rdn`. On finite operands each
gives `Round` of its exact value, with the flags of the rounding alone: a + b and a − b in a common unit, a × b, a × b + c rounded once, the
quotient and the root by their bits down to 2^130 or 2^64 below the unit with a mark when more follow. FMIN and FMAX give the lesser or the greater
of two values, −0 below +0, by its encoding (zero of its sign where `FZI` reads it as zero); one NaN gives the other operand, two the canonical NaN,
with NV exactly for a signalling one. -/
def Sys2Proof.Claims.FloatValues : Prop :=
  ∀ (e : FpEnv) (a b c : Nat), e.fmt ∈ [FFmt.fp64, .fp32, .fp16, .bf16] →
    ((aNaN e a || aNaN e b) = true →
      e.add a b = nanWith e (sNaN e a || sNaN e b) ∧ e.sub a b = nanWith e (sNaN e a || sNaN e b) ∧
      e.mul a b = nanWith e (sNaN e a || sNaN e b) ∧ e.div a b = nanWith e (sNaN e a || sNaN e b) ∧
      e.fma a b c = nanWith e (sNaN e a || sNaN e b || sNaN e c)) ∧
    (aNaN e a = false → aNaN e b = false → aNaN e c = true →
      e.fma a b c = nanWith e (sNaN e c || ((e.dec a).isZero && (e.dec b).isInf) || ((e.dec a).isInf && (e.dec b).isZero))) ∧
    (aNaN e a = true → e.sqrt a = nanWith e (sNaN e a)) ∧
    (∀ n, isInfOf e a n = true → isInfOf e b (!n) = true → e.add a b = nanWith e true) ∧
    (∀ n, isInfOf e a n = true → isInfOf e b n = true → e.sub a b = nanWith e true) ∧
    (∀ n n', isInfOf e a n = true → isInfOf e b n' = true → e.div a b = nanWith e true) ∧
    (∀ n, isZeroOf e a = true → isInfOf e b n = true →
      e.mul a b = nanWith e true ∧ e.mul b a = nanWith e true ∧ e.fma a b c = nanWith e true ∧ e.fma b a c = nanWith e true) ∧
    (isZeroOf e a = true → isZeroOf e b = true → e.div a b = nanWith e true) ∧
    (∀ n m x st, e.dec a = .num n m x st → m ≠ 0 → isZeroOf e b = true → e.div a b = (infBits e.fmt (n ^^ (e.dec b).neg), flagDZ)) ∧
    (isZeroOf e a = true → e.sqrt a = (signBits e.fmt (e.dec a).neg, 0)) ∧
    (∀ m x st, e.dec a = .num true m x st → m ≠ 0 → e.sqrt a = nanWith e true) ∧
    (isInfOf e a true = true → e.sqrt a = nanWith e true) ∧
    (isZeroOf e a = true → isZeroOf e b = true → e.add a b =
      (signBits e.fmt (if (e.dec a).neg = (e.dec b).neg then (e.dec a).neg else decide (e.mode = .rdn)), 0)) ∧
    -- the exact values of finite operands
    (∀ n m x n' m' x', isNumOf e a n m x → isNumOf e b n' m' x' →
      let u : Int := min (min 0 x) x'
      ((m ≠ 0 ∨ m' ≠ 0) →
        e.add a b = roundedSum e (inUnit u n m x + inUnit u n' m' x') u ∧ e.sub a b = roundedSum e (inUnit u n m x - inUnit u n' m' x') u) ∧
      e.mul a b = rounded e (n ^^ n') (m * m') (x + x') false ∧
      (m' ≠ 0 → e.div a b = if m = 0 then (signBits e.fmt (n ^^ n'), 0)
        else rounded e (n ^^ n') (m * 2 ^ 130 / m') (x - x' - 130) (decide (m * 2 ^ 130 % m' ≠ 0))) ∧
      (∀ k l y, isNumOf e c k l y →
        let w : Int := min (min 0 (x + x')) y
        (m * m' ≠ 0 ∨ l ≠ 0) → e.fma a b c = roundedSum e (inUnit w (n ^^ n') (m * m') (x + x') + inUnit w k l y) w)) ∧
    (∀ m x r, isNumOf e a false m x → m ≠ 0 →
      let odd : Nat := if x % 2 = 1 then 1 else 0
      let v := m * 2 ^ (odd + 128)
      r * r ≤ v → v < (r + 1) * (r + 1) → e.sqrt a = rounded e false r ((x - odd) / 2 - 64) (decide (r * r ≠ v))) ∧
    -- FMIN and FMAX
    (aNaN e a = false → aNaN e b = false →
      e.minMax false a b = (if below (e.dec b) (e.dec a) then returned e b else returned e a, 0) ∧
      e.minMax true a b = (if below (e.dec a) (e.dec b) then returned e b else returned e a, 0)) ∧
    (∀ isMax, aNaN e a = true → aNaN e b = false → e.minMax isMax a b = (returned e b, if sNaN e a then flagNV else 0)) ∧
    (∀ isMax, aNaN e a = false → aNaN e b = true → e.minMax isMax a b = (returned e a, if sNaN e b then flagNV else 0)) ∧
    (∀ isMax, aNaN e a = true → aNaN e b = true → e.minMax isMax a b = nanWith e (sNaN e a || sNaN e b))

namespace Sys2Proof.Claims

/-- FCLASS's bit (R125) from the sign, exponent and fraction fields. -/
def classBit (f : FFmt) (v : Nat) : Nat :=
  let fr := v % 2 ^ f.mb
  let ex := v / 2 ^ f.mb % 2 ^ f.eb
  let neg := decide (v / 2 ^ (f.mb + f.eb) % 2 = 1)
  if f.hasInf ∧ ex = 2 ^ f.eb - 1 then
    if fr = 0 then (if neg then 0 else 7) else if fr < 2 ^ (f.mb - 1) then 8 else 9
  else if f = .e4m3 ∧ ex = 15 ∧ fr = 7 then 9
  else if ex = 0 then (if fr = 0 then (if neg then 3 else 4) else if neg then 2 else 5)
  else if neg then 1 else 6

/-- FCVT's result as a 64-bit register: sign-extended for `i` types, zero-extended for the others (R124). -/
def cvtWord (dst : BitVec 5) (v : Nat) : Word :=
  if dst = 0 then (BitVec.ofNat 8 v).signExtend 64 else if dst = 1 then (BitVec.ofNat 16 v).signExtend 64
  else if dst = 2 then (BitVec.ofNat 32 v).signExtend 64 else BitVec.ofNat 64 v

end Sys2Proof.Claims

/-- FCMP, where it runs, sets pD to the truth of its condition (a NaN makes only `ne` and `un` true; zeros are equal) and raises NV as
its table says; FCLASS sets the one bit of gD that the operand's fields name, with no flag; FCVT decodes gA as the source type, rounds
it into the destination type in the mode in force (under `rsr` with a destination of 16 bits or fewer by one step of the slot's
generator, whose new state goes into FPCR), and writes it extended to 64 bits. An enabled exception of FCMP or FCVT traps and writes
no destination (that a trapped FCVT has still stepped the generator is the model's choice, log 8; that a conversion into an integer
judges its range after rounding is its choice too, log 67). -/
def Obligations.FloatCompareClassifyConvert : Prop :=
  (∀ (i : Instr) (f : Issue) (s : State) (q : PIx) (cc : BitVec 3) (x y : XVal), fcmpForm s i = some (q, cc, x, y) → Runs s i f →
    let t := flagged s (fcmpFlag cc.toNat x y)
    (enabled s (fcmpFlag cc.toNat x y) = 0 →
      exec i s = .next (finish f (t.putP q (fcmpTruth cc.toNat x y) (taintIn s f) (poisIn s f)))) ∧
    (enabled s (fcmpFlag cc.toNat x y) ≠ 0 → exec i s = .next (t.trapHere causeOperand ((fcmpFlag cc.toNat x y).setWidth 64)))) ∧
  (∀ (gd : Guard) (ty : BitVec 5) (d a : GIx) (f : Issue) (s : State), Runs s (.fclass gd ty d a) f →
    exec (.fclass gd ty d a) s = .next (toG s f d (BitVec.ofNat 64 (2 ^ classBit (FFmt.ofCode ty) (s.g a).toNat)))) ∧
  (∀ (gd : Guard) (rmo : BitVec 3) (dst src : BitVec 5) (d a : GIx) (f : Issue) (s : State), Runs s (.fcvt gd rmo dst src d a) f →
    let rm := if rmo = 0 then s.cs.fpcr.toNat % 8 else rmo.toNat - 1
    let draws := decide (rm = 5) && decide (codeBits dst ≤ 16)
    let gen := lfsrStep (s.srSeed s.cc s.cs) (s.cs.fpcr.extractLsb' 32 32)
    let mode := if draws then RMode.sr (gen.toNat / 256) else RMode.ofCode rm
    let r := encodeCode dst mode (s.cs.fpcr.getLsbD 5) (s.cs.fpcr.getLsbD 4) (decodeCode src (s.cs.fpcr.getLsbD 3) (s.g a).toNat)
    let s' := if draws then s.setCs { s.cs with fpcr := gen ++ s.cs.fpcr.extractLsb' 0 32 } else s
    (enabled s r.2 = 0 →
      exec (.fcvt gd rmo dst src d a) s = .next (finish f ((flagged s' r.2).putG d (cvtWord dst r.1) (taintIn s f) (poisIn s f)))) ∧
    (enabled s r.2 ≠ 0 →
      exec (.fcvt gd rmo dst src d a) s = .next ((flagged s' r.2).trapHere causeOperand (r.2.setWidth 64))))

namespace Sys2Proof.Claims

-- special registers (R15 to R19, R126)

/-- The map of the special registers that can be read (R15): the number and the value that RDS gives the current slot. -/
def specialMap (s : State) : List (Nat × Word) :=
  let x := s.cs
  let b := s.block
  let c := s.core s.cc
  [ (0x000, x.fpcr), (0x001, x.vfmt), (0x002, (s.ctx b.ctx).mxflags),
    (0x010, BitVec.ofNat 64 x.thr.toNat), (0x011, BitVec.ofNat 64 b.nthr),
    (0x012, BitVec.ofNat 64 b.blkIx.toNat), (0x013, BitVec.ofNat 64 (b.nblkM1.toNat + 1)),
    (0x014, BitVec.ofNat 64 b.grp.toNat), (0x015, BitVec.ofNat 64 (b.ngrpM1.toNat + 1)),
    (0x016, BitVec.ofNat 64 b.stg.toNat), (0x017, BitVec.ofNat 64 (b.nstgM1.toNat + 1)),
    (0x020, BitVec.ofNat 64 b.launch.toNat), (0x021, BitVec.ofNat 64 x.gen.toNat), (0x022, BitVec.ofNat 64 b.ctx.toNat),
    (0x023, BitVec.ofNat 64 (s.cc.x.toNat + 256 * s.cc.y.toNat)), (0x024, BitVec.ofNat 64 (s.lnumOf s.cc).toNat),
    (0x025, BitVec.ofNat 64 s.cc.die.toNat), (0x030, BitVec.ofNat 64 (s.die s.cc.die).clock), (0x031, x.mdest),
    (0x040, BitVec.ofNat 64 b.cwm.toNat), (0x050, x.trapvec), (0x051, x.trappc), (0x052, x.trapcause), (0x053, x.trapaddr),
    (0x060, BitVec.ofNat 64 (s.ctx b.ctx).split.toNat), (0x061, s.dstat s.cc),
    (0x070, BitVec.ofNat 64 (c.stalls.toNat + 2 ^ 48 * c.used.toNat + 2 ^ 56 * c.budget.toNat)), (0x071, c.deadletter),
    (0x072, BitVec.ofNat 64 (x.loops.length % 8 + (match x.loops with | [] => 0 | e :: _ => 2 ^ 32 * e.count.toNat))) ]

/-- The number that RDS and WRS encode. -/
def numberOf (h : BitVec 4) (l : BitVec 6) : Nat := 64 * h.toNat + l.toNat

/-- The registers that WRS may write, with the values that are legal for each (R17, R41, R44, R126, R127, R243, R266). -/
def legalWrite (num : Nat) (v : Word) : Bool :=
  let n := v.toNat
  match num with
  | 0x000 => decide (n % 8 ≤ 5) && decide (n / 64 % 4 = 0) && decide (n / 8192 % 2 ^ 19 = 0)
  | 0x001 => decide (n % 32 ≤ 11) && decide (n / 32 % 8 = 0) && decide (n / 512 = 0)
  | 0x002 => decide (n / 32 % 8 = 0) && decide (n / 8192 = 0)
  | 0x031 => decide (n / 2 ^ 33 = 0)
  | 0x040 => decide (8 ≤ n) && decide (n ≤ 64)
  | 0x050 => decide (n % 4 = 0) && decide (n / 2 ^ 48 = 0)
  | 0x051 => decide (n % 4 = 0) && decide (n / 2 ^ 48 = 0)
  | 0x070 => decide (n / 2 ^ 32 = 0)
  | 0x071 => true
  | _ => false

/-- The machine with a special register written. A flag that the context raised in the same cycle is set in the value that is written to
MXFLAGS (R45). -/
def specialSet (s : State) (num : Nat) (v : Word) : State :=
  let x := s.cs
  match num with
  | 0x000 => s.setCs { x with fpcr := v }
  | 0x001 => s.setCs { x with vfmt := v }
  | 0x002 => s.setCtx s.block.ctx { s.ctx s.block.ctx with mxflags := v ||| (s.ctx s.block.ctx).mxnew }
  | 0x031 => s.setCs { x with mdest := v }
  | 0x040 => s.setBlock s.cc s.curBlk { s.block with cwm := BitVec.ofNat 7 v.toNat }
  | 0x050 => s.setCs { x with trapvec := v }
  | 0x051 => s.setCs { x with trappc := v }
  | 0x070 => s.setCore s.cc { s.core s.cc with stalls := BitVec.ofNat 32 v.toNat }
  | 0x071 => s.setCore s.cc { s.core s.cc with deadletter := v }
  | _ => s

end Sys2Proof.Claims

/-- RDS, where it runs: for a number of the map it writes the register's value to gD with no taint and no poison, and nothing else
changes; for every other number it traps with illegal operand. -/
def Sys2Proof.Claims.ReadSpecialRegisters : Prop :=
  ∀ (gd : Guard) (d : GIx) (h : BitVec 4) (l : BitVec 6) (f : Issue) (s : State), Runs s (.rds gd d h l) f →
    (∀ v, (numberOf h l, v) ∈ specialMap s → exec (.rds gd d h l) s = .next (finish f (s.putG d v 0 false))) ∧
    ((∀ v, (numberOf h l, v) ∉ specialMap s) → exec (.rds gd d h l) s = .next (s.trapHere causeOperand 0))

/-- WRS, where it runs (it waits for the taint of gA): a legal value of a writable register is written there, nothing else changes, and
RDS then reads it (in MXFLAGS with the flags that the context raised in the same cycle set in it); a read-only register, a number outside the map and a value with a reserved bit or out of range trap with illegal
operand and change no register. -/
def Sys2Proof.Claims.WriteSpecialRegisters : Prop :=
  (∀ (gd : Guard) (h : BitVec 4) (l : BitVec 6) (a : GIx) (f : Issue) (s : State), Runs s (.wrs gd h l a) f →
    (legalWrite (numberOf h l) (s.g a) = true → exec (.wrs gd h l a) s = .next (finish f (specialSet s (numberOf h l) (s.g a)))) ∧
    (legalWrite (numberOf h l) (s.g a) = false → exec (.wrs gd h l a) s = .next (s.trapHere causeOperand 0))) ∧
  (∀ (s : State) (num : Nat) (v : Word), legalWrite num v = true → s.blockOf s.cc s.cs = some s.block →
    ∀ w, (num, w) ∈ specialMap (specialSet s num v) → num ≠ 0x070 → w = if num = 0x002 then v ||| (s.ctx s.block.ctx).mxnew else v)

namespace Sys2Proof.Claims

-- vectors (R127 to R138)

/-- Element `i` of width `w` of a register (R128), and the register whose elements are given. -/
def lane (w : Nat) (v : VWord) (i : Nat) : Nat := v.toNat / 2 ^ (w * i) % 2 ^ w
def ofLanes (w : Nat) (f : Nat → Nat) : VWord :=
  BitVec.ofNat 256 ((List.range (256 / w)).foldl (fun a i => a + f i % 2 ^ w * 2 ^ (w * i)) 0)
/-- Element `i` is active (R128): the mask's bit for the lowest byte of the element. -/
def isActive (w : Nat) (m : BitVec 32) (i : Nat) : Bool := m.getLsbD (i * w / 8)
/-- Some element of `n` is inactive. -/
def someKept (w : Nat) (m : BitVec 32) (n : Nat) : Bool := (List.range n).any fun i => !isActive w m i
/-- The flags of the active elements of `n`. -/
def laneFlags (w : Nat) (m : BitVec 32) (n : Nat) (fl : Nat → FFlags) : FFlags :=
  (List.range n).foldr (fun i a => (if isActive w m i then fl i else 0) ||| a) 0

/-- VFMT's element type and saturation, and the floating-point setting of a vector instruction. -/
def etype (s : State) : BitVec 5 := s.cs.vfmt.extractLsb' 0 5
def ewidth (s : State) : Nat := codeBits (etype s)
def eInt (s : State) : Bool := decide ((etype s).toNat < 8)
def eSigned (s : State) : Bool := decide ((etype s).toNat < 4)
def vSetting (s : State) (rmo : BitVec 3) : FpEnv := fpSetting s (FFmt.ofCode (etype s)) rmo

/-- An element as a number of its integer type. -/
def eNum (s : State) (v : Nat) : Int :=
  if eSigned s = true ∧ 2 ^ (ewidth s - 1) ≤ v then (v : Int) - 2 ^ ewidth s else v
/-- An integer into an element, modulo 2^w. -/
def eMod (s : State) (r : Int) : Nat := (r % 2 ^ ewidth s).toNat
/-- The same, clamped to the type's range under `ISAT` (R130). -/
def eSat (s : State) (r : Int) : Nat :=
  let lo : Int := if eSigned s then -(2 ^ (ewidth s - 1)) else 0
  let hi : Int := if eSigned s then 2 ^ (ewidth s - 1) - 1 else 2 ^ ewidth s - 1
  eMod s (if s.cs.vfmt.getLsbD 8 then (if r < lo then lo else if hi < r then hi else r) else r)

/-- An element-wise instruction (R128, R129): the destination, the mask register, `VZ`, the element width, and each element's result
with its flags. -/
structure LaneForm where
  d   : VIx
  vm  : MIx
  vz  : Bool
  w   : Nat
  res : Nat → Nat × FFlags

/-- A source register's element. -/
def src (s : State) (a : VIx) (i : Nat) : Nat := lane (ewidth s) (s.cs.readV a) i

/-- The arithmetic of R130 on two elements. -/
def arith (s : State) (r : BitVec 3) (int : Int → Int → Nat) (float : FpEnv → Nat → Nat → Nat × FFlags) (a b : VIx) (i : Nat) :
    Nat × FFlags :=
  if eInt s then (int (eNum s (src s a i)) (eNum s (src s b i)), 0) else float (vSetting s r) (src s a i) (src s b i)

def addLanes (s : State) (r : BitVec 3) := arith s r (fun x y => eSat s (x + y)) FpEnv.add
def subLanes (s : State) (r : BitVec 3) := arith s r (fun x y => eSat s (x - y)) FpEnv.sub
def mulLanes (s : State) (r : BitVec 3) := arith s r (fun x y => eMod s (x * y)) FpEnv.mul
def minLanes (s : State) (r : BitVec 3) := arith s r (fun x y => eMod s (if x ≤ y then x else y)) (FpEnv.minMax false)
def maxLanes (s : State) (r : BitVec 3) := arith s r (fun x y => eMod s (if x ≤ y then y else x)) (FpEnv.minMax true)
def absLanes (s : State) (a : VIx) (i : Nat) : Nat × FFlags :=
  (if eInt s then eMod s (eNum s (src s a i)).natAbs else src s a i % 2 ^ (ewidth s - 1), 0)

/-- The shifts of R131 by a count. -/
def shiftLanes (s : State) (kind : Nat) (a : VIx) (count : Nat → Nat) (i : Nat) : Nat × FFlags :=
  let v := src s a i
  let n := count i % ewidth s
  (match kind with
    | 0 => v * 2 ^ n % 2 ^ ewidth s
    | 1 => v / 2 ^ n
    | _ => (((if 2 ^ (ewidth s - 1) ≤ v then (v : Int) - 2 ^ ewidth s else v) / 2 ^ n) % 2 ^ ewidth s).toNat, 0)
/-- The count of an extended shift: an immediate, or the elements of a register. -/
def extCount (s : State) (imm : Bool) (b : BitVec 6) (i : Nat) : Nat := if imm then b.toNat else src s (b.setWidth 5) i

/-- A bitwise operation. -/
def bitLanes (s : State) (f : Nat → Nat → Nat) (a b : VIx) (i : Nat) : Nat × FFlags := (f (src s a i) (src s b i), 0)
/-- Elements moved: the element of vA at an index, 0 outside the register. -/
def moved (s : State) (a : VIx) (k : Int) : Nat := if 0 ≤ k ∧ k < (256 / ewidth s : Nat) then src s a k.toNat else 0

/-- The element-wise instructions of R130, R131, R133 and R134. -/
def laneForm (s : State) : Instr → Option LaneForm
  | .vadd _ d a b => some ⟨d, 0, false, ewidth s, addLanes s 0 a b⟩
  | .vaddExt _ x r d a b => some ⟨d, x.vm, x.vz, ewidth s, addLanes s r a b⟩
  | .vsub _ d a b => some ⟨d, 0, false, ewidth s, subLanes s 0 a b⟩
  | .vsubExt _ x r d a b => some ⟨d, x.vm, x.vz, ewidth s, subLanes s r a b⟩
  | .vmul _ d a b => some ⟨d, 0, false, ewidth s, mulLanes s 0 a b⟩
  | .vmulExt _ x r d a b => some ⟨d, x.vm, x.vz, ewidth s, mulLanes s r a b⟩
  | .vmin _ d a b => some ⟨d, 0, false, ewidth s, minLanes s 0 a b⟩
  | .vminExt _ x r d a b => some ⟨d, x.vm, x.vz, ewidth s, minLanes s r a b⟩
  | .vmax _ d a b => some ⟨d, 0, false, ewidth s, maxLanes s 0 a b⟩
  | .vmaxExt _ x r d a b => some ⟨d, x.vm, x.vz, ewidth s, maxLanes s r a b⟩
  | .vfma _ x r d a b c => some ⟨d, x.vm, x.vz, ewidth s, fun i =>
      if eInt s then (eMod s (eNum s (src s a i) * eNum s (src s b i) + eNum s (src s c i)), 0)
      else (vSetting s r).fma (src s a i) (src s b i) (src s c i)⟩
  | .vabs _ d a => some ⟨d, 0, false, ewidth s, absLanes s a⟩
  | .vabsExt _ x d a => some ⟨d, x.vm, x.vz, ewidth s, absLanes s a⟩
  | .vmov _ d a => some ⟨d, 0, false, ewidth s, fun i => (src s a i, 0)⟩
  | .vmovExt _ x d a => some ⟨d, x.vm, x.vz, ewidth s, fun i => (src s a i, 0)⟩
  | .vand _ d a b => some ⟨d, 0, false, ewidth s, bitLanes s Nat.land a b⟩
  | .vandExt _ x d a b => some ⟨d, x.vm, x.vz, ewidth s, bitLanes s Nat.land a b⟩
  | .vor _ d a b => some ⟨d, 0, false, ewidth s, bitLanes s Nat.lor a b⟩
  | .vorExt _ x d a b => some ⟨d, x.vm, x.vz, ewidth s, bitLanes s Nat.lor a b⟩
  | .vxor _ d a b => some ⟨d, 0, false, ewidth s, bitLanes s Nat.xor a b⟩
  | .vxorExt _ x d a b => some ⟨d, x.vm, x.vz, ewidth s, bitLanes s Nat.xor a b⟩
  | .vshlReg _ d a b => some ⟨d, 0, false, ewidth s, shiftLanes s 0 a (src s b)⟩
  | .vshlImm _ d a n => some ⟨d, 0, false, ewidth s, shiftLanes s 0 a fun _ => n.toNat⟩
  | .vshlExt _ x i d a b => some ⟨d, x.vm, x.vz, ewidth s, shiftLanes s 0 a (extCount s i b)⟩
  | .vshrReg _ d a b => some ⟨d, 0, false, ewidth s, shiftLanes s 1 a (src s b)⟩
  | .vshrImm _ d a n => some ⟨d, 0, false, ewidth s, shiftLanes s 1 a fun _ => n.toNat⟩
  | .vshrExt _ x i d a b => some ⟨d, x.vm, x.vz, ewidth s, shiftLanes s 1 a (extCount s i b)⟩
  | .vsraReg _ d a b => some ⟨d, 0, false, ewidth s, shiftLanes s 2 a (src s b)⟩
  | .vsraImm _ d a n => some ⟨d, 0, false, ewidth s, shiftLanes s 2 a fun _ => n.toNat⟩
  | .vsraExt _ x i d a b => some ⟨d, x.vm, x.vz, ewidth s, shiftLanes s 2 a (extCount s i b)⟩
  | .vsel _ x d q a b => some ⟨d, x.vm, x.vz, ewidth s, fun i =>
      (lane (ewidth s) (ofLanes 8 fun j => lane 8 (s.cs.readV (if (s.cs.readM q).getLsbD j then a else b)) j) i, 0)⟩
  | .vbcast _ d a => some ⟨d, 0, false, ewidth s, fun _ => ((s.g a).toNat % 2 ^ ewidth s, 0)⟩
  | .vbcastExt _ x d a => some ⟨d, x.vm, x.vz, ewidth s, fun _ => ((s.g a).toNat % 2 ^ ewidth s, 0)⟩
  | .vshuf _ d a b => some ⟨d, 0, false, ewidth s, fun i => (moved s a (src s b i), 0)⟩
  | .vshufExt _ x d a b => some ⟨d, x.vm, x.vz, ewidth s, fun i => (moved s a (src s b i), 0)⟩
  | .vslideUp _ d a n => some ⟨d, 0, false, ewidth s, fun i => (moved s a (i - n.toNat), 0)⟩
  | .vslideUpExt _ x d a n => some ⟨d, x.vm, x.vz, ewidth s, fun i => (moved s a (i - n.toNat), 0)⟩
  | .vslideDown _ d a n => some ⟨d, 0, false, ewidth s, fun i => (moved s a (i + n.toNat), 0)⟩
  | .vslideDownExt _ x d a n => some ⟨d, x.vm, x.vz, ewidth s, fun i => (moved s a (i + n.toNat), 0)⟩
  | _ => none

/-- The elements that an element-wise instruction leaves in its destination (R128). -/
def LaneForm.value (x : LaneForm) (s : State) : VWord :=
  ofLanes x.w fun i => if isActive x.w (s.cs.readM x.vm) i then (x.res i).1 else if x.vz then 0 else lane x.w (s.cs.readV x.d) i
def LaneForm.flags (x : LaneForm) (s : State) : FFlags := laneFlags x.w (s.cs.readM x.vm) (256 / x.w) fun i => (x.res i).2
/-- Some old element stays: the old taint and poison stay with it (R129). -/
def LaneForm.part (x : LaneForm) (s : State) : Bool := !x.vz && someKept x.w (s.cs.readM x.vm) (256 / x.w)

/-- The taint and poison of a destination, a partial write or a whole one. -/
def partTaint (s : State) (f : Issue) (r : RegId) (part : Bool) : Byte := if part then taintIn s f ||| (s.cs.mark r).taint else taintIn s f
def partPois (s : State) (f : Issue) (r : RegId) (part : Bool) : Bool := if part then poisIn s f || (s.cs.mark r).pois else poisIn s f

/-- An instruction with floating-point flags: they are raised, an enabled one traps, otherwise the effect follows (R45, R47). -/
def withFlags (s : State) (f : Issue) (fl : FFlags) (effect : State → State) : State :=
  if enabled s fl = 0 then finish f (effect (flagged s fl)) else (flagged s fl).trapHere causeOperand (fl.setWidth 64)

end Sys2Proof.Claims

/-- Each instruction of `laneForm` (VADD, VSUB, VMUL, VMIN, VMAX, VFMA, VABS, VMOV, VAND, VOR, VXOR, the shifts, VSEL, VBCAST, VSHUF,
VSLIDE, all forms), where it runs, leaves in vD at each active element of the width of VFMT the value its rule gives, and at each
inactive one the old element or, under `VZ`, 0. The flags of the active elements are raised in MXFLAGS, and an enabled one traps before
any element is written. The destination has the taint and poison of what was read, joined with its own where an old element stays.
Nothing else changes. -/
def Obligations.ElementwiseVectorResults : Prop :=
  ∀ (i : Instr) (f : Issue) (x : LaneForm) (s : State), laneForm s i = some x → Runs s i f →
    exec i s = .next (withFlags s f (x.flags s) fun t =>
      t.putV x.d (x.value s) (partTaint s f (.v x.d) (x.part s)) (partPois s f (.v x.d) (x.part s)))

namespace Sys2Proof.Claims

-- compare, single elements, reductions

/-- VCMP's operands: the destination, the mask register, `VZ`, the condition, the sources. -/
def vcmpForm : Instr → Option (MIx × MIx × Bool × BitVec 3 × VIx × VIx)
  | .vcmp _ cc q a b => some (q, 0, false, cc, a, b)
  | .vcmpExt _ x cc q a b => some (q, x.vm, x.vz, cc, a, b)
  | _ => none

/-- The truth and the flags of VCMP at element `i` (R132). -/
def vcmpLane (s : State) (cc : Nat) (a b : VIx) (i : Nat) : Bool × FFlags :=
  if eInt s then (condition cc (eNum s (src s a i)) (eNum s (src s b i)), 0)
  else
    let x := (vSetting s 0).dec (src s a i)
    let y := (vSetting s 0).dec (src s b i)
    (fcmpTruth cc x y, fcmpFlag cc x y)

/-- VINS and VEXT: the lane. -/
def laneOf : Instr → Option (BitVec 6)
  | .vins _ _ _ l | .vinsExt _ _ _ l | .vext _ _ _ l | .vextExt _ _ _ l => some l
  | _ => none
/-- VINS: destination and source. -/
def insForm : Instr → Option (VIx × GIx)
  | .vins _ d a _ | .vinsExt _ d a _ => some (d, a)
  | _ => none
/-- VEXT: destination and source. -/
def extForm : Instr → Option (GIx × VIx)
  | .vext _ d a _ | .vextExt _ d a _ => some (d, a)
  | _ => none

end Sys2Proof.Claims

/-- VCMP, where it runs, writes the truth of its condition at each active element to every byte-lane bit of the element in mD, and keeps
(or under `VZ` clears) the bits of inactive elements; on integer types a condition above 5 traps with illegal operand. VINS replaces one
element of vD by the low bits of gA and joins the old taint and poison; VEXT writes one element, extended by its signedness, to gD; a
lane not below the number of elements traps with illegal operand. -/
def Sys2Proof.Claims.VectorCompareInsertExtract : Prop :=
  (∀ (i : Instr) (f : Issue) (s : State) (q vm : MIx) (vz : Bool) (cc : BitVec 3) (a b : VIx),
    vcmpForm i = some (q, vm, vz, cc, a, b) → Runs s i f →
    let w := ewidth s
    let m := s.cs.readM vm
    let part := !vz && someKept w m (256 / w)
    (eInt s = true → 6 ≤ cc.toNat → exec i s = .next (s.trapHere causeOperand 0)) ∧
    ((eInt s = false ∨ cc.toNat < 6) → ∃ r : BitVec 32,
      (w ∈ [8, 16, 32, 64] → ∀ j, j < 32 → r.getLsbD j =
        (if isActive w m (8 * j / w) then (vcmpLane s cc.toNat a b (8 * j / w)).1 else !vz && (s.cs.readM q).getLsbD j)) ∧
      exec i s = .next (withFlags s f (laneFlags w m (256 / w) fun k => (vcmpLane s cc.toNat a b k).2) fun t =>
        t.putM q r (partTaint s f (.m q) part) (partPois s f (.m q) part)))) ∧
  (∀ (i : Instr) (f : Issue) (s : State) (l : BitVec 6), laneOf i = some l → Runs s i f → 256 / ewidth s ≤ l.toNat →
    exec i s = .next (s.trapHere causeOperand 0)) ∧
  (∀ (i : Instr) (f : Issue) (s : State) (l : BitVec 6) (d : VIx) (a : GIx), laneOf i = some l → insForm i = some (d, a) → Runs s i f →
    l.toNat < 256 / ewidth s →
    exec i s = .next (finish f (s.putV d
      (ofLanes (ewidth s) fun k => if k = l.toNat then (s.g a).toNat else lane (ewidth s) (s.cs.readV d) k) (taintIn s f) (poisIn s f)))) ∧
  (∀ (i : Instr) (f : Issue) (s : State) (l : BitVec 6) (d : GIx) (a : VIx), laneOf i = some l → extForm i = some (d, a) → Runs s i f →
    l.toNat < 256 / ewidth s → exec i s = .next (toG s f d (BitVec.ofInt 64 (eNum s (src s a l.toNat)))))

namespace Sys2Proof.Claims

/-- VREDADD, VREDMIN, VREDMAX: which, the mask register, `RMO`, destination and source. -/
def redForm : Instr → Option (Nat × MIx × BitVec 3 × GIx × VIx)
  | .vredadd _ d a => some (0, 0, 0, d, a)
  | .vredaddExt _ vm r d a => some (0, vm, r, d, a)
  | .vredmin _ d a => some (1, 0, 0, d, a)
  | .vredminExt _ vm r d a => some (1, vm, r, d, a)
  | .vredmax _ d a => some (2, 0, 0, d, a)
  | .vredmaxExt _ vm r d a => some (2, vm, r, d, a)
  | _ => none

/-- The active elements of a register, lowest first. -/
def activeLanes (s : State) (vm : MIx) (a : VIx) : List Nat :=
  ((List.range (256 / ewidth s)).filter fun i => isActive (ewidth s) (s.cs.readM vm) i).map (src s a)

/-- The least or greatest of some numbers, or the end of the range that R135 gives for none. -/
def pickInt (mx : Bool) (s : State) (xs : List Int) : Int :=
  let bot : Int := if eSigned s then -(2 ^ (ewidth s - 1)) else 0
  let top : Int := if eSigned s then 2 ^ (ewidth s - 1) - 1 else 2 ^ ewidth s - 1
  if mx then xs.foldl max bot else xs.foldl min top

/-- The flags that operands raise by being signalling NaNs (R46). -/
def sigFlags (xs : List XVal) : FFlags := if XVal.nan true ∈ xs then flagNV else 0

/-- VDOT's word `j`: the accumulator and the products, summed exactly and reduced or rounded once (R136). -/
def dotLane (s : State) (r : BitVec 3) (d a b : VIx) (j : Nat) : Nat × FFlags :=
  let n := 32 / ewidth s
  let acc := lane 32 (s.cs.readV d) j
  let ps := (List.range n).map fun t => (src s a (n * j + t), src s b (n * j + t))
  if eInt s then ((((acc : Int) + (ps.map fun (p : Nat × Nat) => eNum s p.1 * eNum s p.2).foldl (· + ·) 0) % 2 ^ 32).toNat, 0)
  else
    let e := vSetting s r
    let z := decodeF .fp32 e.fzi acc
    let xs := ps.map fun p => (e.dec p.1, e.dec p.2)
    let t := xsum e.rdn (z :: xs.map fun p => (xmul p.1 p.2).1)
    let q := roundF .fp32 e.mode false e.fzo t.1
    (q.1, sigFlags (z :: xs.flatMap fun p => [p.1, p.2]) ||| (xs.foldl (fun g p => g ||| (xmul p.1 p.2).2) 0) ||| t.2 ||| q.2)

/-- VSFU's result for one operand: the function's exact value rounded to nearest even (R137). -/
def sfuLane (e : FpEnv) (fn v : Nat) : Nat × FFlags :=
  let t := specialFn fn (e.dec v)
  let q := roundF e.fmt .rne false e.fzo t.1
  (q.1, sigFlags [e.dec v] ||| t.2 ||| q.2)

/-- The table of VSFU's special cases (R137): what a function gives for an operand that has an entry in it, of a type `t`. -/
def sfuSpecial (t : FFmt) (fn : Nat) (x : XVal) : Option (Nat × FFlags) :=
  let nan (nv : Bool) : Nat × FFlags := (t.cnan, if nv then flagNV else 0)
  let one (n : Bool) : Nat := signBits t n + t.bias * 2 ^ t.mb
  match x with
  | .nan s => some (nan s)
  | .inf n =>
    match fn with
    | 0 => some (if n then 0 else infBits t false, 0)
    | 1 => some (if n then nan true else (infBits t false, 0))
    | 2 => some (signBits t n, 0)
    | 3 => some (if n then nan true else (0, 0))
    | 4 | 5 => some (nan true)
    | _ => some (one n, 0)
  | .num n m e _ =>
    if m = 0 then
      match fn with
      | 0 => none
      | 1 => some (infBits t true, flagDZ)
      | 2 | 3 => some (infBits t n, flagDZ)
      | 5 => none
      | _ => some (signBits t n, 0)
    else
      match fn with
      | 0 => if !n && decide ((if t = .fp16 then 4 else 7) ≤ log2Of m e) then some (infBits t false, flagOF ||| flagNX) else none
      | 1 | 3 => if n then some (nan true) else none
      | _ => none

end Sys2Proof.Claims

/-- VREDADD, VREDMIN and VREDMAX, where they run, write to gD the sum modulo 2^64, least or greatest of the active elements (the end of
the range when there is none) for integer types; for floating types VREDADD rounds the exact sum once, and VREDMIN and VREDMAX
fold R37 over the active elements, ±∞ when there is none. VDOT adds the products of the elements under each 32-bit word of vD to it,
exactly, reducing modulo 2^32 or rounding once to `fp32`, and traps for a type it does not take. VSFU marks vD pending and its result,
the function's exact value rounded to nearest even at each active element, comes 6 rotations later for `fp32` and 3 for the others; a
type that is none of the three traps. For every operand in the table of special cases its result and flags are those of the table. -/
def Sys2Proof.Claims.ReductionDotAndSpecialFunctions : Prop :=
  (∀ (i : Instr) (f : Issue) (s : State) (k : Nat) (vm : MIx) (r : BitVec 3) (d : GIx) (a : VIx),
    redForm i = some (k, vm, r, d, a) → Runs s i f →
    let es := activeLanes s vm a
    let e := vSetting s r
    (eInt s = true → exec i s = .next (toG s f d (BitVec.ofInt 64
      (if k = 0 then (es.map (eNum s)).foldl (· + ·) 0 else pickInt (decide (k = 2)) s (es.map (eNum s)))))) ∧
    (eInt s = false → k = 0 →
      let t := xsum e.rdn (es.map e.dec)
      let q := roundF e.fmt e.mode false e.fzo t.1
      exec i s = .next (withFlags s f (sigFlags (es.map e.dec) ||| t.2 ||| q.2) fun u =>
        u.putG d (BitVec.ofNat 64 q.1) (taintIn s f) (poisIn s f))) ∧
    (eInt s = false → k ≠ 0 →
      let mx := decide (k = 2)
      let q : Nat × FFlags := match es with
        | [] => (infBits e.fmt mx, 0)
        | v :: vs => vs.foldl (fun p x => ((e.minMax mx p.1 x).1, p.2 ||| (e.minMax mx p.1 x).2)) (e.minMax mx v v)
      exec i s = .next (withFlags s f q.2 fun u => u.putG d (BitVec.ofNat 64 q.1) (taintIn s f) (poisIn s f)))) ∧
  (∀ (gd : Guard) (x : VMask) (r : BitVec 3) (d a b : VIx) (f : Issue) (s : State), Runs s (.vdot gd x r d a b) f →
    let y : LaneForm := ⟨d, x.vm, x.vz, 32, dotLane s r d a b⟩
    ((etype s).toNat ∈ [0, 1, 4, 5, 10, 11] → exec (.vdot gd x r d a b) s = .next (withFlags s f (y.flags s) fun t =>
      t.putV d (y.value s) (partTaint s f (.v d) (y.part s)) (partPois s f (.v d) (y.part s)))) ∧
    ((etype s).toNat ∉ [0, 1, 4, 5, 10, 11] → exec (.vdot gd x r d a b) s = .next (s.trapHere causeOperand 0))) ∧
  (∀ (gd : Guard) (x : VMask) (fn : BitVec 4) (d a : VIx) (f : Issue) (s : State), Runs s (.vsfu gd x fn d a) f →
    let e : FpEnv := { vSetting s 0 with mode := .rne }
    let y : LaneForm := ⟨d, x.vm, x.vz, ewidth s, fun i => sfuLane e fn.toNat (src s a i)⟩
    ((etype s).toNat ∈ [9, 10, 11] → exec (.vsfu gd x fn d a) s = .next (withFlags s f (y.flags s) fun t =>
      t.startLong (.v d) (y.value s) (partTaint s f (.v d) (y.part s)) (partPois s f (.v d) (y.part s)) (if ewidth s = 32 then 6 else 3))) ∧
    ((etype s).toNat ∉ [9, 10, 11] → exec (.vsfu gd x fn d a) s = .next (s.trapHere causeOperand 0))) ∧
  (∀ (e : FpEnv) (fn v : Nat) (q : Nat × FFlags), e.fmt ∈ [FFmt.fp32, .fp16, .bf16] → fn < 7 →
    sfuSpecial e.fmt fn (e.dec v) = some q → sfuLane e fn v = q)

namespace Sys2Proof.Claims

-- conversion (R138), block formats (R139 to R143), masks (R144)

/-- The generator after `n` steps (R50). -/
def genAfter (seed g : BitVec 32) : Nat → BitVec 32
  | 0 => g
  | n + 1 => lfsrStep seed (genAfter seed g n)

/-- The width that a type's elements take in a vector (R138): 6-bit types lie in bytes. -/
def containerBits (ty : BitVec 5) : Nat := if codeBits ty = 6 then 8 else codeBits ty

/-- The state of the slot's generator put back into FPCR. -/
def withGen (s : State) (g : BitVec 32) : State := s.setCs { s.cs with fpcr := g ++ s.cs.fpcr.extractLsb' 0 32 }

/-- VCVT's element `k`, of those that one instruction converts: its place in the source and in the destination. -/
structure CvtPlan where
  ws : Nat
  wd : Nat
  n  : Nat
  p  : Nat
def cvtPlan (dst src : BitVec 5) (part : BitVec 4) : CvtPlan :=
  let ws := containerBits src
  let wd := containerBits dst
  ⟨ws, wd, 256 / max ws wd, part.toNat * (256 / max ws wd)⟩
def CvtPlan.srcAt (x : CvtPlan) (k : Nat) : Nat := if x.ws < x.wd then x.p + k else k
def CvtPlan.dstAt (x : CvtPlan) (k : Nat) : Nat := if x.wd < x.ws then x.p + k else k
/-- Element `k` is active, by the mask bits of its place in the destination. -/
def CvtPlan.on (x : CvtPlan) (m : BitVec 32) (k : Nat) : Bool := isActive x.wd m (x.dstAt k)

/-- Masks: the destination and the result of MAND, MOR, MXOR, MNOT, GTOM (R144). -/
def maskForm (s : State) : Instr → Option (MIx × BitVec 32)
  | .mand _ d a b => some (d, s.cs.readM a &&& s.cs.readM b)
  | .mor _ d a b => some (d, s.cs.readM a ||| s.cs.readM b)
  | .mxor _ d a b => some (d, s.cs.readM a ^^^ s.cs.readM b)
  | .mnot _ d a => some (d, ~~~s.cs.readM a)
  | .gtom _ d a => some (d, BitVec.ofNat 32 (s.g a).toNat)
  | _ => none

end Sys2Proof.Claims

/-- VCVT of well-formed types, where it runs, converts 256 / max(ws, wd) elements: from part `PART` of vA when the destination is wider,
into part `PART` of vD when it is narrower, whose other elements stay. An active element gets the source's value rounded into the
destination type; inactive elements are kept or zeroed. Under `rsr` with a destination of 16 bits or fewer each active element takes one
generator step, in ascending order, and the last state goes into FPCR (also where it traps: the model's choice, log 8). That a `float`
conversion into an integer judges its range after rounding is the model's choice too (log 67). -/
def Sys2Proof.Claims.VectorConversionResults : Prop :=
  ∀ (gd : Guard) (x : VMask) (rmo : BitVec 3) (part : BitVec 4) (dst src : BitVec 5) (d a : VIx) (f : Issue) (s : State),
    Runs s (.vcvt gd x rmo part dst src d a) f → (Instr.vcvt gd x rmo part dst src d a).wf = true →
    let y := cvtPlan dst src part
    let m := s.cs.readM x.vm
    let rm := if rmo = 0 then s.cs.fpcr.toNat % 8 else rmo.toNat - 1
    let draws := decide (rm = 5) && decide (y.wd ≤ 16)
    let before (k : Nat) : Nat := ((List.range k).filter fun j => y.on m j).length
    let gen (n : Nat) := genAfter (s.srSeed s.cc s.cs) (s.cs.fpcr.extractLsb' 32 32) n
    let res (k : Nat) : Nat × FFlags :=
      encodeCode dst (if draws then .sr ((gen (before k + 1)).toNat / 256) else RMode.ofCode rm) (s.cs.fpcr.getLsbD 5)
        (s.cs.fpcr.getLsbD 4)
        (decodeCode src (s.cs.fpcr.getLsbD 3) (lane y.ws (s.cs.readV a) (y.srcAt k) % 2 ^ codeBits src))
    let fl := (List.range y.n).foldr (fun k g => (if y.on m k then (res k).2 else 0) ||| g) 0
    let kept := decide (y.wd < y.ws) || (!x.vz && (List.range y.n).any fun k => !y.on m k)
    let v := ofLanes y.wd fun j =>
      if y.dstAt 0 ≤ j ∧ j < y.dstAt 0 + y.n then
        (if y.on m (j - y.dstAt 0) then (res (j - y.dstAt 0)).1 else if x.vz then 0 else lane y.wd (s.cs.readV d) j)
      else lane y.wd (s.cs.readV d) j
    let s' := if draws then withGen s (gen (before y.n)) else s
    (enabled s fl = 0 → exec (.vcvt gd x rmo part dst src d a) s =
      .next (finish f ((flagged s' fl).putV d v (partTaint s f (.v d) kept) (partPois s f (.v d) kept)))) ∧
    (enabled s fl ≠ 0 → exec (.vcvt gd x rmo part dst src d a) s = .next ((flagged s' fl).trapHere causeOperand (fl.setWidth 64)))

/-- MAND, MOR, MXOR, MNOT and GTOM, where they run, write the operation's 32 bits to mD; MPOP writes the number of set bits of mA to gD;
MTOG inverts the bit of mD that gA names, joins mD's old taint and poison, and traps with illegal operand for a lane above 31. -/
def Obligations.MaskInstructionResults : Prop :=
  (∀ (i : Instr) (f : Issue) (s : State) (d : MIx) (v : BitVec 32), maskForm s i = some (d, v) → Runs s i f →
    exec i s = .next (finish f (s.putM d v (taintIn s f) (poisIn s f)))) ∧
  (∀ (gd : Guard) (d : GIx) (a : MIx) (f : Issue) (s : State), Runs s (.mpop gd d a) f →
    exec (.mpop gd d a) s = .next (toG s f d (BitVec.ofNat 64 ((List.range 32).filter fun j => (s.cs.readM a).getLsbD j).length))) ∧
  (∀ (gd : Guard) (d : MIx) (a : GIx) (f : Issue) (s : State), Runs s (.mtog gd d a) f →
    ((s.g a).toNat ≤ 31 → ∃ v : BitVec 32,
      (∀ j, j < 32 → v.getLsbD j = ((s.cs.readM d).getLsbD j != decide (j = (s.g a).toNat))) ∧
      exec (.mtog gd d a) s = .next (finish f (s.putM d v (taintIn s f) (poisIn s f)))) ∧
    (31 < (s.g a).toNat → exec (.mtog gd d a) s = .next (s.trapHere causeOperand 0)))

namespace Sys2Proof.Claims

/-- Element `e` of a group of registers (R139). -/
def groupEl (s : State) (w : Nat) (a : VIx) (e : Nat) : Nat := lane w (s.cs.readV (a + BitVec.ofNat 5 (e / (256 / w)))) (e % (256 / w))
/-- A group of `n` registers written. -/
def putRun (s : State) (w n : Nat) (d : VIx) (es : Nat → Nat) (t : Byte) (po : Bool) : State :=
  (List.range n).foldl (fun u k => u.putV (d + BitVec.ofNat 5 k) (ofLanes w fun j => es (k * (256 / w) + j)) t po) s
/-- The rounding mode code that an instruction's `RMO` and FPCR give (R44). -/
def rmOf (s : State) (rmo : BitVec 3) : Nat := if rmo = 0 then s.cs.fpcr.toNat % 8 else rmo.toNat - 1
/-- The mode of the `k`-th conversion of an instruction whose destination has `w` bits (R42, R51). -/
def modeAt (s : State) (rm w k : Nat) : RMode :=
  if rm = 5 ∧ w ≤ 16 then .sr ((genAfter (s.srSeed s.cc s.cs) (s.cs.fpcr.extractLsb' 32 32) (k + 1)).toNat / 256) else RMode.ofCode rm

/-- An output of the transform of R55 at place `r` of a run: the signs. -/
def hadSign (r j : Nat) : Bool := parity 6 (Nat.land r j)

end Sys2Proof.Claims

/-- Where they run: VQNT and VDQNT trap with illegal operand unless VFMT is `fp32`, `fp16` or `bf16` and the group is aligned; VQNT builds
the image of the group's elements in vD and, for an MX format, the scale in g[C]; VDQNT rounds each value of the image, one generator
step an element under `rsr` into 16 bits. VHAD traps for natural types and a misaligned group; it writes each run's signed sums,
modulo 2^w or exact and rounded once. VBADDQ builds the image of the exact sums of three images. Flags follow R45: an enabled one
traps before any register is written (the generator has stepped all the same: the model's choice, log 8; so is the sign of
VHAD's exact zero sums under `rdn`, log 14). -/
def Sys2Proof.Claims.QuantiseTransformAndBlockAdd : Prop :=
  (∀ (gd : Guard) (rmo : BitVec 3) (fmt : BitVec 4) (d a : VIx) (c : GIx) (f : Issue) (s : State), Runs s (.vqnt gd rmo fmt d a c) f →
    let n := unitElems fmt * ewidth s / 256
    let xs := (List.range (unitElems fmt)).map fun e => (vSetting s rmo).dec (groupEl s (ewidth s) a e)
    let q := toImage fmt xs (s.rounder (rmOf s rmo) 8)
    ((etype s).toNat ∉ [9, 10, 11] ∨ a.toNat % n ≠ 0 → exec (.vqnt gd rmo fmt d a c) s = .next (s.trapHere causeOperand 0)) ∧
    ((etype s).toNat ∈ [9, 10, 11] ∧ a.toNat % n = 0 → exec (.vqnt gd rmo fmt d a c) s =
      .next (withFlags (s.putSr q.2.2.2) f (q.2.2.1 ||| sigFlags xs) fun t =>
        let u := t.putV d q.1 (taintIn s f) (poisIn s f)
        if fmt.toNat ∈ [10, 11, 12] then u.putG c (BitVec.ofNat 64 q.2.1) (taintIn s f) (poisIn s f) else u))) ∧
  (∀ (gd : Guard) (fmt : BitVec 4) (d a : VIx) (c : GIx) (f : Issue) (s : State), Runs s (.vdqnt gd fmt d a c) f →
    let w := ewidth s
    let n := unitElems fmt * w / 256
    let e := vSetting s 0
    let rm := s.cs.fpcr.toNat % 8
    let xs := ofImage fmt (s.cs.readV a) ((s.g c).toNat % 256)
    let res (k : Nat) : Nat × FFlags :=
      roundF e.fmt (modeAt s rm w k) (s.cs.fpcr.getLsbD 5 && decide (w = 16)) e.fzo (xs.getD k (.zero false))
    let fl := (List.range (unitElems fmt)).foldr (fun k g => (res k).2 ||| g) 0
    let s' := if rm = 5 ∧ w = 16 then withGen s (genAfter (s.srSeed s.cc s.cs) (s.cs.fpcr.extractLsb' 32 32) (unitElems fmt)) else s
    ((etype s).toNat ∉ [9, 10, 11] ∨ d.toNat % n ≠ 0 → exec (.vdqnt gd fmt d a c) s = .next (s.trapHere causeOperand 0)) ∧
    ((etype s).toNat ∈ [9, 10, 11] ∧ d.toNat % n = 0 → exec (.vdqnt gd fmt d a c) s =
      .next (withFlags s' f fl fun t => putRun t w n d (fun k => (res k).1) (taintIn s f) (poisIn s f)))) ∧
  (∀ (gd : Guard) (h32 : Bool) (d a : VIx) (f : Issue) (s : State), Runs s (.vhad gd h32 d a) f →
    let w := ewidth s
    let m := if h32 then 32 else 16
    let n := max 1 (m * w / 256)
    let e := vSetting s 0
    let x (i j : Nat) : Nat := groupEl s w a (i / m * m + j)
    let res (i : Nat) : Nat × FFlags :=
      if n * (256 / w) < i / m * m + m then (0, 0)
      else if eInt s then (eMod s (((List.range m).map fun j => if hadSign (i % m) j then -eNum s (x i j) else eNum s (x i j)).foldl (· + ·) 0), 0)
      else
        let ys := (List.range m).map fun j => if hadSign (i % m) j then (e.dec (x i j)).negate else e.dec (x i j)
        let t := xsum e.rdn ys
        let q := roundF e.fmt e.mode false e.fzo t.1
        (q.1, sigFlags ((List.range m).map fun j => e.dec (x i j)) ||| t.2 ||| q.2)
    let bad := (eInt s = true ∧ eSigned s = false) ∨ a.toNat % n ≠ 0 ∨ d.toNat % n ≠ 0
    (bad → exec (.vhad gd h32 d a) s = .next (s.trapHere causeOperand 0)) ∧
    (¬bad → exec (.vhad gd h32 d a) s =
      .next (withFlags s f ((List.range (n * (256 / w))).foldr (fun i g => (res i).2 ||| g) 0) fun t =>
        putRun t w n d (fun i => (res i).1) (taintIn s f) (poisIn s f)))) ∧
  (∀ (gd : Guard) (rmo : BitVec 3) (fmt : BitVec 4) (d a b c : VIx) (f : Issue) (s : State), Runs s (.vbaddq gd rmo fmt d a b c) f →
    let v (r : VIx) (e : Nat) : XVal := (ofImage fmt (s.cs.readV r) 0).getD e (.zero false)
    let q := toImage fmt ((List.range (unitElems fmt)).map fun e => (xsum false [v a e, v b e, v c e]).1) (s.rounder (rmOf s rmo) 8)
    exec (.vbaddq gd rmo fmt d a b c) s =
      .next (withFlags (s.putSr q.2.2.2) f q.2.2.1 fun t => t.putV d q.1 (taintIn s f) (poisIn s f)))

namespace Sys2Proof.Claims

-- global accesses at issue (spec/09)

/-- A global access at its issue: what it needs of its pages, the bytes at each address, the addresses, and whether its destination is
one that R188 forbids. -/
structure Access where
  need  : Need
  size  : Nat
  eas   : List Word
  noDst : Bool := false
  deriving DecidableEq, Repr

/-- The addresses of a gather or scatter: one for each element of vA (R189). -/
def laneAddrs (s : State) (w : BitVec 2) (va : VIx) (b : GIx) (disp : BitVec 32) : List Word :=
  (List.range (32 / 2 ^ w.toNat)).map fun i =>
    s.g b + BitVec.ofNat 64 (lane (8 * 2 ^ w.toNat) (s.cs.readV va) i) + disp.signExtend 64
/-- The address of a memory operand (R189). -/
def addrOf (s : State) (e : MemA) : Word := s.g e.a + s.g e.b + e.disp.signExtend 64
/-- A destination that R188 forbids. -/
def forbidden (d : GIx) : Bool := decide (d.toNat ∈ [60, 61, 62])

/-- The lines of a tile's image (R240): 16 of 64 bytes, each with its own translation (R190 step 4). -/
def tileLines (a : Word) : List Word := (List.range 16).map fun j => a + BitVec.ofNat 64 (64 * j)

/-- The global accesses with a tag, a record or an image (spec/09, R231, R233, R240, R250, R257), where the numbers of their descriptor,
ring or tile are in the allotment; the prefetch form is not among them. -/
def accessOf (s : State) : Instr → Option Access
  | .ld _ t d ea | .ldro _ t d ea => if d = 0 then none else some ⟨{ r := true }, 2 ^ t.w.toNat, [addrOf s ea], forbidden d⟩
  | .ldx _ _ _ ea => some ⟨{ r := true }, 16, [addrOf s ea], false⟩
  | .ldv _ _ _ ea => some ⟨{ r := true }, 32, [addrOf s ea], false⟩
  | .ldvGather _ t _ va b disp => some ⟨{ r := true }, 2 ^ t.w.toNat, laneAddrs s t.w va b disp, false⟩
  | .upd _ _ t _ ea => some ⟨{ w := true }, 2 ^ t.w.toNat, [addrOf s ea], false⟩
  | .updx _ _ _ _ ea => some ⟨{ w := true }, 16, [addrOf s ea], false⟩
  | .updv _ _ _ _ ea => some ⟨{ w := true }, 32, [addrOf s ea], false⟩
  | .updvScatter _ _ t _ va b disp => some ⟨{ w := true }, 2 ^ t.w.toNat, laneAddrs s t.w va b disp, false⟩
  | .atom _ _ t d ea _ => some ⟨{ r := true, w := true }, 2 ^ t.w.toNat, [addrOf s ea], forbidden d⟩
  | .cas _ t d a disp _ _ => some ⟨{ r := true, w := true }, 2 ^ t.w.toNat, [s.g a + disp.signExtend 64], forbidden d⟩
  | .tdget _ a disp dd => if dd.toNat < s.block.ndesc then some ⟨{ w := true }, 32, [s.g a + disp.signExtend 64], false⟩ else none
  | .tupd _ _ _ ea ta => if ta.toNat < s.block.nalloc then some ⟨{ w := true }, 64, tileLines (addrOf s ea), false⟩ else none
  | .tld _ ta a disp =>
    if ta.toNat < s.block.nalloc then some ⟨{ r := true }, 64, tileLines (s.g a + disp.signExtend 64), false⟩ else none
  | .tdset _ dd a disp => if dd.toNat < s.block.ndesc then some ⟨{ r := true }, 32, [s.g a + disp.signExtend 64], false⟩ else none
  | .ringcfg _ q a disp => if q.toNat < s.block.nring then some ⟨{ r := true }, 16, [s.g a + disp.signExtend 64], false⟩ else none
  | .cpy _ _ a disp => some ⟨{ r := true }, 64, [s.g a + disp.signExtend 64], false⟩
  | .bsld _ ix a disp b =>
    if 0 < (s.g b).toNat ∧ ix.toNat + (s.g b).toNat ≤ 1024 then
      some ⟨{ r := true }, 8, (List.range (s.g b).toNat).map fun j => s.g a + disp.signExtend 64 + BitVec.ofNat 64 (8 * j), false⟩
    else none
  | _ => none

/-- Every address is aligned and translates: its physical addresses. -/
abbrev Placed (s : State) (x : Access) (pas : List Nat) : Prop :=
  x.noDst = false ∧ (∀ a ∈ x.eas, a.toNat % x.size = 0) ∧ x.eas.length = pas.length ∧
    ∀ n, n < pas.length → s.tr (x.eas.getD n 0) x.need = .ok (pas.getD n 0)

/-- Every address is aligned, those before the `n`-th translate. -/
abbrev PlacedTo (s : State) (x : Access) (n : Nat) : Prop :=
  x.noDst = false ∧ (∀ a ∈ x.eas, a.toNat % x.size = 0) ∧ n < x.eas.length ∧
    ∀ j, j < n → ∃ pa, s.tr (x.eas.getD j 0) x.need = .ok pa

end Sys2Proof.Claims

/-- Each global access that runs: one whose destination is g60, g61 or g62 traps with illegal operand; otherwise the first address that
is not a multiple of its size traps with misaligned access and that address in TRAPADDR; otherwise the first address, in order, whose
translation faults takes that fault (a trap, or a suspension under replay), and one whose translation waits loses the turn and only
notes the miss. TLD and TUPD have an address for each 64-byte line of their image, on whichever page it lies. (Which of several bad
addresses TRAPADDR names is the model's reading, log 39.) -/
def Obligations.GlobalAccessChecks : Prop :=
  ∀ (i : Instr) (f : Issue) (s : State) (x : Access), accessOf s i = some x → Runs s i f →
    (x.noDst = true → exec i s = .next (s.trapHere causeOperand 0)) ∧
    (x.noDst = false → ∀ n, n < x.eas.length → (x.eas.getD n 0).toNat % x.size ≠ 0 →
      (∀ j, j < n → (x.eas.getD j 0).toNat % x.size = 0) → exec i s = .next (s.trapHere causeMisaligned (x.eas.getD n 0))) ∧
    (∀ n u cause, PlacedTo s x n → s.tr (x.eas.getD n 0) x.need = .fault u cause →
      exec i s = .next (u.deliverFault u.cur.1 u.cur.2 cause (x.eas.getD n 0)
        (if x.need.r ∧ x.need.w then 2 else if x.need.w then 1 else 0) u.cs.pc)) ∧
    (∀ n u, PlacedTo s x n → s.tr (x.eas.getD n 0) x.need = .miss u → exec i s = .next u)

namespace Sys2Proof.Claims

/-- A record of the slot whose turn it is (R168, R197): `size` bytes of a value at an address. -/
def recordOf (s : State) (op : BitVec 4) (t : MemT) (pa size v : Nat) (po : Bool) : Rec :=
  {
    key := pa / 8, value := BitVec.ofNat 64 (v % 256 ^ size * 256 ^ (pa % 8)), op := op, w := t.w,
    k := t.k && decide (op.toNat ∈ [2, 7, 8, 12]), mask := BitVec.ofNat 8 ((2 ^ size - 1) * 2 ^ (pa % 8)), ctx := s.block.ctx, pois := po,
    sdie := s.cc.die, score := s.lnumOf s.cc, srcs := [slotName s.cc s.cur.2 s.cs] }

/-- The tagged loads: destinations, access type, kind. -/
def loadOf (s : State) (pa : Nat) : Instr → Option (List RegId × MemT × LoadKind)
  | .ld _ t d _ => if d = 0 then none else some ([.g d], t, .ld)
  | .ldro _ t d _ => if d = 0 then none else some ([.g d], t, .ldro)
  | .ldx _ t d _ => some ([.g d, .g (d + 1)], t, .ld)
  | .ldv _ t d _ => some ([.v d], t, .ld)
  | .ldvGather _ t d _ _ _ => some ([.v d], t, .gather)
  | .atom _ op t d _ c => some ([.g d], t, .atom (recordOf s op t pa (2 ^ t.w.toNat) (s.g c).toNat (s.cs.mark (.g c)).pois))
  | .cas _ t d _ _ b c =>
    some ([.g d], t, .cas (s.g b) (recordOf s 0 t pa (2 ^ t.w.toNat) (s.g c).toNat ((s.cs.mark (.g b)).pois || (s.cs.mark (.g c)).pois)))
  | _ => none

/-- The key words that the bytes of an access cover. -/
def keysAt (pas : List Nat) (size : Nat) : List Nat := pas.flatMap fun pa => (List.range ((pa + size - 1) / 8 - pa / 8 + 1)).map (pa / 8 + ·)
/-- The hold entries of the slot that overlap some key words. -/
def overlaps (s : State) (keys : List Nat) : List Held := s.cs.hold.filter fun h => h.keys.any fun n => keys.contains n
/-- The taint that an access's hold entry waits for: its operands', the control taint, and that of the entries it overlaps (R28). -/
def holdMask (s : State) (f : Issue) (keys : List Nat) : Byte :=
  (overlaps s keys).foldl (fun m h => m ||| h.mask) (taintIn s f ||| s.cs.ctaint)
/-- An access must be held (R28, R196, R199): it has taint, overlaps an entry, or a release waits before it. -/
def mustHold (s : State) (f : Issue) (keys : List Nat) : Bool :=
  decide (taintIn s f ||| s.cs.ctaint ≠ 0) || !(overlaps s keys).isEmpty
    || s.cs.hold.any fun h => match h.op with | .upd _ scope _ => decide (scope ≠ 0) | .load _ => false

/-- The load that an instruction starts. -/
def newLoad (s : State) (f : Issue) (x : Access) (y : List RegId × MemT × LoadKind) (pas : List Nat) (st : LoadSt) : Load :=
  {
    id := s.seqno, kind := y.2.2, dst := y.1, elems := pas.map fun pa => { pa := pa, size := x.size }, scope := y.2.1.scope, w := y.2.1.w,
    sext := y.2.1.k, taint := taintIn s f, issued := s.clock s.cc, left := s.seqno, horizon := s.cs.horizon, st := st }
/-- The slot with the load under a tag and its destinations pending. -/
def withLoad (x : Slot) (dst : List RegId) (tag : Nat) (l : Load) : Slot :=
  let y := dst.foldl (fun y r => y.setPend true r) x
  { y with tags := Sparse.set y.tags tag l }

/-- The load is a returning atomic. -/
def isAtomic : LoadKind → Bool
  | .atom _ | .cas _ _ => true
  | _ => false
/-- An atomic's key is in none of the levels inside its scope. -/
def nothingInside (s : State) (l : LoadKind) (scope : BitVec 3) (pas : List Nat) : Prop :=
  isAtomic l = true → ∀ lv ∈ inside s.cc scope, s.heldAt lv (pas.headD 0 / 8) = none

/-- `Evict` over some levels, innermost first (R172): each record of the key goes one level out, in turn, with the count of those that went;
none where one has no room. -/
def evicted (s : State) (key : Nat) : List LevelId → Option (State × Nat)
  | [] => some (s, 0)
  | lv :: lvs =>
    match s.heldAt lv key with
    | none => evicted s key lvs
    | some r =>
      let t := s.setRecs lv ((s.run lv).recs.filter fun x => decide (x.key ≠ key))
      if t.roomOut lv r then (evicted (t.insertOut lv r) key lvs).map fun x => (x.1, x.2 + 1) else none

end Sys2Proof.Claims

/-- A tagged load or returning atomic (LD, LDRO, LDX, LDV and its gather form, ATOM, CAS) that runs and whose addresses are aligned and translate takes the lowest free tag, and its
destinations are pending. If it need not be held it goes from now on; an atomic whose key lies in no level inside its scope changes
nothing else, another evicts the key there and then where all that it moves has room, and else evicts it later. If it must be held
(tainted operands or control, an overlapping entry, a release before it) it enters the hold queue behind the loads in flight; where the
queue has its 8 entries it loses the turn (here for an overlapping entry alone, which shows only after the translation, log 31; for the
others the wait comes first). The pc goes on. -/
def Sys2Proof.Claims.LoadsTakeATag : Prop :=
  ∀ (i : Instr) (f : Issue) (s : State) (x : Access) (pas : List Nat) (y : List RegId × MemT × LoadKind) (tag : Nat),
    accessOf s i = some x → Placed s x pas → loadOf s (pas.headD 0) i = some y → Runs s i f →
    tag < 8 → Sparse.find s.cs.tags tag = none → (∀ t, t < tag → Sparse.find s.cs.tags t ≠ none) →
    let keys := keysAt pas x.size
    let s' := { s with seqno := s.seqno + 1 }
    (mustHold s f keys = false → nothingInside s y.2.2 y.2.1.scope pas →
      exec i s = .next (finish f (s'.setCs (withLoad s.cs y.1 tag (newLoad s f x y pas .going))))) ∧
    (mustHold s f keys = false → isAtomic y.2.2 = true →
      let l := newLoad s f x y pas .going
      let t := s'.setCs (withLoad s.cs y.1 tag l)
      (∀ u n, evicted t (pas.headD 0 / 8) (inside s.cc y.2.1.scope) = some (u, n) →
        exec i s = .next (finish f (u.setCs { u.cs with tags := Sparse.set u.cs.tags tag { l with moves := n } }))) ∧
      (evicted t (pas.headD 0 / 8) (inside s.cc y.2.1.scope) = none → exec i s = .next (finish f t))) ∧
    (mustHold s f keys = true → s.cs.hold.length < 8 →
      exec i s = .next (finish f (s'.setCs { withLoad s.cs y.1 tag (newLoad s f x y pas .held) with
        hold := s.cs.hold ++ [{
          id := s.seqno, mask := holdMask s f keys, loads := s.cs.busyTags,
          after := (overlaps s keys).foldl (fun m h => m ||| h.after) 0, keys := keys, op := .load (BitVec.ofNat 3 tag) }] }))) ∧
    (mustHold s f keys = true → 8 ≤ s.cs.hold.length → exec i s = .next s)

namespace Sys2Proof.Claims

/-- The prefetch forms: LD and LDRO into g0 (R193). -/
def prefetchOf : Instr → Option (MemT × MemA)
  | .ld _ t d ea | .ldro _ t d ea => if d = 0 then some (t, ea) else none
  | _ => none

/-- The least rotations of a read of device or peer memory from a die (R160, R333): which HBM lines the memory-side cache holds at a moment is
open (log 72). -/
def homeTime (d : BitVec 3) (pa moment : Nat) : Nat :=
  if isPeer pa then 113 else if Config.cached (pa / 64) moment then (if homeDie pa = d then 12 else 20) else 40

/-- A snapshot of a line from its home, read at a moment, in a core's L1: the core's others of that line are dropped (R157), and the L1 keeps
the newest 1,024 (R14; that the oldest goes is log 19). -/
def shotIn (s : State) (c : CoreId) (line left ready : Nat) : State :=
  let old := (s.core c).l1.filter fun (e : Snapshot) => decide (e.line ≠ line)
  s.setCore c { s.core c with
    l1 := old.drop (old.length - 1023) ++ [(⟨line, s.lineBytes line, s.lineKeyPois line, left, ready⟩ : Snapshot)] }
/-- The snapshot that a prefetch takes: it serves from the time on at which the read returns. -/
def withSnapshot (s : State) (line : Nat) : State :=
  shotIn { s with seqno := s.seqno + 1 } s.cc line s.seqno (s.clock s.cc + 16 * homeTime s.cc.die (64 * line) s.seqno)

end Sys2Proof.Claims

/-- LD or LDRO into g0, where it runs, ends as a no-operation if its address is misaligned, faults, or is tainted; a miss is noted and
waits; otherwise the line is taken into the L1 as a snapshot where it is not there, lies in device or peer memory, its home can be read,
and no record of the die is on its way to it, and nothing else happens but that an activate of HBM is counted at its stack, where the read
makes one; at the stack's limit nothing is read (R355, log 73). Of host memory nothing is kept. -/
def Sys2Proof.Claims.PrefetchForm : Prop :=
  ∀ (i : Instr) (f : Issue) (s : State) (t : MemT) (ea : MemA), prefetchOf i = some (t, ea) → Runs s i f →
    let a := addrOf s ea
    (a.toNat % 2 ^ t.w.toNat ≠ 0 → exec i s = .next (finish f s)) ∧
    (a.toNat % 2 ^ t.w.toNat = 0 →
      (∀ u cause, s.tr a { r := true } = .fault u cause → exec i s = .next (finish f u)) ∧
      (∀ u, s.tr a { r := true } = .miss u → exec i s = .next u) ∧
      (∀ pa, s.tr a { r := true } = .ok pa →
        let line := pa / 64
        let there := (s.core s.cc).l1.any fun e => decide (e.line = line)
        let ready := s.homeReady s.cc line && !s.lineMoving s.cc.die line
        (taintIn s f ||| s.cs.ctaint ≠ 0 ∨ there = true ∨ ready = false → exec i s = .next (finish f s)) ∧
        (taintIn s f ||| s.cs.ctaint = 0 → there = false → ready = true →
          (s.openRow line s.seqno = none → exec i s = .next (finish f s)) ∧
          ∀ u, s.openRow line s.seqno = some u →
            exec i s = .next (finish f (if isHost (64 * line) then { u with seqno := u.seqno + 1 } else withSnapshot u line)))))

namespace Sys2Proof.Claims

/-- The records of an update in their order, with its scope: by rising bytes (R197, R210), those of TUPD by rising key word (R240). -/
def recordsOf (s : State) (pas : List Nat) : Instr → Option (BitVec 3 × List Rec)
  | .upd _ op t d _ => some (t.scope, [recordOf s op t (pas.headD 0) (2 ^ t.w.toNat) (s.g d).toNat (s.cs.mark (.g d)).pois])
  | .updx _ op t d _ =>
    some (t.scope, [recordOf s op t (pas.headD 0) 8 (s.g d).toNat (s.cs.mark (.g d)).pois,
      recordOf s op t (pas.headD 0 + 8) 8 (s.g (d + 1)).toNat (s.cs.mark (.g (d + 1))).pois])
  | .updv _ op t d _ =>
    some (t.scope, (List.range 4).map fun j => recordOf s op t (pas.headD 0 + 8 * j) 8 (lane 64 (s.cs.readV d) j) (s.cs.mark (.v d)).pois)
  | .updvScatter _ op t d _ _ _ =>
    some (t.scope, (List.range (32 / 2 ^ t.w.toNat)).map fun j =>
      recordOf s op t (pas.getD j 0) (2 ^ t.w.toNat) (lane (8 * 2 ^ t.w.toNat) (s.cs.readV d) j) (s.cs.mark (.v d)).pois)
  | .tdget _ _ _ dd =>
    let x := (s.core s.cc).desc (s.block.desc0 + dd.toNat)
    let v := if x.valid then x.image.toNat else 0
    some (0, (List.range 4).map fun j => recordOf s 0 ⟨false, 3, 0⟩ (pas.headD 0 + 8 * j) 8 (v / 2 ^ (64 * j)) false)
  | .tupd _ op t _ ta =>
    let x := (s.core s.cc).tile (s.block.tile0 + ta.toNat)
    some (t.scope, byKey ((List.range 128).map fun j =>
      recordOf s op t (pas.getD (j / 8) 0 + 8 * (j % 8)) 8 (x.val.toNat / 2 ^ (64 * j)) (x.pois.getLsbD (j / 8))))
  | _ => none

/-- The loads in flight that some key words overlap (R212). -/
def loadsOver (s : State) (keys : List Nat) : Byte :=
  s.cs.tags.foldl (fun a e => if (keysOfLoad e.2).any fun n => keys.contains n then a ||| BitVec.ofNat 8 (2 ^ e.1) else a) 0
where keysOfLoad (l : Load) : List Nat := l.elems.flatMap fun e => keysAt [e.pa] e.size

/-- Records inserted into cog 0 one after another. -/
def inserted (s : State) (rs : List Rec) : State := rs.foldl (fun t r => t.insertRec (.cog0 s.cc) r) s
/-- Each may be inserted when its turn comes (R178). -/
abbrev AllRoom (s : State) (rs : List Rec) : Prop :=
  ∀ n, n < rs.length → ∀ r ∈ rs[n]?, (inserted s (rs.take n)).mayInsert s.cc none r = true

end Sys2Proof.Claims

/-- An update (UPD, UPDX, UPDV and its scatter form, TDGET, TUPD) that runs and whose addresses are aligned and translate (for TUPD those of all its lines)
makes one record for each key word or element, UPDX each with the poison of its own register, TUPD in the order of rising key words (those of
one key word in their order in the image). One that must be held, one that overlaps a load in flight (log 31), and a release update
whose release does not complete at once enters the hold queue with its records, or loses the turn where the queue has its 8 entries.
Another inserts its records one after another as far as cog 0 has room: with all of them inserted it goes on; with one that finds no
room the rest wait in the hold queue, where it has room for them. -/
def Obligations.UpdatesMakeRecords : Prop :=
  (∀ (l : List Rec), (byKey l).Pairwise (fun a b => a.key ≤ b.key) ∧
    ∀ key, (byKey l).filter (fun r => decide (r.key = key)) = l.filter fun r => decide (r.key = key)) ∧
  (∀ (i : Instr) (f : Issue) (s : State) (x : Access) (pas : List Nat) (scope : BitVec 3) (rs : List Rec),
    accessOf s i = some x → Placed s x pas → recordsOf s pas i = some (scope, rs) → Runs s i f →
    let keys := rs.map fun r => r.key
    let held := mustHold s f keys
    let after := (overlaps s keys).foldl (fun m h => m ||| h.after) 0 ||| loadsOver s keys
    let entry : Held := {
      id := s.seqno, mask := holdMask s f keys, loads := s.cs.busyTags, after := after, keys := keys, op := .upd rs scope .todo }
    let waits := held = true ∨ after ≠ 0 ∨ (scope ≠ 0 ∧ s.releaseNow scope none = false)
    (waits → s.cs.hold.length < 8 →
      exec i s = .next (finish f ({ s with seqno := s.seqno + 1 }.setCs { s.cs with hold := s.cs.hold ++ [entry] }))) ∧
    (waits → 8 ≤ s.cs.hold.length → exec i s = .next s) ∧
    (¬waits → AllRoom s rs → exec i s = .next (finish f (inserted s rs))) ∧
    (¬waits → ∀ (n : Nat) (r : Rec), rs[n]? = some r → AllRoom s (rs.take n) → (inserted s (rs.take n)).mayInsert s.cc none r = false →
      let u := inserted s (rs.take n)
      let rest : Held := { entry with
        keys := (rs.drop n).map fun x => x.key, op := .upd (rs.drop n) scope .sent,
        since := if (u.heldAt (.cog0 s.cc) r.key).isNone then some u.seqno else none }
      (s.cs.hold.length < 8 →
        exec i s = .next (finish f ({ u with seqno := u.seqno + 1 }.setCs { u.cs with hold := u.cs.hold ++ [rest] }))) ∧
      (8 ≤ s.cs.hold.length → exec i s = .next s)))

namespace Sys2Proof.Claims

-- SRAM (R146, R148, R206, R207)

/-- A unit of a table, a byte, `n` bytes as a number, and whether a unit that they touch is poisoned. -/
def unitAt (t : Sparse Unit8) (i : Nat) : Unit8 := Sparse.get {} t i
def byteAt (t : Sparse Unit8) (a : Nat) : Nat := (unitAt t (a / 8)).val.toNat / 256 ^ (a % 8) % 256
def sramNum (t : Sparse Unit8) (off n : Nat) : Nat := (List.range n).foldr (fun j v => v + byteAt t (off + j) * 256 ^ j) 0
def sramPois (t : Sparse Unit8) (off n : Nat) : Bool := (List.range n).any fun j => (unitAt t ((off + j) / 8)).pois

/-- A table after `n` bytes from a place on have been written (R148): those bytes are the value's, every other is as before; a unit is
poisoned by poisoned data, and a whole write alone clears it. -/
def Written (t t' : Sparse Unit8) (off n v : Nat) (po : Bool) : Prop :=
  (∀ a, byteAt t' a = if off ≤ a ∧ a < off + n then v / 256 ^ (a - off) % 256 else byteAt t a) ∧
  (∀ u, (unitAt t' u).pois =
    if off < 8 * u + 8 ∧ 8 * u < off + n then po || ((unitAt t u).pois && !(decide (off ≤ 8 * u) && decide (8 * u + 8 ≤ off + n)))
    else (unitAt t u).pois)

/-- The scratchpad accesses: the bytes, the address, whether the destination is forbidden. -/
structure SramAccess where
  size  : Nat
  ea    : Word
  noDst : Bool := false
  deep  : Bool := false
  deriving DecidableEq, Repr

def sramOf (s : State) : Instr → Option SramAccess
  | .lds _ t d ea => some { size := 2 ^ t.w.toNat, ea := addrOf s ea, noDst := forbidden d }
  | .ldsv _ _ ea => some { size := 32, ea := addrOf s ea }
  | .sts _ t _ ea => some { size := 2 ^ t.w.toNat, ea := addrOf s ea }
  | .stsv _ _ ea => some { size := 32, ea := addrOf s ea }
  | .ldd _ t d ea => some { size := 2 ^ t.w.toNat, ea := addrOf s ea, noDst := forbidden d, deep := true }
  | .std _ t _ ea => some { size := 2 ^ t.w.toNat, ea := addrOf s ea, deep := true }
  | .syncinit _ a disp _ | .syncadd _ a disp _ | .syncwait _ a disp => some { size := 16, ea := s.g a + disp.signExtend 64 }
  | .syncget _ d a disp => some { size := 16, ea := s.g a + disp.signExtend 64, noDst := forbidden d }
  | _ => none

/-- Where an access falls: in the block's allotment of the scratchpad (R146); in the block's window, a deep-scratch group of the
context's holding (R164). -/
def placeIn (s : State) (x : SramAccess) : Option Nat :=
  let b := s.block
  let o := x.ea.toNat
  if x.deep then
    let y := s.ctx b.ctx
    let h := b.dwbase + o
    let g := y.first + h / 65536
    if b.dwsize < o + x.size ∨ 65536 * y.count < h + x.size ∨ (s.slab s.cc).mode g ≠ some 1
        ∨ (s.slab s.cc).mode (y.first + (h + x.size - 1) / 65536) ≠ some 1 then none
      else some (65536 * g + h % 65536)
  else if b.scrsize < o + x.size then none
  else some (b.scrbase + o)

/-- The machine with the scratchpad of its core, or the SRAM of its slab, replaced. -/
def withScratch (s : State) (t : Sparse Unit8) : State := s.setCore s.cc { s.core s.cc with scratch := t }
def withUnits (s : State) (t : Sparse Unit8) : State := s.setSlab s.cc { s.slab s.cc with units := t }
def scratchOf (s : State) : Sparse Unit8 := (s.core s.cc).scratch
def unitsOf (s : State) : Sparse Unit8 := (s.slab s.cc).units

/-- An element extended to 64 bits, by its sign under `K` (R188). -/
def extended (t : MemT) (v : Nat) : Word :=
  let b := 8 * 2 ^ t.w.toNat
  if t.k ∧ 2 ^ (b - 1) ≤ v then BitVec.ofInt 64 ((v : Int) - 2 ^ b) else BitVec.ofNat 64 v

/-- STS, STSV: what is stored. -/
def stored (s : State) : Instr → Option (Nat × Bool)
  | .sts _ _ d _ | .std _ _ d _ => some ((s.g d).toNat, (s.cs.mark (.g d)).pois)
  | .stsv _ d _ => some ((s.cs.readV d).toNat, (s.cs.mark (.v d)).pois)
  | _ => none

end Sys2Proof.Claims

/-- Each of LDS, LDSV, STS, STSV, LDD, STD and the four sync instructions that runs traps: with illegal operand for a destination g60, g61
or g62; else with misaligned access when its address is no multiple of its size; else, outside the block's allotment, with permission
denied, and for LDD and STD outside the window, the holding or a deep-scratch group with the deep-scratch cause. TRAPADDR holds the
address (where the access begins inside and runs out, its first byte's: the model's reading, log 65). -/
def Sys2Proof.Claims.SramAccessTraps : Prop :=
  ∀ (i : Instr) (f : Issue) (s : State) (x : SramAccess), sramOf s i = some x → Runs s i f →
    (x.noDst = true → exec i s = .next (s.trapHere causeOperand 0)) ∧
    (x.noDst = false → x.ea.toNat % x.size ≠ 0 → exec i s = .next (s.trapHere causeMisaligned x.ea)) ∧
    (x.noDst = false → x.ea.toNat % x.size = 0 → placeIn s x = none →
      exec i s = .next (s.trapHere (if x.deep then causeDeep else causePermission) x.ea))

/-- Where its access falls at a place: LDS writes the bytes there to gD, extended; LDSV writes 32 bytes to vD; LDD marks gD pending and its
result arrives 3 rotations later; all with the poison of the units read. STS, STSV and STD change exactly their bytes of the
scratchpad or of the slab, with the poison rule of R148, and nothing else. -/
def Sys2Proof.Claims.SramAccessResults : Prop :=
  ∀ (i : Instr) (f : Issue) (s : State) (x : SramAccess) (off : Nat), sramOf s i = some x → Runs s i f →
    x.noDst = false → x.ea.toNat % x.size = 0 → placeIn s x = some off →
    (∀ gd t d ea, i = .lds gd t d ea → exec i s = .next (finish f
      (s.putG d (extended t (sramNum (scratchOf s) off x.size)) (taintIn s f) (sramPois (scratchOf s) off x.size)))) ∧
    (∀ gd d ea, i = .ldsv gd d ea → exec i s = .next (finish f
      (s.putV d (BitVec.ofNat 256 (sramNum (scratchOf s) off 32)) (taintIn s f) (sramPois (scratchOf s) off 32)))) ∧
    (∀ gd t d ea, i = .ldd gd t d ea → exec i s = .next (finish f
      (s.startLong (.g d) ((extended t (sramNum (unitsOf s) off x.size)).setWidth 256) (taintIn s f) (sramPois (unitsOf s) off x.size) 3
        true))) ∧
    (∀ v po, stored s i = some (v, po) → x.deep = false →
      ∃ t, Written (scratchOf s) t off x.size v po ∧ exec i s = .next (finish f (withScratch s t))) ∧
    (∀ v po, stored s i = some (v, po) → x.deep = true →
      ∃ t, Written (unitsOf s) t off x.size v po ∧ exec i s = .next (finish f (withUnits s t)))

namespace Sys2Proof.Claims

-- sync words (R149, R150)

/-- The fields of the sync word at a place: count, target, generation, overflow; and its poison. -/
def syncCount (t : Sparse Unit8) (off : Nat) : Nat := (unitAt t (off / 8)).val.toNat % 2 ^ 32
def syncTarget (t : Sparse Unit8) (off : Nat) : Nat := (unitAt t (off / 8)).val.toNat / 2 ^ 32
def syncGen (t : Sparse Unit8) (off : Nat) : Nat := (unitAt t (off / 8 + 1)).val.toNat % 2 ^ 16
def syncOvf (t : Sparse Unit8) (off : Nat) : Bool := (unitAt t (off / 8 + 1)).val.getLsbD 17
def syncPois (t : Sparse Unit8) (off : Nat) : Bool := (unitAt t (off / 8)).pois || (unitAt t (off / 8 + 1)).pois
/-- A sync word at a place, reserved bits 0, and every other unit as before. -/
def SyncIs (t t' : Sparse Unit8) (off count target gen : Nat) (ovf : Bool) : Prop :=
  (unitAt t' (off / 8)).val.toNat = count + 2 ^ 32 * target ∧
  (unitAt t' (off / 8 + 1)).val.toNat = gen + (if ovf then 2 ^ 17 else 0) ∧
  ∀ u, u ≠ off / 8 → u ≠ off / 8 + 1 → unitAt t' u = unitAt t u

end Sys2Proof.Claims

/-- At a place of the scratchpad: SYNCINIT sets the count to 0, the target to the low 32 bits of gB and no overflow, adds 1 to the
generation modulo 2^16 and clears the poison. SYNCADD adds gB to the count, saturating at 2^32 - 1 with the overflow bit, and keeps the
rest. SYNCWAIT traps with poison on a poisoned word, goes on when the count has reached the target, and loses the turn otherwise.
SYNCGET writes count, generation, overflow and completion to gD with the word's poison. -/
def Obligations.SyncWordRules : Prop :=
  (∀ (gd : Guard) (a b : GIx) (disp : BitVec 32) (f : Issue) (s : State) (x : SramAccess) (off : Nat),
    let i := Instr.syncinit gd a disp b
    sramOf s i = some x → Runs s i f → x.ea.toNat % 16 = 0 → placeIn s x = some off →
    ∃ t, SyncIs (scratchOf s) t off 0 ((s.g b).toNat % 2 ^ 32) ((syncGen (scratchOf s) off + 1) % 2 ^ 16) false ∧
      syncPois t off = false ∧ exec i s = .next (finish f (withScratch s t))) ∧
  (∀ (gd : Guard) (a b : GIx) (disp : BitVec 32) (f : Issue) (s : State) (x : SramAccess) (off : Nat),
    let i := Instr.syncadd gd a disp b
    sramOf s i = some x → Runs s i f → x.ea.toNat % 16 = 0 → placeIn s x = some off →
    let n := syncCount (scratchOf s) off + (s.g b).toNat
    ∃ t, SyncIs (scratchOf s) t off (min n (2 ^ 32 - 1)) (syncTarget (scratchOf s) off) (syncGen (scratchOf s) off)
        (syncOvf (scratchOf s) off || decide (2 ^ 32 ≤ n)) ∧
      (unitAt t (off / 8)).pois = (unitAt (scratchOf s) (off / 8)).pois ∧
      (unitAt t (off / 8 + 1)).pois = (unitAt (scratchOf s) (off / 8 + 1)).pois ∧
      exec i s = .next (finish f (withScratch s t))) ∧
  (∀ (gd : Guard) (a : GIx) (disp : BitVec 32) (f : Issue) (s : State) (x : SramAccess) (off : Nat),
    let i := Instr.syncwait gd a disp
    sramOf s i = some x → issueOf s i = some f → Ready s f → x.ea.toNat % 16 = 0 → placeIn s x = some off →
    (syncPois (scratchOf s) off = true → exec i s = .next (s.trapHere causePoison 0)) ∧
    (syncPois (scratchOf s) off = false → syncTarget (scratchOf s) off ≤ syncCount (scratchOf s) off → exec i s = .next (finish f s)) ∧
    (syncPois (scratchOf s) off = false → syncCount (scratchOf s) off < syncTarget (scratchOf s) off → exec i s = .next s)) ∧
  (∀ (gd : Guard) (d a : GIx) (disp : BitVec 32) (f : Issue) (s : State) (x : SramAccess) (off : Nat),
    let i := Instr.syncget gd d a disp
    sramOf s i = some x → Runs s i f → x.noDst = false → x.ea.toNat % 16 = 0 → placeIn s x = some off →
    exec i s = .next (finish f (s.putG d (BitVec.ofNat 64 (syncCount (scratchOf s) off + 2 ^ 32 * syncGen (scratchOf s) off
        + (if syncOvf (scratchOf s) off then 2 ^ 48 else 0)
        + (if syncTarget (scratchOf s) off ≤ syncCount (scratchOf s) off then 2 ^ 63 else 0)))
      (taintIn s f) (syncPois (scratchOf s) off))))

namespace Sys2Proof.Claims

-- ranges, DRAIN, INVAL, FENCE (R202 to R205)

/-- The operands of DRAIN and INVAL. -/
def rangeForm : Instr → Option (BitVec 3 × GIx × GIx)
  | .drain _ scope a b | .inval _ scope a b => some (scope, a, b)
  | _ => none

/-- A range selects a line. -/
def lineIn (rg : KeyRange) (line : Nat) : Bool :=
  match rg with
  | none => true
  | some ps => ps.any fun p => decide (p.1 < 64 * line + 64) && decide (64 * line < p.1 + p.2)

/-- A slot's release at a scope has nothing to do: no load in flight, nothing held, no record of the context in the range at a level inside
the scope; where the scope reaches the homes, no record of the slot's accesses on its way there, and at `system` scope none that is accepted
and not yet applied. -/
abbrev NothingToRelease (s : State) (scope : BitVec 3) (rg : KeyRange) : Prop :=
  let mine (r : Rec) : Prop := r.eng = false ∧ ∃ n ∈ s.names s.cc s.cur.2, n ∈ r.movers ∨ n ∈ r.srcs
  s.cs.tags = [] ∧ s.cs.hold = [] ∧
  (∀ lv ∈ inside s.cc scope, ∀ r ∈ (s.run lv).recs, r.ctx = s.block.ctx → inRange rg r.key = false) ∧
  (3 ≤ scope.toNat → ∀ x ∈ s.transit, ¬mine x.r) ∧ (scope = 4 → ∀ x ∈ s.acceptedRecs, ¬mine x.r)

/-- No floating-point record of the slot's accesses in the range is accepted and not applied, where the scope reaches the homes: its merge with
the base may still raise a flag (R45, R184). -/
abbrev NoFlagsDue (s : State) (scope : BitVec 3) (rg : KeyRange) : Prop :=
  3 ≤ scope.toNat → ∀ d ∈ s.dies.toList, ∀ a ∈ d.acceptq ++ d.hostq, a.r.eng = false → a.r.op.toNat ∈ [2, 7, 8] →
    (∃ n ∈ s.names s.cc s.cur.2, n ∈ a.r.movers ∨ n ∈ a.r.srcs) → inRange rg a.r.key = false

/-- What the scan of a range's pages has come to, with those that earlier turns of the instruction have translated. -/
def rangeScan (s : State) (a b : GIx) : Scan :=
  s.scanRange (if s.cs.rangedAt = s.cs.pc then s.cs.ranged else []) ((s.g b).toNat / 4096 + 2) (s.g a).toNat
    ((s.g a).toNat + (s.g b).toNat)
/-- The range has pages to translate: it is not every address, not empty, and not boot state's physical one (R202, R372). -/
abbrev HasPages (s : State) (b : GIx) : Prop := b ≠ 0 ∧ s.g b ≠ 0 ∧ s.block.boot = false
/-- The range of DRAIN and INVAL is known: every key, none, a physical run, or the pieces of the pages that are present; and the machine with
what the translation changed. -/
abbrev RangeIs (s : State) (a b : GIx) (t : State) (rg : KeyRange) : Prop :=
  (b = 0 ∧ t = s ∧ rg = none) ∨ (b ≠ 0 ∧ s.g b = 0 ∧ t = s ∧ rg = some []) ∨
  (b ≠ 0 ∧ s.g b ≠ 0 ∧ s.block.boot = true ∧ t = s ∧ rg = some [((s.g a).toNat, (s.g b).toNat)]) ∨
  (HasPages s b ∧ ∃ u ps, rangeScan s a b = .ok u ps ∧ t = u.setCs { u.cs with ranged := [] } ∧ rg = some ps)
/-- The physical address that the core's micro-TLB gives a byte of the slot's context. -/
abbrev ByteAt (s : State) (va pa : Nat) : Prop :=
  ∃ e, (s.core s.cc).utlb.find? (fun e => e.covers s.block.ctx (va / 4096)) = some e ∧ s.reachable (4096 * e.ppn) = true ∧
    pa = 4096 * (e.ppn + (va / 4096 - e.vpn)) + va % 4096

/-- The core without snapshots. -/
def withoutL1 (s : State) : State := s.setCore s.cc { s.core s.cc with l1 := [] }

end Sys2Proof.Claims

/-- DRAIN and INVAL, where they run, trap with illegal operand when their range ends beyond 2^48; while a page of it waits for its walk they
lose the turn, note the miss and keep what is translated (log 18). With the range known INVAL drops the core's snapshots of its lines at
`device` and `system` scope and nothing at a narrower one; DRAIN with nothing to release, and no flag of its range still to be raised at the
base (log 87), goes on with nothing else changed, and else holds its slot with its drain to begin. FENCE with nothing to release drops every snapshot at `device` and `system` scope; with `ENG` it
goes on where no record or command of its slot is still on its way (a faulted command is, log 36), with every snapshot dropped, and holds its slot otherwise; with something to release it holds its slot, its drain to begin.
A range selects the key words whose first byte is one of it, on a page that the micro-TLB has, and no other. -/
def Obligations.DrainInvalAndFence : Prop :=
  (∀ (i : Instr) (f : Issue) (s : State) (scope : BitVec 3) (a b : GIx), rangeForm i = some (scope, a, b) → Runs s i f →
    b ≠ 0 → 2 ^ 48 < (s.g a).toNat + (s.g b).toNat → exec i s = .next (s.trapHere causeOperand 0)) ∧
  (∀ (i : Instr) (f : Issue) (s : State) (scope : BitVec 3) (a b : GIx), rangeForm i = some (scope, a, b) → Runs s i f →
    (s.g a).toNat + (s.g b).toNat ≤ 2 ^ 48 → HasPages s b → ∀ u known, rangeScan s a b = .miss u known →
    exec i s = .next (u.setCs { u.cs with ranged := known, rangedAt := u.cs.pc })) ∧
  (∀ (gd : Guard) (scope : BitVec 3) (a b : GIx) (f : Issue) (s t : State) (rg : KeyRange), Runs s (.inval gd scope a b) f →
    (b = 0 ∨ (s.g a).toNat + (s.g b).toNat ≤ 2 ^ 48) → RangeIs s a b t rg →
    (scope.toNat < 3 → exec (.inval gd scope a b) s = .next (finish f t)) ∧
    (3 ≤ scope.toNat → exec (.inval gd scope a b) s = .next (finish f (t.setCore t.cc { t.core t.cc with
      l1 := (t.core t.cc).l1.filter fun (e : Snapshot) => !lineIn rg e.line })))) ∧
  (∀ (gd : Guard) (scope : BitVec 3) (a b : GIx) (f : Issue) (s t : State) (rg : KeyRange), Runs s (.drain gd scope a b) f →
    (b = 0 ∨ (s.g a).toNat + (s.g b).toNat ≤ 2 ^ 48) → RangeIs s a b t rg →
    (NothingToRelease t scope rg ∧ NoFlagsDue t scope rg → exec (.drain gd scope a b) s = .next (finish f t)) ∧
    (¬(NothingToRelease t scope rg ∧ NoFlagsDue t scope rg) → exec (.drain gd scope a b) s = .next (State.took
      ({ t with seqno := t.seqno + 1 }.setCs { t.cs with busy := some (.drain scope rg none .todo t.seqno) }) f))) ∧
  (∀ (gd : Guard) (scope : BitVec 3) (eng : Bool) (f : Issue) (s : State), Runs s (.fence gd scope eng) f →
    (NothingToRelease s scope none →
      let t := if 3 ≤ scope.toNat then withoutL1 s else s
      (eng = false → exec (.fence gd scope eng) s = .next (finish f t)) ∧
      (eng = true → t.fenceApplied t.cc t.cur.2 = true → exec (.fence gd scope eng) s = .next (finish f (withoutL1 t))) ∧
      (eng = true → t.fenceApplied t.cc t.cur.2 = false → exec (.fence gd scope eng) s = .next (State.took
        (t.setCs { t.cs with busy := some .fenceApply }) f))) ∧
    (¬NothingToRelease s scope none → exec (.fence gd scope eng) s = .next (State.took
      ({ s with seqno := s.seqno + 1 }.setCs { s.cs with busy := some (.drain scope none (some eng) .todo s.seqno) }) f))) ∧
  (∀ (s t : State) (lo hi n : Nat) (ps : List (Nat × Nat)), (hi - lo) / 4096 + 2 ≤ n → s.scanRange [] n lo hi = .ok t ps →
    ∀ key, inRange (some ps) key = true ↔ ∃ va pa, lo ≤ va ∧ va < hi ∧ ByteAt s va pa ∧ pa = 8 * key)

/-- For every state, when the drain of a context over the levels inside a scope, as R177 writes it, succeeds, no level inside the scope
holds a record of that context in the range, base memory has not changed, and no register has. Each move of a pass that a drain started
is one of its steps: the selected record of the lowest key from the cursor up goes one level out, marked with those who wait for it, and
the pass goes on behind it or ends. -/
def Obligations.DrainLeavesNothingInside : Prop :=
  (∀ (s t : State) (c : CoreId) (n : BitVec 6) (scope : BitVec 3) (rg : KeyRange) (who : List Nat),
    drain s c n scope rg who = some t →
    (∀ lv ∈ inside c scope, ∀ r ∈ (t.run lv).recs, r.ctx = n → inRange rg r.key = false) ∧ t.mem = s.mem ∧
    ∀ c' k, t.slot c' k = s.slot c' k) ∧
  (∀ (s : State) (lv : LevelId) (p : Pass) (n : BitVec 6) (rg : KeyRange) (x : Rec) (xs ys : List Rec),
    (s.run lv).pass = some p → p.sel = some (n, rg) → s.moves lv = true → (s.run lv).mustYield (s.now lv) = false →
    (s.run lv).lastMove < s.now lv → (s.run lv).recs = xs ++ x :: ys →
    (∀ y ∈ xs, ¬(p.cursor ≤ y.key ∧ y.ctx = n ∧ inRange rg y.key = true)) → p.cursor ≤ x.key → x.ctx = n → inRange rg x.key = true →
    ∀ u, moveAll (s.setRun lv { s.run lv with lastMove := s.now lv, moves := 1 }) lv p.who [x] = some u →
      exec (.derailleurMove lv) s = .next (u.setRun lv { u.run lv with
        pass := if (u.run lv).recs.any fun (y : Rec) => decide (x.key < y.key) && decide (y.ctx = n) && inRange rg y.key then
            some { p with cursor := x.key + 1 } else none }))

namespace Sys2Proof.Claims

-- tiles, rings and descriptors (spec/11)

/-- The tile, rings and descriptor that an instruction names in its block. -/
structure Named where
  tile  : Option (BitVec 5) := none
  rings : List (BitVec 3) := []
  desc  : Option (BitVec 6) := none
  deriving DecidableEq, Repr

def namedOf : Instr → Option Named
  | .tdset _ dd _ _ | .tdget _ _ _ dd => some { desc := some dd }
  | .ringcfg _ q _ _ | .ringstat _ _ q | .ringdrop _ q _ => some { rings := [q] }
  | .tzero _ ta | .tld _ ta _ _ | .tsts _ _ _ ta | .tupd _ _ _ _ ta => some { tile := some ta }
  | .mma _ ta qa qb => some { tile := some ta, rings := [qa, qb] }
  | .tcvt _ q ta => some { tile := some ta, rings := [q] }
  | _ => none

/-- A tile that is not allocated to the block; a ring or descriptor beyond its allotment (R227). -/
def noTile (s : State) (x : Named) : Bool := match x.tile with | some t => decide (s.block.nalloc ≤ t.toNat) | none => false
def noUnit (s : State) (x : Named) : Bool :=
  (x.rings.any fun q => decide (s.block.nring ≤ q.toNat)) || match x.desc with | some d => decide (s.block.ndesc ≤ d.toNat) | none => false

/-- The physical tile and ring of a number of the block, with their contents. -/
def tileNum (s : State) (t : BitVec 5) : Nat := s.block.tile0 + t.toNat
def ringNum (s : State) (q : BitVec 3) : Nat := s.block.ring0 + q.toNat
def tileIs (s : State) (t : BitVec 5) : Tile := (s.core s.cc).tile (tileNum s t)
def ringIs (s : State) (q : BitVec 3) : Ring := (s.core s.cc).ring (ringNum s q)
def withTile (s : State) (n : Nat) (x : Tile) : State := s.setCore s.cc { s.core s.cc with tiles := Sparse.set (s.core s.cc).tiles n x }
def withRing (s : State) (n : Nat) (x : Ring) : State := s.setCore s.cc { s.core s.cc with rings := Sparse.set (s.core s.cc).rings n x }
/-- The first `n` tiles of the slot's block cleared: every element 0, no poison, unlocked. -/
def clearedFrom (s t : State) (n : Nat) : State := (List.range n).foldl (fun u j => withTile u (s.block.tile0 + j) {}) t
/-- The block of the slot with another count of allocated tiles. -/
def withAlloc (s : State) (n : Nat) : State := s.setBlock s.cc s.curBlk { s.block with nalloc := n }
/-- The descriptor of a ring. -/
def ringDesc (s : State) (r : Ring) : BitVec 256 := ((s.core s.cc).desc r.desc.toNat).image

end Sys2Proof.Claims

/-- Each instruction of spec/11 that names a tile, rings or a descriptor and runs traps with the tile cause for a tile that is not
allocated to its block, and otherwise with illegal operand for a ring or descriptor that is not below the block's count. -/
def Sys2Proof.Claims.MatrixNumbersOutsideTheAllotment : Prop :=
  ∀ (i : Instr) (f : Issue) (s : State) (x : Named), namedOf i = some x → Runs s i f →
    (noTile s x = true → exec i s = .next (s.trapHere causeTile 0)) ∧
    (noTile s x = false → noUnit s x = true → exec i s = .next (s.trapHere causeOperand 0))

namespace Sys2Proof.Claims

/-- Nothing stops an instruction before its own waits (R95 step 2): its operands are ready, its guard is clean and true, and no register
makes it wait. -/
abbrev Waiting (s : State) (f : Issue) : Prop :=
  s.cs.anyPend (.p f.gd.p :: (f.reads ++ f.writes)) = false ∧ (s.cs.mark (.p f.gd.p)).pois = false ∧ s.cs.guard f.gd = true

/-- The instructions that read an image or a tile from memory, with the state of the slot they leave while it is read. -/
def imageOf (s : State) (f : Issue) (pas : List Nat) : Instr → Option Busy
  | .tdset _ dd _ _ => some (.image (.tdset (BitVec.ofNat 6 (s.block.desc0 + dd.toNat))) (taintIn s f ||| s.cs.ctaint) (s.clock s.cc)
      ((List.range 4).map fun j => { pa := pas.headD 0 + 8 * j }) s.seqno)
  | .ringcfg _ q _ _ => some (.image (.ringcfg q) (taintIn s f ||| s.cs.ctaint) (s.clock s.cc)
      ((List.range 2).map fun j => { pa := pas.headD 0 + 8 * j }) s.seqno)
  | .cpy _ d _ _ => some (.image (.cpy d) (taintIn s f ||| s.cs.ctaint) (s.clock s.cc)
      ((List.range 8).map fun j => { pa := pas.headD 0 + 8 * j }) s.seqno)
  | .bsld _ ix _ _ _ => some (.image (.bsld ix) (taintIn s f ||| s.cs.ctaint) (s.clock s.cc) (pas.map fun pa => { pa := pa }) s.seqno)
  | .tld _ ta _ _ => some (.tld (tileNum s ta) (taintIn s f ||| s.cs.ctaint) (s.clock s.cc)
      ((List.range 128).map fun j => { pa := pas.getD (j / 8) 0 + 8 * (j % 8) }) s.seqno)
  | _ => none

end Sys2Proof.Claims

/-- Each of these (TDSET, RINGCFG, TLD, CPY and BSLD), where it runs, its numbers are in the allotment, its addresses aligned and translated (for TLD those of its sixteen
lines), issues and holds its slot at its pc with the words still to be read and the taint it waits for, and changes no register.
RINGCFG on a ring that is not idle loses the turn, before any of its checks. BSLD traps with illegal operand when its words end beyond index 1,023, and with no words it
ends at once. -/
def Obligations.ImageReadsHoldTheirSlot : Prop :=
  (∀ (i : Instr) (f : Issue) (s : State) (x : Access) (pas : List Nat) (b : Busy), accessOf s i = some x → Placed s x pas →
    imageOf s f pas i = some b → Runs s i f →
    exec i s = .next (State.took ({ s with seqno := s.seqno + 1 }.setCs { s.cs with busy := some b }) f)) ∧
  (∀ (gd : Guard) (q : BitVec 3) (a : GIx) (disp : BitVec 32) (f : Issue) (s : State),
    issueOf s (.ringcfg gd q a disp) = some f → Waiting s f → q.toNat < s.block.nring → (s.core s.cc).ringIdle (ringNum s q) = false → exec (.ringcfg gd q a disp) s = .next s) ∧
  (∀ (gd : Guard) (ix : BitVec 10) (a b : GIx) (disp : BitVec 32) (f : Issue) (s : State), Runs s (.bsld gd ix a disp b) f →
    (1024 < ix.toNat + (s.g b).toNat → exec (.bsld gd ix a disp b) s = .next (s.trapHere causeOperand 0)) ∧
    ((s.g b).toNat = 0 → exec (.bsld gd ix a disp b) s = .next (finish f s)))

namespace Sys2Proof.Claims

/-- An instruction of spec/11 that waits for a ring to be idle or for tiles to be unlocked (R234, R236, R238, R240). -/
def lockedFor (s : State) : Instr → Bool
  | .ringdrop _ q _ => decide (q.toNat < s.block.nring) && !(s.core s.cc).ringIdle (ringNum s q)
  | .tilerel _ => (List.range s.block.nalloc).any fun j => decide (((s.core s.cc).tile (s.block.tile0 + j)).busy ≠ 0)
  | .tzero _ ta | .tsts _ _ _ ta | .tupd _ _ _ _ ta => decide (ta.toNat < s.block.nalloc) && decide ((tileIs s ta).busy ≠ 0)
  | _ => false

end Sys2Proof.Claims

/-- Where they run and their numbers are in the allotment: RINGSTAT writes the ring's counts to gD with the guard's taint, 0 for a ring that
is not configured. RINGDROP on an idle ring advances its head by the count, or by every committed slot for 0 or more than there are, and
gives up reservations and the open segment. TILECFG allocates and clears the first gA tiles, with its traps; TILEREL frees them; TZERO
clears a tile. TSTS of an unlocked tile puts its sixteen rows in the store queue, one a cycle, at a place of the scratchpad. RINGDROP on a
ring that is not idle, TILEREL with a locked tile, and TZERO and TSTS of a locked tile lose the turn, before any trap of their own. (Where
an access to the scratchpad that runs out of the allotment traps is the model's reading, log 65.) -/
def Sys2Proof.Claims.RingAndTileInstructions : Prop :=
  (∀ (gd : Guard) (d : GIx) (q : BitVec 3) (f : Issue) (s : State), Runs s (.ringstat gd d q) f → q.toNat < s.block.nring →
    let r := ringIs s q
    exec (.ringstat gd d q) s = .next (finish f (s.putG d (if r.cfg = true then BitVec.ofNat 64
      (r.head.toNat + 2 ^ 12 * r.tail.toNat + 2 ^ 24 * r.resv.toNat + 2 ^ 36 * r.cons.toNat + 2 ^ 48 + 2 ^ 52 * r.iseg.toNat
        + 2 ^ 57 * r.depth.toNat) else 0) (guardTaint s f) false))) ∧
  (∀ (gd : Guard) (q : BitVec 3) (count : BitVec 16) (f : Issue) (s : State), Runs s (.ringdrop gd q count) f → q.toNat < s.block.nring →
    let r := ringIs s q
    let n := (r.tail.toNat + 4096 - r.head.toNat) % 4096
    let h := BitVec.ofNat 12 (r.head.toNat + if count = 0 ∨ n ≤ count.toNat then n else count.toNat)
    exec (.ringdrop gd q count) s = .next (finish f (withRing s (ringNum s q)
      (if r.cfg = true then { r with head := h, cons := h, resv := r.tail, iseg := 0 } else r)))) ∧
  (∀ (i : Instr) (f : Issue) (s : State), lockedFor s i = true → issueOf s i = some f → Waiting s f → exec i s = .next s) ∧
  (∀ (gd : Guard) (a : GIx) (f : Issue) (s : State), Runs s (.tilecfg gd a) f →
    let n := (s.g a).toNat
    (s.block.nalloc ≠ 0 → exec (.tilecfg gd a) s = .next (s.trapHere causeTile 0)) ∧
    (s.block.nalloc = 0 → (n = 0 ∨ s.block.ntile < n) → exec (.tilecfg gd a) s = .next (s.trapHere causeOperand 0)) ∧
    (s.block.nalloc = 0 → 0 < n → n ≤ s.block.ntile → exec (.tilecfg gd a) s = .next (finish f (clearedFrom s (withAlloc s n) n)))) ∧
  (∀ (gd : Guard) (f : Issue) (s : State), Runs s (.tilerel gd) f →
    exec (.tilerel gd) s = .next (finish f (clearedFrom s (withAlloc s 0) s.block.nalloc))) ∧
  (∀ (gd : Guard) (ta : BitVec 5) (f : Issue) (s : State), Runs s (.tzero gd ta) f → ta.toNat < s.block.nalloc →
    exec (.tzero gd ta) s = .next (finish f (withTile s (tileNum s ta) {}))) ∧
  (∀ (gd : Guard) (a : GIx) (disp : BitVec 32) (ta : BitVec 5) (f : Issue) (s : State), Runs s (.tsts gd a disp ta) f →
    ta.toNat < s.block.nalloc →
    let ea := s.g a + disp.signExtend 64
    let x := tileIs s ta
    (ea.toNat % 64 ≠ 0 → exec (.tsts gd a disp ta) s = .next (s.trapHere causeMisaligned ea)) ∧
    (ea.toNat % 64 = 0 → s.block.scrsize < ea.toNat + 1024 → exec (.tsts gd a disp ta) s = .next (s.trapHere causePermission ea)) ∧
    (ea.toNat % 64 = 0 → ea.toNat + 1024 ≤ s.block.scrsize →
      exec (.tsts gd a disp ta) s = .next (finish f (s.setCore s.cc { s.core s.cc with
        stores := (s.core s.cc).stores ++ (List.range 16).map fun j =>
          (s.clock s.cc + j, false, s.block.scrbase + ea.toNat + 64 * j,
            (List.range 64).map fun n => (BitVec.ofNat 8 (x.val.toNat / 256 ^ (64 * j + n)), x.pois.getLsbD j)) }))))

namespace Sys2Proof.Claims

/-- Some other running slot of the core has waited longer for the matrix queue (R294). -/
def longerWait (s : State) : Bool :=
  (List.range 16).any fun j =>
    decide (j ≠ s.cur.2.toNat) && match (s.core s.cc).slots[j]? with
      | none => false
      | some y => decide (y.st = .running) && !y.stop && !y.stopped && match y.mxSince, s.cs.mxSince with
          | none, _ => false
          | some _, none => true
          | some a, some b => decide (a < b)
/-- The matrix queue has an entry for the slot (R241, R294). -/
def queueRoom (s : State) : Bool := decide ((s.core s.cc).mx.length < 4) && !longerWait s
/-- The machine after a turn lost to a full queue: the slot waits from now on. -/
def queued (s : State) : State :=
  if s.cs.mxSince = none then { s with seqno := s.seqno + 1 }.setCs { s.cs with mxSince := some s.seqno } else s
/-- An operation in the queue: its tile is locked once more. -/
def entered (s : State) (o : MxOp) : State :=
  let x := s.core s.cc
  let t := x.tile o.tile
  let u := s.setCore s.cc { x with mx := x.mx ++ [o], tiles := Sparse.set x.tiles o.tile { t with busy := t.busy + 1 } }
  u.setCs { u.cs with mxSince := none }
/-- One more slot of a ring claimed. -/
def claimed (s : State) (n : Nat) : State := withRing s n { (s.core s.cc).ring n with cons := ((s.core s.cc).ring n).cons + 1 }

end Sys2Proof.Claims

/-- MMA, where no register stops it, waits while the queue of four is full or another slot has waited longer; else, when the governor's budget is used
up, it counts a stall (only here: log 33) and loses the turn. These waits come before any trap of its own (R8, R380). Then, its numbers in the
allotment, it traps with illegal operand when a ring is not configured or the two descriptors differ in K, Hadamard run or integer class; else it
counts in `USED`, claims the next slot of each ring, locks its tile, and its operation enters the queue with the captured descriptors and FPCR. -/
def Sys2Proof.Claims.MmaIssue : Prop :=
  ∀ (gd : Guard) (ta : BitVec 5) (qa qb : BitVec 3) (f : Issue) (s : State), issueOf s (.mma gd ta qa qb) = some f → Ready s f →
    let here := ta.toNat < s.block.nalloc ∧ qa.toNat < s.block.nring ∧ qb.toNat < s.block.nring
    let ra := ringIs s qa
    let rb := ringIs s qb
    let da := ringDesc s ra
    let db := ringDesc s rb
    let bad := ra.cfg = false ∨ rb.cfg = false ∨ fmtK (descFmt da) ≠ fmtK (descFmt db) ∨ descH da ≠ descH db ∨
      decide (descFmt da < 2) ≠ decide (descFmt db < 2)
    let x := s.core s.cc
    let allowed := x.budget = 0 ∨ x.used.toNat < x.budget.toNat
    let o : MxOp := {
      tcvt := false, blk := s.curBlk, ctx := s.block.ctx, tile := tileNum s ta, qa := ringNum s qa, qb := ringNum s qb, ca := ra.cons,
      cb := rb.cons, da := da, db := db, fpcr := s.cs.fpcr, issued := s.clock s.cc }
    let t := s.setCore s.cc { x with used := x.used + 1 }
    let t := claimed t (ringNum s qa)
    (queueRoom s = false → exec (.mma gd ta qa qb) s = .next (queued s)) ∧
    (queueRoom s = true → ¬allowed → exec (.mma gd ta qa qb) s = .next
      ((s.setCore s.cc { x with stalls := BitVec.ofNat 32 (min (x.stalls.toNat + 1) (2 ^ 32 - 1)) }).setCs { s.cs with mxSince := none })) ∧
    (queueRoom s = true → allowed → here → bad → exec (.mma gd ta qa qb) s = .next (s.trapHere causeOperand 0)) ∧
    (queueRoom s = true → allowed → here → ¬bad → exec (.mma gd ta qa qb) s = .next
      (finish f (entered (if qa = qb then t else claimed t (ringNum s qb)) o)))

/-- TCVT, where no register stops it, waits for a queue entry; then its first segment waits for a free slot of its configured ring behind earlier
copies, and no longer for the queue. These waits come before any trap of its own (R8, R380). Then, its numbers in the allotment, it traps with
illegal operand when the ring is not configured or the descriptor has an MX format or a 32-element Hadamard run; else it reserves a slot with its first segment, opens the next segment, locks the tile, and enters the queue; under
`rsr` it steps the slot's generator once and the engine's seed is the new state, bits reversed, but for an `fp32` ring (the model's
reading, log 32). -/
def Sys2Proof.Claims.TcvtIssue : Prop :=
  ∀ (gd : Guard) (q : BitVec 3) (ta : BitVec 5) (f : Issue) (s : State), issueOf s (.tcvt gd q ta) = some f → Ready s f →
    let here := ta.toNat < s.block.nalloc ∧ q.toNat < s.block.nring
    let r := ringIs s q
    let n := ringNum s q
    let d := ringDesc s r
    let bad := descFmt d ∈ [10, 11, 12] ∨ descH d = 2
    let copyFirst := (s.core s.cc).slots.toList.any fun (y : Slot) => decide (y.blk = s.cs.blk) && match y.busy with
      | some (.cpy _ im _ _) => decide (im.toNat % 16 = 1) && decide (s.block.ring0 + im.toNat / 2 ^ 32 % 8 = n)
      | _ => false
    let full := q.toNat < s.block.nring ∧ r.cfg = true ∧ r.iseg = 0 ∧ (r.depth.toNat ≤ (r.resv.toNat + 4096 - r.head.toNat) % 4096 ∨ copyFirst = true)
    let draws := s.cs.fpcr.toNat % 8 = 5 ∧ descFmt d ≠ 9
    let g := lfsrStep (s.srSeed s.cc s.cs) (s.cs.fpcr.extractLsb' 32 32)
    let resv := if r.iseg = 0 then r.resv + 1 else r.resv
    let o : MxOp := {
      tcvt := true, blk := s.curBlk, ctx := s.block.ctx, tile := tileNum s ta, qa := n, qb := n, ca := resv - 1, cb := 0, da := d, db := 0,
      seg := r.iseg, fpcr := s.cs.fpcr, gsr := if draws then g.reverse else 0, issued := s.clock s.cc }
    let t := if draws then withGen s g else s
    (queueRoom s = false → exec (.tcvt gd q ta) s = .next (queued s)) ∧
    (queueRoom s = true → full →
      exec (.tcvt gd q ta) s = .next (if s.cs.mxSince = none then s else s.setCs { s.cs with mxSince := none })) ∧
    (queueRoom s = true → ¬full → here → (r.cfg = false ∨ bad) → exec (.tcvt gd q ta) s = .next (s.trapHere causeOperand 0)) ∧
    (queueRoom s = true → ¬full → here → r.cfg = true → ¬bad → exec (.tcvt gd q ta) s = .next (finish f (entered
      (withRing t n { r with resv := resv, iseg := BitVec.ofNat 5 ((r.iseg.toNat + 1) % (fmtK (descFmt d) / 16)) }) o)))

namespace Sys2Proof.Claims

-- the copy engine's instructions, DSMODE, the sequencer's instructions (spec/12)

/-- A command slot's content as seen by the block of the current slot. -/
def cmdAt (s : State) (n : Nat) : Option Cmd := Sparse.find (s.core s.cc).cmds n
/-- CPYSTAT's word (R254): units delivered, cause, state. -/
def cmdWord (m : Cmd) : Nat :=
  m.done % 2 ^ 32 + match m.st with
    | .faulted cause _ => 2 ^ 52 * cause.toNat + 2 ^ 63
    | .running => 2 ^ 62
    | .paused => 2 ^ 62
/-- The command is faulted. -/
def isFaulted (m : Cmd) : Bool := match m.st with | .faulted _ _ => true | .running => false | .paused => false
/-- The slot's generator stepped (R50), and the engine's seed after it (R52). -/
def genStepped (s : State) (k : BitVec 4) : State :=
  let x := s.slot s.cc k
  s.setSlot s.cc k { x with fpcr := lfsrStep (s.srSeed s.cc x) (x.fpcr.extractLsb' 32 32) ++ x.fpcr.extractLsb' 0 32 }
def engineSeedOf (s : State) (k : BitVec 4) : BitVec 32 := ((s.slot s.cc k).fpcr.extractLsb' 32 32).reverse
/-- What waits for a translation in the name of a command is forgotten (R306). -/
def forgetWaits (s : State) (n : Nat) : State :=
  s.setDie s.cc.die { s.die s.cc.die with
    misses := (s.die s.cc.die).misses.filter fun (x : Miss) => !(decide (x.core = s.cc) && decide (x.who = 16 + n)) }
/-- A command that draws from a generator: TILE under `rsr` into a ring whose format is not `fp32` (R42, R52). -/
def cmdDraws (m : Cmd) : Bool := decide (m.image.toNat % 16 = 1) && decide (m.fpcr.toNat % 8 = 5) && decide (descFmt m.ddesc ≠ 9)

end Sys2Proof.Claims

/-- CPYSTAT, where it runs, traps with illegal operand for a command number above 7 and writes the word of the command, 0 for a free slot or
another block's command, to gD with the guard's taint. CPYRES traps with illegal operand unless its value has only a number and the
abandon bit and names a faulted command of the block; with the abandon bit the slot is freed, and either way what waits for a translation in the
command's name is forgotten; otherwise the command runs again from its
unit, with its generator taken anew from its slot where it draws from one (into an `fp32` ring none does: the model's reading, log 32). -/
def Sys2Proof.Claims.CopyStatusAndResume : Prop :=
  (∀ (gd : Guard) (d a : GIx) (f : Issue) (s : State), Runs s (.cpystat gd d a) f →
    (8 ≤ (s.g a).toNat → exec (.cpystat gd d a) s = .next (s.trapHere causeOperand 0)) ∧
    ((s.g a).toNat < 8 → ∀ w, w = (match cmdAt s (s.g a).toNat with
        | some m => if m.blk = s.curBlk then cmdWord m else 0
        | none => 0) →
      exec (.cpystat gd d a) s = .next (finish f (s.putG d (BitVec.ofNat 64 w) (guardTaint s f) false)))) ∧
  (∀ (gd : Guard) (a : GIx) (f : Issue) (s : State), Runs s (.cpyres gd a) f →
    let n := (s.g a).toNat % 8
    let drop := (s.g a).getLsbD 8
    let good := (s.g a).toNat = n + (if drop then 256 else 0)
    ((¬good ∨ cmdAt s n = none) → exec (.cpyres gd a) s = .next (s.trapHere causeOperand 0)) ∧
    (∀ m, good → cmdAt s n = some m → (isFaulted m = false ∨ m.blk ≠ s.curBlk) →
      exec (.cpyres gd a) s = .next (s.trapHere causeOperand 0)) ∧
    (∀ m, good → cmdAt s n = some m → isFaulted m = true → m.blk = s.curBlk → drop = true → exec (.cpyres gd a) s = .next (finish f
      ((forgetWaits s n).setCore s.cc { s.core s.cc with cmds := (s.core s.cc).cmds.filter fun (e : Nat × Cmd) => decide (e.1 ≠ n) }))) ∧
    (∀ m, good → cmdAt s n = some m → isFaulted m = true → m.blk = s.curBlk → drop = false →
      let t := if cmdDraws m then genStepped s m.slot else s
      let g := if cmdDraws m then engineSeedOf t m.slot else m.gsr
      exec (.cpyres gd a) s = .next (finish f ((forgetWaits t n).setCore t.cc { t.core t.cc with
        cmds := Sparse.set (t.core t.cc).cmds n { m with st := .running, issued := s.clock s.cc, seed := g, gsr := g, reading := none } }))))

namespace Sys2Proof.Claims

/-- The groups that a mask names, and the slab of the current core. -/
def groupsOf (v : Word) : List Nat := (List.range 12).filter fun g => v.getLsbD g
def slabOf (s : State) : Slab := s.slab s.cc
/-- A group named that the context does not hold, or that is fenced (R255). -/
def groupBad (s : State) (g : Nat) : Bool :=
  let y := s.ctx s.block.ctx
  decide (g < y.first) || decide (y.first + y.count ≤ g) || (slabOf s).fenced.contains g
/-- A sequencer of the current core's slab. -/
def withSeq (s : State) (q : Sequencer) : State := s.setSlab s.cc { slabOf s with seq := q }

end Sys2Proof.Claims

/-- DSMODE, where no register and no taint stops it: where it names a group, it loses the turn while the sequencer runs, a command or an LDD of the core
reaches the slab, or a named group is changing, before its checks (R8, R380). Else it traps with illegal operand for bits above 11 or for a group
that the context does not hold or that is fenced; ends at once when it names no group or every group has the mode; otherwise the groups of
another mode begin to change and it holds its slot. -/
def Sys2Proof.Claims.DsmodeChecksAndStart : Prop :=
  ∀ (gd : Guard) (mode : BitVec 2) (a : GIx) (f : Issue) (s : State), issueOf s (.dsmode gd mode a) = some f → Ready s f →
    tainted s (.dsmode gd mode a) = false →
    let v := s.g a
    let gs := groupsOf v
    let moved := gs.filter fun g => decide (Sparse.get 0 (slabOf s).modes g ≠ mode)
    let waits := gs ≠ [] ∧ s.dsBusy s.cc gs = true
    (waits → exec (.dsmode gd mode a) s = .next s) ∧
    (¬waits → (4096 ≤ v.toNat ∨ gs.any (groupBad s) = true) → exec (.dsmode gd mode a) s = .next (s.trapHere causeOperand 0)) ∧
    (¬waits → v.toNat < 4096 → gs.any (groupBad s) = false →
      (moved = [] → exec (.dsmode gd mode a) s = .next (finish f s)) ∧
      (moved ≠ [] →
        let t := s.setSlab s.cc { slabOf s with changing := moved.foldl (fun t g => Sparse.set t g mode) (slabOf s).changing }
        exec (.dsmode gd mode a) s = .next (State.took (t.setCs { t.cs with busy := some (.dsmode (BitVec.ofNat 12 v.toNat)) }) f)))

namespace Sys2Proof.Claims

/-- BSSTAT's word (R256). -/
def seqWord (q : Sequencer) : Nat :=
  q.pc.toNat + 2 ^ 23 * q.lidx.toNat + 2 ^ 33 * q.ofs.toNat + 2 ^ 41 * q.lc.toNat + (if q.lact then 2 ^ 49 else 0)
    + 2 ^ 52 * q.scause.toNat + (match q.st with | .idle => 0 | .running => 2 ^ 58 * q.owner.toNat + 2 ^ 62 | .stopped => 2 ^ 58 * q.owner.toNat + 2 ^ 63)

end Sys2Proof.Claims

/-- BSRUN, where no register and no taint stops it, loses the turn while the sequencer runs or is stopped for another slot, before its checks (R8, R380).
Else it traps with illegal operand for an index above 1,023, and with the deep-scratch cause where no group of the holding is in compute mode
(TRAPADDR has then no stated value); otherwise it starts the sequencer at the index with gB as its parameter and no loop (log 64). BSRES of the owner of a stopped run goes on with it, and
traps with illegal operand otherwise or after cause 4. BSSTAT writes the sequencer's state to gD. -/
def Obligations.SequencerInstructions : Prop :=
  (∀ (gd : Guard) (a b : GIx) (f : Issue) (s : State), issueOf s (.bsrun gd a b) = some f → Ready s f → tainted s (.bsrun gd a b) = false →
    let q := (slabOf s).seq
    let busy := q.st = .running ∨ (q.st = .stopped ∧ q.owner ≠ s.cur.2)
    (busy → exec (.bsrun gd a b) s = .next s) ∧
    (¬busy → 1024 ≤ (s.g a).toNat → exec (.bsrun gd a b) s = .next (s.trapHere causeOperand 0)) ∧
    (¬busy → (s.g a).toNat < 1024 → s.computeGroups s.cc s.block.ctx = [] →
      ∃ v, exec (.bsrun gd a b) s = .next ({ s with fresh := s.fresh + 1 }.trapHere causeDeep v)) ∧
    (¬busy → (s.g a).toNat < 1024 → s.computeGroups s.cc s.block.ctx ≠ [] → exec (.bsrun gd a b) s = .next (finish f (withSeq s { q with
      st := .running, owner := s.cur.2, pc := BitVec.ofNat 10 (s.g a).toNat, ofs := BitVec.ofNat 8 (s.g b).toNat, lact := false,
      lidx := 0, lc := 0, param := s.g b, ppois := (s.cs.mark (.g b)).pois, scause := 0, ctx := s.block.ctx, due := s.clock s.cc })))) ∧
  (∀ (gd : Guard) (f : Issue) (s : State), Runs s (.bsres gd) f →
    let q := (slabOf s).seq
    let may := q.st = .stopped ∧ q.owner = s.cur.2 ∧ q.scause.toNat ≠ 4
    (may → exec (.bsres gd) s = .next (finish f (withSeq s { q with st := .running, scause := 0, due := s.clock s.cc }))) ∧
    (¬may → exec (.bsres gd) s = .next (s.trapHere causeOperand 0))) ∧
  (∀ (gd : Guard) (d : GIx) (f : Issue) (s : State), Runs s (.bsstat gd d) f →
    exec (.bsstat gd d) s = .next (finish f (s.putG d (BitVec.ofNat 64 (seqWord (slabOf s).seq)) (guardTaint s f) false)))

namespace Sys2Proof.Claims

-- barriers, messages, the gateway queue (R263 to R271)

/-- A barrier register of the block (R245), its number on the core, and its replacement. -/
def barNum (s : State) (bb : BitVec 2) : Nat := s.block.bar0 + bb.toNat
def barIs (s : State) (bb : BitVec 2) : Barrier := Sparse.get {} (s.core s.cc).bars (barNum s bb)
def withBar (s : State) (n : Nat) (b : Barrier) : State := s.setCore s.cc { s.core s.cc with bars := Sparse.set (s.core s.cc).bars n b }
/-- The barrier register that an instruction names. -/
def barOfInstr : Instr → Option (BitVec 2)
  | .barcfg _ bb _ | .bararr _ bb | .barwait _ bb => some bb
  | _ => none
/-- A phase captured by the current slot. -/
def captured (s : State) (n : Nat) (p : BitVec 16) : State := s.setCs { s.cs with caps := Sparse.set s.cs.caps n p }
/-- The captured phases of a register dropped in a block's slots. -/
def forgets (blk n : Nat) (z : Slot) : Slot :=
  if z.blk = some blk then { z with caps := z.caps.filter fun (p : Nat × BitVec 16) => decide (p.1 ≠ n) } else z
def forgotten (s : State) (blk n : Nat) : State := s.setCore s.cc { s.core s.cc with slots := (s.core s.cc).slots.map (forgets blk n) }
/-- The corner and participant fields of BARCFG's value (R263). -/
def fieldAt (v : Word) (lo w : Nat) : Nat := v.toNat / 2 ^ lo % 2 ^ w
def barFields (v : Word) : Nat :=
  fieldAt v 0 5 + 2 ^ 8 * fieldAt v 8 5 + 2 ^ 16 * fieldAt v 16 5 + 2 ^ 24 * fieldAt v 24 5 + 2 ^ 32 * fieldAt v 32 4

end Sys2Proof.Claims

/-- Each traps with illegal operand for a register beyond the block's. BARCFG also traps for reserved bits, an empty
rectangle, one that does not cover the core, or a register with arrivals; otherwise the register takes the rectangle, participants and
context with phase 0 and no arrivals (done signals that had reached it for the same rectangle and context may stay: the model's choice,
log 25), and the block's captured phases of it are dropped. BARARR loses the turn while all have arrived;
otherwise it counts one arrival and the slot captures the phase. BARWAIT loses the turn while the captured phase is the register's. -/
def Sys2Proof.Claims.BarrierInstructions : Prop :=
  (∀ (i : Instr) (f : Issue) (s : State) (bb : BitVec 2), barOfInstr i = some bb → Runs s i f → s.block.nbar ≤ bb.toNat →
    exec i s = .next (s.trapHere causeOperand 0)) ∧
  (∀ (gd : Guard) (bb : BitVec 2) (a : GIx) (f : Issue) (s : State), Runs s (.barcfg gd bb a) f → bb.toNat < s.block.nbar →
    let v := s.g a
    let old := barIs s bb
    let b : Barrier := {
      ctx := s.block.ctx, x0 := BitVec.ofNat 5 v.toNat, y0 := BitVec.ofNat 5 (fieldAt v 8 5), x1 := BitVec.ofNat 5 (fieldAt v 16 5),
      y1 := BitVec.ofNat 5 (fieldAt v 24 5), narr := BitVec.ofNat 4 (fieldAt v 32 4) }
    let x := s.cc.x.toNat
    let y := s.cc.y.toNat
    let bad := v.toNat ≠ barFields v ∨ fieldAt v 16 5 < fieldAt v 0 5 ∨ fieldAt v 24 5 < fieldAt v 8 5 ∨
      ¬(fieldAt v 0 5 ≤ x ∧ x ≤ fieldAt v 16 5 ∧ fieldAt v 8 5 ≤ y ∧ y ≤ fieldAt v 24 5) ∨ old.count ≠ 0
    (bad → exec (.barcfg gd bb a) s = .next (s.trapHere causeOperand 0)) ∧
    (¬bad → ∃ e w : Bool, (old.same b = false → e = false ∧ w = false) ∧
      exec (.barcfg gd bb a) s = .next (finish f (forgotten (withBar s (barNum s bb) { b with east := e, below := w }) s.curBlk bb.toNat)))) ∧
  (∀ (gd : Guard) (bb : BitVec 2) (f : Issue) (s : State), issueOf s (.bararr gd bb) = some f → Ready s f →
    tainted s (.bararr gd bb) = false → bb.toNat < s.block.nbar →
    let b := barIs s bb
    (b.narr.toNat < b.count.toNat → exec (.bararr gd bb) s = .next s) ∧
    (b.count.toNat ≤ b.narr.toNat → exec (.bararr gd bb) s = .next (finish f
      (captured (withBar s (barNum s bb) { b with count := b.count + 1 }) bb.toNat b.phase)))) ∧
  (∀ (gd : Guard) (bb : BitVec 2) (f : Issue) (s : State), issueOf s (.barwait gd bb) = some f → Ready s f →
    tainted s (.barwait gd bb) = false → bb.toNat < s.block.nbar →
    (Sparse.find s.cs.caps bb.toNat = some (barIs s bb).phase → exec (.barwait gd bb) s = .next s) ∧
    (Sparse.find s.cs.caps bb.toNat ≠ some (barIs s bb).phase → exec (.barwait gd bb) s = .next (finish f s)))

namespace Sys2Proof.Claims

/-- Words of the block's scratchpad with their poison. -/
def scratchMsg (s : State) (off n : Nat) : List MsgWord :=
  (List.range n).map fun j => ⟨BitVec.ofNat 64 (sramNum (scratchOf s) (off + 8 * j) 8), sramPois (scratchOf s) (off + 8 * j) 8⟩
/-- A message of the current slot on its outbound queue (R267). -/
def sends (s : State) (tag : Byte) (ws : List MsgWord) : State :=
  let d := s.cs.mdest
  let m : Msg := {
    src := s.cc, sslot := s.cur.2, score := s.lnumOf s.cc, ctx := s.block.ctx, boot := s.block.boot, ddie := BitVec.ofNat 3 (fieldAt d 30 3),
    dcore := BitVec.ofNat 10 (fieldAt d 20 10), dslot := BitVec.ofNat 4 (fieldAt d 16 4), gen := BitVec.ofNat 16 d.toNat, tag := tag,
    words := ws, sent := s.seqno }
  { s with seqno := s.seqno + 1 }.setCore s.cc { s.core s.cc with outq := (s.core s.cc).outq ++ [m] }
/-- INPOP's word of a message (R269). -/
def popWord (m : InMsg) : Nat :=
  m.tag.toNat + 2 ^ 8 * m.nw.toNat + 2 ^ 16 * (m.words.length % 32) + 2 ^ 33 * m.sslot.toNat + 2 ^ 37 * m.score.toNat
    + 2 ^ 47 * m.sdie.toNat + 2 ^ 50 * m.kind.toNat
/-- The spoke whose gateway the core is. -/
def gateOf (s : State) : Option Nat := (List.range 32).find? fun n => ((s.spokes[n]?).getD {}).gates.contains s.cc
/-- The gateway queue of a spoke: words with the cycle in which each came. -/
def gqOf (s : State) (n : Nat) : List (Word × Nat) := ((s.spokes[n]?).getD {}).gq
/-- How many words have been taken from it in this cycle. -/
def gqGone (s : State) (n : Nat) : Nat :=
  let x := (s.spokes[n]?).getD {}
  if x.gqTook.1 = s.clock s.cc then x.gqTook.2 else 0
def withGq (s : State) (n : Nat) (ws : List (Word × Nat)) : State :=
  { s with spokes := s.spokes.setIfInBounds n { (s.spokes[n]?).getD {} with gq := ws } }
/-- One word taken from it. -/
def tookGq (s : State) (n : Nat) (ws : List (Word × Nat)) : State :=
  { s with spokes := s.spokes.setIfInBounds n { (s.spokes[n]?).getD {} with gq := ws, gqTook := (s.clock s.cc, 1 + gqGone s n) } }
/-- An instruction on a queue that has nothing to take or no room (R267, R269, R271). Of the gateway queue a turn sees what it was when the
cycle began (R8). -/
def queueWait (s : State) : Instr → Bool
  | .send _ _ _ _ _ => decide (8 ≤ (s.core s.cc).outq.length)
  | .inpop _ _ => decide (s.cs.inbox = [])
  | .gqtake _ _ => match gateOf s with | some n => (gqOf s n).all fun e => decide (s.clock s.cc ≤ e.2) | none => false
  | .gqput _ _ => match gateOf s with | some n => decide (64 ≤ (gqOf s n).length + gqGone s n) | none => false
  | _ => false

end Sys2Proof.Claims

/-- SEND loses the turn while the outbound queue has its 8 messages, INPOP on an empty inbox, GQTAKE while no word of an earlier cycle is in the
gateway queue, GQPUT while its 64 places are taken (those emptied in this cycle among them): before any trap of their own. Where they
run: SEND traps for a misaligned address or one whose words leave the allotment, then for a bad MDEST, and otherwise queues one message of
its words with MDEST's destination (which of two traps comes first, and where an access that runs out of the allotment traps, is the
model's reading, logs 38 and 65); INPOP takes the head message and writes its header to gD; GQTAKE and GQPUT trap on a core that is no
gateway; GQTAKE takes the oldest word; GQPUT appends gA with `ORIG` 0xFF and bits 62 to 56 clear. -/
def Sys2Proof.Claims.MessageInstructions : Prop :=
  (∀ (gd : Guard) (tag : Byte) (nw : BitVec 4) (a : GIx) (disp : BitVec 32) (f : Issue) (s : State), Runs s (.send gd tag nw a disp) f →
    let ea := s.g a + disp.signExtend 64
    let n := nw.toNat + 1
    let i := Instr.send gd tag nw a disp
    (ea.toNat % 8 ≠ 0 → exec i s = .next (s.trapHere causeMisaligned ea)) ∧
    (ea.toNat % 8 = 0 → s.block.scrsize < ea.toNat + 8 * n → exec i s = .next (s.trapHere causePermission ea)) ∧
    (ea.toNat % 8 = 0 → ea.toNat + 8 * n ≤ s.block.scrsize →
      (s.badDest = true → exec i s = .next (s.trapHere causeBadDest 0)) ∧
      (s.badDest = false →
        exec i s = .next (finish f (sends s tag (scratchMsg s (s.block.scrbase + ea.toNat) n)))))) ∧
  (∀ (gd : Guard) (d : GIx) (f : Issue) (s : State), Runs s (.inpop gd d) f →
    (∀ m ms, s.cs.inbox = m :: ms → exec (.inpop gd d) s = .next (finish f
      ((s.setCs { s.cs with inbox := ms }).putG d (BitVec.ofNat 64 (popWord m)) (guardTaint s f) false)))) ∧
  (∀ (gd : Guard) (d : GIx) (f : Issue) (s : State), Runs s (.gqtake gd d) f →
    (gateOf s = none → exec (.gqtake gd d) s = .next (s.trapHere causeOperand 0)) ∧
    (∀ n w ws, gateOf s = some n → gqOf s n = w :: ws →
      exec (.gqtake gd d) s = .next (finish f ((tookGq s n ws).putG d w.1 (guardTaint s f) false)))) ∧
  (∀ (gd : Guard) (a : GIx) (f : Issue) (s : State), Runs s (.gqput gd a) f →
    (gateOf s = none → exec (.gqput gd a) s = .next (s.trapHere causeOperand 0)) ∧
    (∀ n, gateOf s = some n → exec (.gqput gd a) s = .next (finish f (withGq s n (gqOf s n ++
      [(BitVec.ofNat 64 (fieldAt (s.g a) 0 48 + 2 ^ 48 * 0xFF + 2 ^ 63 * fieldAt (s.g a) 63 1), s.clock s.cc)]))))) ∧
  (∀ (i : Instr) (f : Issue) (s : State), queueWait s i = true → issueOf s i = some f → Waiting s f → exec i s = .next s)

namespace Sys2Proof.Claims

-- traps and system instructions (spec/18 R309 to R317)

/-- TRAPCAUSE after the entry of a handler (R309, R310): the cause, `INTRAP`, and the pending fields as before. -/
abbrev CauseEntered (old new : Word) (cause : Byte) : Prop :=
  ∀ j, j < 64 → new.getLsbD j = if j < 8 then cause.getLsbD j else if j = 8 then true else if j < 18 then old.getLsbD j else false
/-- A slot in its handler: TRAPPC, TRAPADDR and TRAPCAUSE written, the pc at TRAPVEC, every other register as before. -/
def inHandler (s : State) (c : CoreId) (k : BitVec 4) (tc addr : Word) (tpc : BitVec 48) : State :=
  let x := s.slot c k
  s.setSlot c k { x with
    trappc := BitVec.ofNat 64 tpc.toNat, trapaddr := addr, trapcause := tc, pc := BitVec.ofNat 48 x.trapvec.toNat, mxSince := none }
/-- A die whose boot failed: it is held, and the root-of-trust core has one more failure to report over MIPI I3C (R372). -/
def bootFailed (s : State) (d : BitVec 3) : State :=
  let t := s.holdDie d
  { t with root := { t.root with reports := t.root.reports ++ [d.toNat] } }
/-- A slot of a launch that may enter its handler: not in it, and it has one. -/
abbrev MayTrap (s : State) (c : CoreId) (k : BitVec 4) : Prop :=
  (∃ b, s.blockOf c (s.slot c k) = some b ∧ b.boot = false) ∧ (s.slot c k).trapcause.getLsbD 8 = false ∧ (s.slot c k).trapvec ≠ 0

end Sys2Proof.Claims

/-- A trap of a slot that is not in its handler and has one writes TRAPPC, TRAPADDR and TRAPCAUSE, sets the pc to TRAPVEC and changes
nothing else. A trap of a slot in its handler, or without one, ends its launch with the cause. A trap in boot state holds the die and is reported
by the root-of-trust core. -/
def Sys2Proof.Claims.TakingATrap : Prop :=
  ∀ (s : State) (c : CoreId) (k : BitVec 4) (cause : Byte) (addr : Word) (tpc : BitVec 48),
    (MayTrap s c k → ∃ tc, CauseEntered (s.slot c k).trapcause tc cause ∧ s.deliverTrap c k cause addr tpc = inHandler s c k tc addr tpc) ∧
    (∀ b, s.blockOf c (s.slot c k) = some b → b.boot = false →
      ((s.slot c k).trapcause.getLsbD 8 = true ∨ (s.slot c k).trapvec = 0) →
      s.deliverTrap c k cause addr tpc = s.endLaunch b.queue b.seq cause) ∧
    (∀ b, s.blockOf c (s.slot c k) = some b → b.boot = true → s.deliverTrap c k cause addr tpc = bootFailed s c.die)

/-- After EndLaunch of launch n of queue q with a cause: on every core, each block of the launch that was not being closed is being closed
with that cause, and each of its slots is to stop; every other block and slot, one that was being closed already among them, is as it
was, and so is the rest of the core. The saved blocks of the launch are gone and the others left; the launch's entry, if it had not ended,
has ended with the cause, and no other launch or queue differs; everything else of the machine is as before. -/
def Sys2Proof.Claims.EndOfALaunch : Prop :=
  ∀ (s : State) (q : BitVec 8) (n : BitVec 24) (cause : Byte),
    let t := s.endLaunch q n cause
    let hit (b : Block) : Bool := !b.boot && decide (b.queue = q ∧ b.seq = n ∧ b.closing = none)
    t = { s with cores := t.cores, saves := t.saves, queues := t.queues } ∧
    (∀ v, v ∈ t.saves ↔ v ∈ s.saves ∧ ¬(v.blk.boot = false ∧ v.blk.queue = q ∧ v.blk.seq = n)) ∧
    (∀ m, Sparse.find t.queues m = (Sparse.find s.queues m).map fun (x : Queue) => { x with launches := x.launches.map fun l =>
      if m = q.toNat ∧ l.n % 2 ^ 24 = n.toNat ∧ l.ended = none then { l with ended := some cause } else l }) ∧
    (∀ c, t.core c = { s.core c with table := (t.core c).table, slots := (t.core c).slots } ∧
      (∀ m, Sparse.find (t.core c).table m = (Sparse.find (s.core c).table m).map fun (b : Block) =>
        if hit b then { b with closing := some cause } else b) ∧
      ∀ k, t.slot c k = if ((s.slot c k).blk.bind (Sparse.find (s.core c).table)).any hit then { s.slot c k with stop := true }
        else s.slot c k)

namespace Sys2Proof.Claims

/-- A fault record of the current slot that waits to be written, with the TRAPPC of its trap should the host let it fail, and the slot
suspended at a pc (R312). -/
def suspendedAt (s : State) (cause : Byte) (kind : BitVec 4) (va : Word) (next tpc : BitVec 48) : State :=
  let n := s.block.ctx
  let y := s.ctx n
  let r : FaultRec := {
    seq := y.fseq, kind := kind, cause := cause, va := va, pc := BitVec.ofNat 64 s.cs.pc.toNat, core := s.cc, slot := s.cur.2,
    score := s.lnumOf s.cc, cmd := 0, gen := s.cs.gen, clock := s.clock s.cc, tpc := tpc }
  (s.setCs { s.cs with st := .suspended, pc := next }).setCtx n { y with fseq := y.fseq + 1, faults := y.faults ++ [r] }

/-- Every slot that has the block has exited. -/
def allOut (s : State) (n : Nat) : Bool := (s.core s.cc).slots.toList.all fun (y : Slot) => decide (y.blk ≠ some n) || decide (y.st = .exited)
/-- The machine without the misses that slots of the core that have exited or are unbound, or commands of it that are no more, have left (R306). -/
def missesGone (s : State) : State :=
  let gone (x : Miss) : Bool := decide (x.core = s.cc) && if x.who < 16 then
      decide ((s.slot s.cc (BitVec.ofNat 4 x.who)).st ∈ [.exited, .unbound])
    else (Sparse.find (s.core s.cc).cmds (x.who - 16)).isNone
  s.setDie s.cc.die { s.die s.cc.die with misses := (s.die s.cc.die).misses.filter fun (x : Miss) => !gone x }
/-- A slot exited (R315, R259, R291): its inbox is gone, a stopped run of the sequencer that it owned is ended, and with the last slot of
its block the block's faulted commands are given up; what waits for a translation in the name of any of these is forgotten. -/
def exited (s : State) : State :=
  let t := s.setCs { s.cs with st := .exited, inbox := [] }
  let q := (s.slab s.cc).seq
  let t := if q.st = .stopped ∧ q.owner = s.cur.2 then withSeq t { q with st := .idle, scause := 0 } else t
  missesGone (match s.cs.blk with
    | none => t
    | some n =>
      if allOut t n then t.setCore t.cc { t.core t.cc with
        cmds := (t.core t.cc).cmds.filter fun (e : Nat × Cmd) => !(decide (e.2.blk = n) && isFaulted e.2) }
      else t)

/-- A block (by its core and number) stops for a save with another (R290, R318): both lie in a whole launch that has started, or the other
owns the sequencer beneath the core of both and they are of one context. -/
def StopsWith (s : State) (e x : CoreId × Nat) : Prop :=
  let b := (s.core e.1).blockAt e.2
  let q := (s.slab e.1).seq
  (x.1 = e.1 ∧ q.st ≠ .idle ∧ (s.slot e.1 q.owner).blk = some e.2 ∧
    ∃ y, (x.2, y) ∈ (s.core e.1).table ∧ y.ctx = b.ctx ∧ y.boot = false ∧ y.held = false) ∨
  (b.whole = true ∧ b.boot = false ∧
    (∃ z l, Sparse.find s.queues b.queue.toNat = some z ∧ l ∈ z.launches ∧ l.n % 2 ^ 24 = b.seq.toNat ∧ l.started = true) ∧
    ∃ k z y, (k, z) ∈ s.cores ∧ CoreId.ofKey k = x.1 ∧ (x.2, y) ∈ z.table ∧ y.boot = false ∧ y.queue = b.queue ∧ y.seq = b.seq)
/-- Some blocks stop with one, with those, and so on. -/
inductive Together (s : State) (e : CoreId × Nat) : CoreId × Nat → Prop
  | self : Together s e e
  | next {x y : CoreId × Nat} : Together s e x → StopsWith s x y → Together s e y
/-- The machine with the slots of a block, and of every block that stops with one of them, to be stopped at a turn after this cycle; nothing else
differs. -/
def StoppedFrom (s : State) (c : CoreId) (n : Nat) (t : State) : Prop :=
  t = { s with cores := t.cores } ∧
  ∀ d, t.core d = { s.core d with slots := (t.core d).slots } ∧
    ∀ k, t.slot d k = { s.slot d k with stop := (t.slot d k).stop, stopAt := (t.slot d k).stopAt } ∧
      (t.slot d k).stopAt = (if (s.slot d k).stop = false ∧ (t.slot d k).stop = true then s.clock d + 1 else (s.slot d k).stopAt) ∧
      ((t.slot d k).stop = true ↔ (s.slot d k).stop = true ∨
        ∃ m, (s.slot d k).blk = some m ∧ Together s (c, n) (d, m))

end Sys2Proof.Claims

/-- TRAP and BRK, where they run in a slot that may enter its handler, enter it with their cause, the code in TRAPADDR and the address after
themselves in TRAPPC. BRK in a context with `DBG` and a fault queue instead suspends the slot after the instruction with a fault record of
kind 5. TRET in the handler clears `INTRAP` alone of TRAPCAUSE and goes to TRAPPC; outside it traps with illegal instruction. -/
def Sys2Proof.Claims.TrapBrkAndTret : Prop :=
  (∀ (gd : Guard) (code : BitVec 16) (f : Issue) (s : State), Runs s (.trap gd code) f → MayTrap s s.cc s.cur.2 →
    ∃ tc, CauseEntered s.cs.trapcause tc 0x0D ∧
      exec (.trap gd code) s = .next (inHandler s s.cc s.cur.2 tc (BitVec.ofNat 64 code.toNat) (s.cs.pc + 12))) ∧
  (∀ (gd : Guard) (code : BitVec 16) (f : Issue) (s : State), Runs s (.brk gd code) f →
    let y := s.ctx s.block.ctx
    let told := y.ent.getLsbD 10 = true ∧ y.ent.toNat / 2 ^ 208 % 2 ^ 48 ≠ 0 ∧ s.block.boot = false
    (¬told → MayTrap s s.cc s.cur.2 → ∃ tc, CauseEntered s.cs.trapcause tc 0x0C ∧
      exec (.brk gd code) s = .next (inHandler s s.cc s.cur.2 tc (BitVec.ofNat 64 code.toNat) (s.cs.pc + 12))) ∧
    (told → ∃ t, t = suspendedAt s 0x0C 5 (BitVec.ofNat 64 code.toNat) s.cs.pc (s.cs.pc + 12) ∧
      exec (.brk gd code) s = .next (t.setCs (t.cs.advance 12)))) ∧
  (∀ (gd : Guard) (f : Issue) (s : State), Runs s (.tret gd) f →
    (s.cs.trapcause.getLsbD 8 = false → exec (.tret gd) s = .next (s.trapHere 0x01 0)) ∧
    (s.cs.trapcause.getLsbD 8 = true → ∃ tc : Word, (∀ j, j < 64 → tc.getLsbD j = (s.cs.trapcause.getLsbD j && decide (j ≠ 8))) ∧
      exec (.tret gd) s = .next (s.setCs { s.cs with trapcause := tc, pc := BitVec.ofNat 48 s.cs.trappc.toNat })))

/-- EXIT, where it runs, moves the slot to exited with its inbox discarded, ends a stopped run of the sequencer that it owns, and with its
block's last slot gives up the block's faulted commands. HUBCALL marks gD pending and leaves the call with the slot's hub, oldest first.
CHKPT stores gA as the block's checkpoint value; with a yield request it clears the request and the slots of the block are to stop at turns after
this cycle, with those of every block that stops with it: of its context on the core where a slot of it owns the sequencer, of its started whole
launch (that the launch is saved as a whole is R290's and R318's, that its blocks stop with the one that yields is the model's choice, log 86),
and of the blocks that stop with those; otherwise nothing more. -/
def Sys2Proof.Claims.ExitHubcallAndChkpt : Prop :=
  (∀ (gd : Guard) (f : Issue) (s : State), Runs s (.exit gd) f → exec (.exit gd) s = .next (finish f (exited s))) ∧
  (∀ (gd : Guard) (code : BitVec 16) (d a : GIx) (f : Issue) (s : State), Runs s (.hubcall gd code d a) f →
    exec (.hubcall gd code d a) s = .next (finish f (s.setCs { s.cs.setPend true (.g d) with
      hubcalls := s.cs.hubcalls ++ [(d, code, s.g a, guardTaint s f)] }))) ∧
  (∀ (gd : Guard) (a : GIx) (f : Issue) (s : State), Runs s (.chkpt gd a) f →
    let t := s.setBlock s.cc s.curBlk { s.block with chkv := s.g a, yieldReq := false }
    (s.block.yieldReq = false → exec (.chkpt gd a) s = .next (finish f t)) ∧
    (s.block.yieldReq = true → ∃ u, StoppedFrom t t.cc s.curBlk u ∧ exec (.chkpt gd a) s = .next (finish f u)))

namespace Sys2Proof.Claims

-- microinstructions (spec/12 R259 to R262)

/-- A microinstruction on lanes: its fields and code, how wide its destination is, its source fields from their effective rows, its result in
a lane from the sources, its microcycles. -/
structure MicroForm where
  u    : Micro
  op   : MicroOp
  dw   : Nat
  srcs : List (Nat × Nat)
  res  : Nat → Nat → Nat → Nat
  cost : Nat

/-- Width, effective rows of A and B (R260). -/
def mw (u : Micro) : Nat := u.wm1.toNat + 1
def rowA (u : Micro) (ofs : Byte) : Nat := u.arow.toNat + if u.oa then ofs.toNat else 0
def rowB (u : Micro) (ofs : Byte) : Nat := u.brow.toNat + if u.ob then ofs.toNat else 0
def rowD (u : Micro) (ofs : Byte) : Nat := u.drow.toNat + if u.od then ofs.toNat else 0
/-- A value of `w` bits as a signed number. -/
def sgn (w v : Nat) : Int := if 2 ^ (w - 1) ≤ v then (v : Int) - 2 ^ w else v
/-- The float type of MFADD and MFMUL, and an operation rounded to nearest even with subnormals kept. -/
def mfmt (u : Micro) : FFmt := if u.imm.toNat = 0 then .bf16 else if u.imm.toNat = 1 then .fp16 else .fp32
def mround (u : Micro) (x : XVal) : Nat := (roundF (mfmt u) .rne false false x).1

def microForm (ofs : Byte) : Instr → Option MicroForm
  | .mzero u => some ⟨u, .mzero, mw u, [], fun _ _ _ => 0, mw u⟩
  | .mcopy u => some ⟨u, .mcopy, mw u, [(rowA u ofs, mw u)], fun a _ _ => a, mw u⟩
  | .microMnot u => some ⟨u, .microMnot, mw u, [(rowA u ofs, mw u)], fun a _ _ => 2 ^ mw u - 1 - a, mw u⟩
  | .microMand u => some ⟨u, .microMand, mw u, [(rowA u ofs, mw u), (rowB u ofs, mw u)], fun a b _ => Nat.land a b, mw u⟩
  | .microMor u => some ⟨u, .microMor, mw u, [(rowA u ofs, mw u), (rowB u ofs, mw u)], fun a b _ => Nat.lor a b, mw u⟩
  | .microMxor u => some ⟨u, .microMxor, mw u, [(rowA u ofs, mw u), (rowB u ofs, mw u)], fun a b _ => Nat.xor a b, mw u⟩
  | .madd u => some ⟨u, .madd, mw u, [(rowA u ofs, mw u), (rowB u ofs, mw u)], fun a b _ => (a + b) % 2 ^ mw u, mw u + 1⟩
  | .msub u => some ⟨u, .msub, mw u, [(rowA u ofs, mw u), (rowB u ofs, mw u)],
      fun a b _ => (((a : Int) - b) % 2 ^ mw u).toNat, mw u + 1⟩
  | .mcmp u => some ⟨u, .mcmp, 1, [(rowA u ofs, mw u), (rowB u ofs, mw u)], fun a b _ =>
      if condition (u.imm.toNat % 8) (if u.imm.getLsbD 3 then sgn (mw u) a else a) (if u.imm.getLsbD 3 then sgn (mw u) b else b) then 1
      else 0, mw u + 1⟩
  | .msel u => some ⟨u, .msel, mw u, [(rowA u ofs, mw u), (rowB u ofs, mw u), (u.crow.toNat, 1)], fun a b c => if c = 1 then a else b, mw u⟩
  | .mshl u => some ⟨u, .mshl, mw u, [(rowA u ofs, mw u)], fun a _ _ => a * 2 ^ (u.imm.toNat % 64) % 2 ^ mw u, mw u⟩
  | .mshr u => some ⟨u, .mshr, mw u, [(rowA u ofs, mw u)], fun a _ _ =>
      if u.imm.getLsbD 6 then ((sgn (mw u) a / 2 ^ (u.imm.toNat % 64)) % 2 ^ mw u).toNat else a / 2 ^ (u.imm.toNat % 64), mw u⟩
  | .mfadd u => some ⟨u, .mfadd, mw u, [(rowA u ofs, mw u), (rowB u ofs, mw u)],
      fun a b _ => mround u (xadd false (decodeF (mfmt u) false a) (decodeF (mfmt u) false b)).1,
      if u.imm.toNat = 0 then 112 else if u.imm.toNat = 1 then 144 else 256⟩
  | .mfmul u => some ⟨u, .mfmul, mw u, [(rowA u ofs, mw u), (rowB u ofs, mw u)],
      fun a b _ => mround u (xmul (decodeF (mfmt u) false a) (decodeF (mfmt u) false b)).1,
      if u.imm.toNat = 0 then 96 else if u.imm.toNat = 1 then 160 else 640⟩
  | _ => none

/-- The unit of a lane's row in a group, the lane's bit there, and a field of the lane (R161, R248). -/
def rowUnit (t : Sparse Unit8) (g lane row : Nat) : Unit8 := unitAt t (8192 * g + 1024 * (lane / 256) + 4 * row + lane / 64 % 4)
def laneNum (t : Sparse Unit8) (g lane row w : Nat) : Nat :=
  (List.range w).foldr (fun j v => v + (if (rowUnit t g lane (row + j)).val.getLsbD (lane % 64) then 2 ^ j else 0)) 0
/-- Some source unit of a lane's block is poisoned. -/
def lanePois (t : Sparse Unit8) (g lane : Nat) (fs : List (Nat × Nat)) : Bool :=
  fs.any fun x => (List.range x.2).any fun j => (rowUnit t g lane (x.1 + j)).pois

/-- The machine with what the last microinstruction of the current slab has written in its rows (R260). -/
def settled (s : State) : State := s.setSlab s.cc (slabOf s).commitMicro
/-- A unit of a group in compute mode that a running microinstruction has written gets what it wrote, every other keeps its content. -/
abbrev UnitSettled (y : Slab) (n : Nat) : Prop :=
  unitAt y.commitMicro.units n = match Sparse.find y.seq.wr n with
    | some w => if Sparse.get 0 y.modes (n / 8192) = 2 then w else unitAt y.units n
    | none => unitAt y.units n

/-- The sequencer of the current slab runs and its last microinstruction has had its cycles. -/
abbrev SeqReady (s : State) : Prop :=
  (slabOf s).seq.st = .running ∧ (slabOf s).seq.due ≤ s.instant s.cc ∧ (s.die s.cc.die).held = false
/-- The core cycle at which `n` microcycles have passed (R161, R166), counted from the end of the present cycle (log 81). -/
def afterMicro (s : State) (n : Nat) : Nat := s.instant s.cc + (if (s.die s.cc.die).therm then 4 else 2) * n

/-- A group in compute mode of the holding of the run's context. -/
abbrev computes (s : State) (g : Nat) : Prop := g ∈ s.computeGroups s.cc (slabOf s).seq.ctx

/-- The run's two-word message offered to its owner (R259). -/
def offered (s : State) (q : Sequencer) : State :=
  let m : SeqMsg := {
    slot := q.owner, gen := (s.slot s.cc q.owner).gen, ctx := q.ctx, w0 := ⟨BitVec.ofNat 64 (seqWord q), false⟩,
    w1 := ⟨q.param, q.ppois⟩ }
  withSeq s { q with msgs := q.msgs ++ [m] }
/-- A precise stop (R259): the owner, if it runs, is to trap at its next turn. -/
def stoppedWith (s : State) (cause : BitVec 4) : State :=
  let q := { (slabOf s).seq with st := .stopped, scause := cause }
  let t := offered s q
  let x := t.slot s.cc q.owner
  if x.st = .running then t.setSlot s.cc q.owner { x with epend := x.epend ++ [(0x09, BitVec.ofNat 64 q.pc.toNat)] } else t
/-- A microinstruction begun: the next index follows; at index 1,023 none does, and `PC` stays (R259). -/
def wentOn (s : State) (q : Sequencer) : State := withSeq s (if q.pc.toNat = 1023 then { q with last := true } else { q with pc := q.pc + 1 })

end Sys2Proof.Claims

/-- Each of the fourteen lane microinstructions, well formed, taken by a ready sequencer with every field within row 255: what the one before it
wrote is in its rows; in every lane of every compute-mode group of the context's holding the destination field is to get the operation's value of
the sources as they now are; its units are poisoned when a source unit of their block of lanes is, and clean otherwise; no other unit of
the slab is to change; `PC` goes up by 1, but at index 1,023, and the next microinstruction may run, with those units written, after the operation's
microcycles. A run whose microinstruction at index 1,023 is complete stops with cause 4 and `PC` 1,023: the message is offered and a running owner is
to trap with bit-serial stop. Nothing else changes. Microcycles are counted from the end of the cycle (log 81); that a microinstruction reads its
rows as it begins, and that its own hold what it writes only when it is over, is the model's choice (log 88). -/
def Sys2Proof.Claims.MicroinstructionsOnLanes : Prop :=
  (∀ (y : Slab) (n : Nat), (y.seq.wr.map Prod.fst).Nodup → UnitSettled y n ∧
    y.commitMicro = { y with units := y.commitMicro.units, seq := { y.seq with wr := [], src := [], last := false } }) ∧
  (∀ (i : Instr) (s : State) (x : MicroForm), microForm (slabOf s).seq.ofs i = some x → SeqReady s → (slabOf s).seq.last = true →
    exec i s = .next (stoppedWith (settled s) 4)) ∧
  (∀ (i : Instr) (s : State) (x : MicroForm), microForm (slabOf s).seq.ofs i = some x → x.u.wfFor x.op = true → SeqReady s →
    (slabOf s).seq.last = false →
    let q := (slabOf (settled s)).seq
    let t := (slabOf (settled s)).units
    let d := rowD x.u q.ofs
    d + x.dw ≤ 256 → (∀ y ∈ x.srcs, y.1 + y.2 ≤ 256) →
    ∃ w t', exec i s = .next (wentOn (settled s) { q with wr := w, src := x.srcs, due := afterMicro s x.cost }) ∧
      (w.map Prod.fst).Nodup ∧ (∀ n, unitAt t' n = (Sparse.find w n).getD (unitAt t n)) ∧
      (∀ g lane, computes s g → lane < 2048 →
        let v (n : Nat) : Nat := match x.srcs[n]? with | some y => laneNum t g lane y.1 y.2 | none => 0
        laneNum t' g lane d x.dw = x.res (v 0) (v 1) (v 2) ∧
        ∀ j, j < x.dw → (rowUnit t' g lane (d + j)).pois = lanePois t g lane x.srcs) ∧
      (∀ n, Sparse.find w n = none ↔
        ∀ g lane j, computes s g → lane < 2048 → j < x.dw → n ≠ 8192 * g + 1024 * (lane / 256) + 4 * (d + j) + lane / 64 % 4))

namespace Sys2Proof.Claims

/-- The code and fields of any microinstruction. -/
def microOf : Instr → Option (MicroOp × Micro)
  | .mzero u => some (.mzero, u) | .mcopy u => some (.mcopy, u) | .microMnot u => some (.microMnot, u) | .microMand u => some (.microMand, u)
  | .microMor u => some (.microMor, u) | .microMxor u => some (.microMxor, u) | .madd u => some (.madd, u) | .msub u => some (.msub, u)
  | .mcmp u => some (.mcmp, u) | .msel u => some (.msel, u) | .mshl u => some (.mshl, u) | .mshr u => some (.mshr, u)
  | .mfadd u => some (.mfadd, u) | .mfmul u => some (.mfmul, u) | .mloop u => some (.mloop, u) | .mend u => some (.mend, u)
  | _ => none

end Sys2Proof.Claims

/-- Of a sequencer that is ready, the last microinstruction's units are first written. A microinstruction that its operation does not allow stops it with cause 1, one of the fourteen with a field beyond row 255
with cause 2, MLOOP with its target above itself with cause 1, MLOOP inside another index's loop with cause 3: the stopped one has no
effect, the message is offered, and a running owner is to trap with bit-serial stop and `PC`. MLOOP with passes left goes to its target
with one fewer and `OFS` advanced by its step; without, it ends the loop, takes `OFS` back, and goes on (behind index 1,023 the run stops with
cause 4, when MLOOP's microcycle is over). MEND makes the sequencer idle
and offers the message. A microinstruction of a sequencer that is not ready changes nothing. -/
def Sys2Proof.Claims.LoopEndAndStopsOfARun : Prop :=
  (∀ (i : Instr) (op : MicroOp) (u : Micro) (s : State), microOf i = some (op, u) →
    (¬SeqReady s → exec i s = .next s) ∧
    (SeqReady s → (slabOf s).seq.last = true → exec i s = .next (stoppedWith (settled s) 4)) ∧
    (SeqReady s → (slabOf s).seq.last = false → u.wfFor op = false → exec i s = .next (stoppedWith (settled s) 1))) ∧
  (∀ (i : Instr) (s : State) (x : MicroForm), microForm (slabOf s).seq.ofs i = some x → SeqReady s → (slabOf s).seq.last = false →
    x.u.wfFor x.op = true → (256 < rowD x.u (slabOf s).seq.ofs + x.dw ∨ ∃ y ∈ x.srcs, 256 < y.1 + y.2) →
    exec i s = .next (stoppedWith (settled s) 2)) ∧
  (∀ (u : Micro) (s : State), SeqReady s → (slabOf s).seq.last = false → u.wfFor .mloop = true →
    let q := (slabOf (settled s)).seq
    let lc := if q.lact then q.lc.toNat else u.crow.toNat
    let due := afterMicro s 1
    (q.pc.toNat < u.imm.toNat → exec (.mloop u) s = .next (stoppedWith (settled s) 1)) ∧
    (u.imm.toNat ≤ q.pc.toNat → q.lact = true → q.lidx ≠ q.pc → exec (.mloop u) s = .next (stoppedWith (settled s) 3)) ∧
    (u.imm.toNat ≤ q.pc.toNat → (q.lact = false ∨ q.lidx = q.pc) → 0 < lc → exec (.mloop u) s = .next (withSeq (settled s) { q with
      lact := true, lidx := q.pc, lc := BitVec.ofNat 8 (lc - 1), ofs := BitVec.ofNat 8 (q.ofs.toNat + u.arow.toNat),
      pc := BitVec.ofNat 10 u.imm.toNat, due := due })) ∧
    (u.imm.toNat ≤ q.pc.toNat → (q.lact = false ∨ q.lidx = q.pc) → lc = 0 →
      exec (.mloop u) s = .next (wentOn (settled s) { q with
        lact := false, lidx := q.pc, lc := 0, ofs := BitVec.ofInt 8 (q.ofs.toNat - u.arow.toNat * u.crow.toNat), due := due }))) ∧
  (∀ (u : Micro) (s : State), SeqReady s → (slabOf s).seq.last = false → u.wfFor .mend = true →
    let q := { (slabOf (settled s)).seq with st := .idle, due := afterMicro s 1 }
    exec (.mend u) s = .next (offered (settled s) q))

namespace Sys2Proof.Claims

-- loads and atomics after their issue (R22 to R25, R173, R180, R192, R194)

/-- Whether a load reads the base image alone; none for an atomic. -/
def baseOnly : LoadKind → Option Bool
  | .ld | .gather => some false
  | .ldro => some true
  | _ => none
/-- A key word as a core reads it: the records of cog 2, cog 1 and cog 0 applied to the base word, outermost first (R173). -/
def folded (s : State) (c : CoreId) (base : Word × Bool) (key : Nat) : Word × Bool :=
  let step (v : Word × Bool) (lv : LevelId) : Word × Bool := match s.heldAt lv key with
    | none => v
    | some r => ((r.apply v.1).1, v.2 || r.pois)
  step (step (step base (level2 c)) (level1 c)) (level0 c)
/-- The base word of a key with its poison. -/
def baseOf (s : State) (key : Nat) : Word × Bool := (s.baseWord key, s.keyPois key)
/-- `size` bytes at an address out of the key words that hold them, and whether one of these is poisoned. -/
def bytesOf (word : Nat → Word × Bool) (pa size : Nat) : Nat × Bool :=
  let ws := (keysAt [pa] size).map word
  (ws.foldr (fun w a => w.1.toNat + 2 ^ 64 * a) 0 / 256 ^ (pa % 8) % 256 ^ size, ws.any fun w => w.2)

/-- A load in flight under a tag of a slot. -/
abbrev InFlight (s : State) (c : CoreId) (k : BitVec 4) (tag : BitVec 3) (l : Load) : Prop :=
  Sparse.find (s.slot c k).tags tag.toNat = some l
/-- No earlier load of the slot in flight covers a key word of this one (R212). -/
abbrev Unblocked (s : State) (c : CoreId) (k : BitVec 4) (l : Load) : Prop :=
  ∀ e ∈ (s.slot c k).tags, e.2.id < l.id → ∀ a ∈ e.2.elems, ∀ b ∈ l.elems, ∀ n ∈ keysAt [a.pa] a.size, n ∉ keysAt [b.pa] b.size
/-- The slot with a load's entry replaced. -/
def withTag (s : State) (c : CoreId) (k : BitVec 4) (tag : BitVec 3) (l : Load) : State :=
  s.setSlot c k { s.slot c k with tags := Sparse.set (s.slot c k).tags tag.toNat l }
/-- The load with piece `n` read. -/
def gotPiece (l : Load) (n : Nat) (e : Elem) (v : Nat) (po : Bool) : Load :=
  { l with elems := l.elems.set n { e with got := some (v, po) } }
/-- The rotations of a home read with its filter additions have passed. -/
abbrev HomeTime (s : State) (c : CoreId) (l : Load) (ro : Bool) (pa : Nat) : Prop :=
  l.issued + 16 * (homeRot c.die pa l.left + if ro then 0 else s.filterRot c (pa / 64)) ≤ s.instant c
/-- The levels that a load which folds looks up: cog 0, and of cog 1 and cog 2 those whose filter answers that a record of the line is there (R156). -/
def lookLevels (s : State) (c : CoreId) (line : Nat) : List LevelId :=
  level0 c :: [level1 c, level2 c].filter fun lv => (s.run lv).recs.any fun r => decide (r.key / 8 = line)
/-- It may look them up: no pass has the right to the cycle at one of them (R294). -/
abbrev MayLook (s : State) (c : CoreId) (ro : Bool) (line : Nat) : Prop := ro = false → ∀ lv ∈ lookLevels s c line, s.mayLook lv = true
/-- A machine `t` with the passes at these levels of `s` having seen a load's lookup (R294). -/
def looked (s t : State) (c : CoreId) (ro : Bool) (line : Nat) : State := if ro then t else t.lookUp (lookLevels s c line)

end Sys2Proof.Claims

/-- A long result that is due is written to its register, which is no longer pending. A load that goes and that no earlier load of its slot
blocks reads its next piece at an instant after its rotations: from the home when the core has no snapshot it may use and the home can
be read, with the die's records of the line all arrived (log 23), else from the snapshot (a `device` or `system` load then waits for its
validation). The line read becomes a snapshot, unless it is host memory's or an LDRO reads it while such a record is on its way. The piece's value is the key words with the records of the core's three
levels applied, all at this instant (log 24: DEDUCED; LDRO: the base alone), its poison theirs; it looks up cog 0 and those levels whose
filter answers present, where a pass may have the cycle before it. An atomic
whose step is done returns after its rotations. A load with every piece read writes its destinations and performs, or waits for its
validations. -/
def Sys2Proof.Claims.LoadsReturn : Prop :=
  (∀ (c : CoreId) (k : BitVec 4) (n : Nat) (l : LongRes) (s : State),
    (s.slot c k).longs[n]? = some l → l.due ≤ s.instant c → (l.dst = .g 61 → (s.core c).outq.length < 8) →
    let x := (s.slot c k).setPend false l.dst
    let u := { s with cur := (c, k) }.setCs { x with longs := x.longs.eraseIdx n }
    exec (.longResultWrite c k n) s = .next { (u.putReg l.dst l.val l.taint l.pois) with cur := s.cur }) ∧
  (∀ (c : CoreId) (k : BitVec 4) (tag n : BitVec 3) (l : Load) (e : Elem) (ro : Bool) (s w : State), InFlight s c k tag l →
    s.coreRuns c = true → l.st = .going → baseOnly l.kind = some ro → l.elems[n.toNat]? = some e → e.got = none → Unblocked s c k l →
    MayLook s c ro (e.pa / 64) → HomeTime s c l ro e.pa →
    (isHost e.pa = true ∨ s.snapshotFor c l.scope l.fresh l.horizon (e.pa / 64) = none) → s.homeReady c (e.pa / 64) = true →
    (ro = true ∨ s.lineMoving c.die (e.pa / 64) = false) → (isPeer e.pa = true → s.instant c < l.issued + 600000) →
    s.openRow (e.pa / 64) l.left = some w →
    let v := bytesOf (fun key => if ro then baseOf s key else folded s c (baseOf s key) key) e.pa e.size
    let u := { w with seqno := w.seqno + 1 }
    let t := if isHost e.pa || s.lineMoving c.die (e.pa / 64) then u else shotIn u c (e.pa / 64) l.left 0
    exec (.loadReturn c k tag n) s = .next ((looked s t c ro (e.pa / 64)).finishLoad c k tag (gotPiece l n.toNat e v.1 v.2))) ∧
  (∀ (c : CoreId) (k : BitVec 4) (tag n : BitVec 3) (l : Load) (e : Elem) (ro : Bool) (x : Snapshot) (s : State), InFlight s c k tag l →
    s.coreRuns c = true → l.st = .going → baseOnly l.kind = some ro → l.elems[n.toNat]? = some e → e.got = none → Unblocked s c k l →
    MayLook s c ro (e.pa / 64) → l.issued + 16 * (2 + if ro then 0 else s.filterRot c (e.pa / 64)) ≤ s.instant c → isHost e.pa = false →
    s.snapshotFor c l.scope l.fresh l.horizon (e.pa / 64) = some x →
    let v := bytesOf (fun key => if ro then x.word key else folded s c (x.word key) key) e.pa e.size
    let valid := if 3 ≤ l.scope.toNat then insertNum (e.pa / 64) l.valid else l.valid
    exec (.loadReturn c k tag n) s =
      .next ((looked s s c ro (e.pa / 64)).finishLoad c k tag { gotPiece l n.toNat e v.1 v.2 with valid := valid })) ∧
  (∀ (c : CoreId) (k : BitVec 4) (tag n : BitVec 3) (l : Load) (e : Elem) (s : State), InFlight s c k tag l → s.coreRuns c = true →
    l.st = .going → baseOnly l.kind = none → l.elems = [e] → e.got ≠ none →
    l.issued + 16 * (atomRot c.die l.scope e.pa l.left + l.moves) ≤ s.instant c →
    exec (.loadReturn c k tag n) s = .next (s.finishLoad c k tag l)) ∧
  (∀ (c : CoreId) (k : BitVec 4) (tag : BitVec 3) (l : Load) (s : State),
    ((∃ e ∈ l.elems, e.got = none) → s.finishLoad c k tag l = withTag s c k tag l) ∧
    ((∀ e ∈ l.elems, e.got ≠ none) →
      let u := { ({ s with cur := (c, k) }.writeLoad tag l) with cur := s.cur }
      s.finishLoad c k tag l = if l.valid = [] then u.perform c k tag l else withTag u c k tag { l with st := .returned }))

namespace Sys2Proof.Claims

/-- A mask without the bit of a tag. -/
def without (m : Byte) (tag : BitVec 3) : Byte := m &&& ~~~(BitVec.ofNat 8 (2 ^ tag.toNat))
/-- A read horizon moves with a load (R213): at `device` or `system` scope, with an answer from device or peer memory. -/
abbrev Answered (l : Load) : Prop := 3 ≤ l.scope.toNat ∧ ∃ e ∈ l.elems, isHost e.pa = false ∧ e.lost = false
/-- An address from which a read of a die may get no answer: a peer's, one homed on a held die, host memory without an agent that works. -/
def silent (s : State) (d : BitVec 3) (pa : Nat) : Bool :=
  isPeer pa || (decide (place pa = 0) && (s.die (homeDie pa)).held) || (isHost pa && match s.hostDie d with
    | none => true
    | some h => (s.die h).held)
/-- A piece that gets no answer: not read, from such an address. -/
def unanswered (s : State) (d : BitVec 3) (e : Elem) : Bool := e.got.isNone && silent s d e.pa
/-- The operands' poison that the record of an atomic holds (R29). -/
def operandsPoisoned : LoadKind → Bool
  | .atom r | .cas _ r => r.pois
  | _ => false
/-- The home of a line of a load answers its validation now (R194, R160). -/
abbrev Validates (s : State) (c : CoreId) (l : Load) (n : Nat) : Prop :=
  s.homeReady c n = true ∧ l.issued + 16 * homeRot c.die (64 * n) l.left ≤ s.instant c
/-- The validations of some lines, one after another. -/
def validated (s : State) (c : CoreId) (left : Nat) (lines : List Nat) : State :=
  lines.foldl (fun (t : State) n => ({ t with seqno := t.seqno + 1 } : State).validate c left n) s

end Sys2Proof.Claims

/-- A returned LD of one element writes its register: the element, extended as its access says, with the taint of its operands joined with
its tag, and the poison read; an atomic's also has the poison of its data and compare operands. Performing frees the tag and clears its bit in every mark and mask of the slot, and nothing else of a
register; a load at `device` or `system` scope with an answer from device or peer memory moves the read horizon up to the moment its read
left, for itself and for the loads issued after it. A returned load performs when the homes of its validated lines can be read, after
their rotations and any activates (R355, log 73); a snapshot that differs from its home is dropped. A load that waits 600,000 cycles for a peer, a held
die or a host that nothing reaches returns poison with a value that is free (log 5); a validation that gets no answer ends, and the load performs
with those of its other lines taken; what got no answer moves no horizon. A snapshot may be dropped at any
time. -/
def Sys2Proof.Claims.LoadsPerform : Prop :=
  (∀ (c : CoreId) (k : BitVec 4) (tag : BitVec 3) (l : Load) (d : GIx) (e : Elem) (v : Nat) (po : Bool) (s : State),
    l.kind ≠ .gather → l.dst = [.g d] → markless d = false → l.elems = [e] → e.got = some (v, po) → v < 2 ^ (8 * 2 ^ l.w.toNat) →
    let t := ({ s with cur := (c, k) }.writeLoad tag l).slot c k
    t.readG d = (if l.sext then (BitVec.ofNat (8 * 2 ^ l.w.toNat) v).signExtend 64 else BitVec.ofNat 64 v) ∧
    t.mark (.g d) = ⟨l.taint ||| BitVec.ofNat 8 (2 ^ tag.toNat), po || operandsPoisoned l.kind, false⟩ ∧
    ∀ r, r ≠ .g d → t.mark r = (s.slot c k).mark r) ∧
  (∀ (c : CoreId) (k : BitVec 4) (tag : BitVec 3) (l : Load) (s : State),
    let x := s.slot c k
    let y := (s.perform c k tag l).slot c k
    Sparse.find y.tags tag.toNat = none ∧
    (∀ r, (y.mark r).taint = without (x.mark r).taint tag ∧ (y.mark r).pois = (x.mark r).pois ∧ (y.mark r).pend = (x.mark r).pend) ∧
    y.ctaint = without x.ctaint tag ∧ (∀ i, y.readG i = x.readG i) ∧ (∀ i, y.readP i = x.readP i) ∧ (∀ i, y.readV i = x.readV i) ∧
    (∀ i, y.readM i = x.readM i) ∧
    y.hold = x.hold.map (fun h =>
      { h with mask := without h.mask tag, loads := without h.loads tag, after := without h.after tag }) ∧
    y.horizon = (if Answered l then max x.horizon l.left else x.horizon) ∧
    ∀ n, n ≠ tag.toNat → Sparse.find y.tags n = (Sparse.find x.tags n).map fun m => { m with
      taint := without m.taint tag, horizon := if Answered l ∧ l.id < m.id then max m.horizon l.left else m.horizon }) ∧
  (∀ (c : CoreId) (k : BitVec 4) (tag : BitVec 3) (l : Load) (s : State), InFlight s c k tag l → l.st = .returned →
    s.coreRuns c = true → (∀ n ∈ l.valid, Validates s c l n) → ∀ u, s.openRows l.left l.valid = some u →
    exec (.perform c k tag) s = .next ((validated u c l.left l.valid).perform c k tag l)) ∧
  (∀ (c : CoreId) (left line : Nat) (s : State), ∀ y ∈ ((s.validate c left line).core c).l1, y.line = line →
    y.bytes = s.lineBytes line ∧ y.pois = s.lineKeyPois line) ∧
  (∀ (c : CoreId) (k : BitVec 4) (tag : BitVec 3) (l : Load) (s : State), InFlight s c k tag l → l.issued + 600000 ≤ s.instant c →
    s.coreRuns c = true →
    (l.st = .going → (∃ e ∈ l.elems, unanswered s c.die e = true) →
      let v := (Config.freeWord s.fresh).toNat
      exec (.remoteReadTimeout c k tag) s = .next ({ s with fresh := s.fresh + 1 }.finishLoad c k tag { l with
        elems := l.elems.map fun e => if unanswered s c.die e then { e with got := some (v % 2 ^ (8 * min e.size 8), true), lost := true } else e })) ∧
    (l.st = .returned → (∃ n ∈ l.valid, silent s c.die (64 * n) = true) →
      (∀ n ∈ l.valid, silent s c.die (64 * n) = false → Validates s c l n) →
      let live := l.valid.filter fun n => !silent s c.die (64 * n)
      ∀ u, s.openRows l.left live = some u →
      exec (.remoteReadTimeout c k tag) s = .next ((validated u c l.left live).perform c k tag { l with
        elems := l.elems.map fun e => if l.valid.contains (e.pa / 64) && silent s c.die e.pa then { e with lost := true } else e }))) ∧
  (∀ (c : CoreId) (line : Nat) (s : State), (∃ e ∈ (s.core c).l1, e.line = line) →
    exec (.l1SnapshotDrop c line) s =
      .next (s.setCore c { s.core c with l1 := (s.core c).l1.filter fun (e : Snapshot) => decide (e.line ≠ line) }))

namespace Sys2Proof.Claims

/-- The record an atomic has for an old element: its own, or for CAS its own where the element equals the compared value (R180, R200). -/
def newRecord (l : Load) (old : Nat) : LoadKind → Option Rec
  | .atom r => some r
  | .cas v r => if old = v.toNat % 2 ^ (8 * 2 ^ l.w.toNat) then some r else none
  | _ => none
/-- The element of a key word at an address. -/
def elementAt (l : Load) (pa : Nat) (v : Word) : Nat := v.toNat / 256 ^ (pa % 8 / 2 ^ l.w.toNat * 2 ^ l.w.toNat) % 256 ^ (2 ^ l.w.toNat)
/-- The levels of a core's path from a scope's own outward, applied to a word outermost first. -/
def foldedFrom (s : State) (c : CoreId) (scope : BitVec 3) (v : Word × Bool) (key : Nat) : Word × Bool :=
  ([level0 c, level1 c, level2 c].drop scope.toNat).foldr (fun lv v => match s.heldAt lv key with
    | none => v
    | some r => ((r.apply v.1).1, v.2 || r.pois)) v

end Sys2Proof.Claims

/-- An atomic that goes and is not blocked evicts its key from the levels inside its scope. At `thread`, `cluster` and `die` scope its old
word is a usable snapshot's or else the home's, with the records from its own level outward applied; its record (CAS: where the old element equals the compared
value) is inserted at that level. At the home, once no host copy is left and the line's row is open, the old word is the base word; the record is applied to it and the
die's snapshots of the line are dropped (a peer's base word is the peer's). The old element with its poison is kept for the return. -/
def Obligations.AtomicStepResults : Prop :=
  ∀ (c : CoreId) (k : BitVec 4) (tag : BitVec 3) (l : Load) (e : Elem) (s t : State) (n : Nat), InFlight s c k tag l → s.coreRuns c = true →
    l.st = .going → baseOnly l.kind = none → l.elems = [e] → e.got = none → e.pa % 8 + 2 ^ l.w.toNat ≤ 8 → e.pa % 2 ^ l.w.toNat = 0 →
    Unblocked s c k l → s.evictKey c l.scope (e.pa / 8) = some (t, n) →
    let key := e.pa / 8
    let line := e.pa / 64
    let kept (old : Word × Bool) : Load := { l with moves := l.moves + n, elems := [{ e with got := some (elementAt l e.pa old.1, old.2) }] }
    let atLevel (lv : LevelId) (base : Word × Bool) (f : State) : Prop :=
      let old := foldedFrom f c l.scope base key
      (newRecord l (elementAt l e.pa old.1) l.kind = none → exec (.atomicStep c k tag) s = .next (withTag f c k tag (kept old))) ∧
      ∀ r, newRecord l (elementAt l e.pa old.1) l.kind = some r → f.room lv r = true →
        exec (.atomicStep c k tag) s = .next (withTag (f.insertRec lv r) c k tag (kept old))
    (∀ lv, levelOf c l.scope = some lv →
      (∀ x, isHost e.pa = false → t.snapshotFor c l.scope l.fresh l.horizon line = some x → atLevel lv (x.word key) t) ∧
      ((isHost e.pa = true ∨ t.snapshotFor c l.scope l.fresh l.horizon line = none) → t.homeReady c line = true →
        t.lineMoving c.die line = false → ∀ w, t.openRow line l.left = some w →
        let u := { w with seqno := w.seqno + 1 }
        atLevel lv (baseOf t key) (if isHost e.pa then u else shotIn u c line l.left 0))) ∧
    (levelOf c l.scope = none → (place e.pa = 0 → (t.die (homeDie (64 * line))).snoop.contains line = false) → t.homeReady c line = true →
      t.lineMoving c.die line = false → ∀ w, t.openRow line l.left = some w →
      let u := { w with seqno := w.seqno + 1 }
      let old := baseOf t key
      (newRecord l (elementAt l e.pa old.1) l.kind = none → exec (.atomicStep c k tag) s = .next (withTag u c k tag (kept old))) ∧
      ∀ r, newRecord l (elementAt l e.pa old.1) l.kind = some r →
        (isPeer e.pa = true → exec (.atomicStep c k tag) s = .next (withTag (u.dropLine c.die line) c k tag (kept old))) ∧
        (isPeer e.pa = false →
          let d := if isHost e.pa then (t.hostDie c.die).getD c.die else homeDie e.pa
          exec (.atomicStep c k tag) s = .next (withTag ((u.applyToBase d r).dropLine c.die line) c k tag (kept old))))

namespace Sys2Proof.Claims

/-- Records inserted into a core's cog 0 one after another. -/
def insertedAt (s : State) (c : CoreId) (rs : List Rec) : State := rs.foldl (fun t r => t.insertRec (.cog0 c) r) s
/-- The first `n` may be inserted, each at its turn. -/
abbrev FirstRoom (s : State) (c : CoreId) (since : Option Nat) (rs : List Rec) (n : Nat) : Prop :=
  ∀ j, j < n → ∀ r ∈ rs[j]?, (insertedAt s c (rs.take j)).mayInsert c since r = true
/-- The hold queue of a slot: the entry `h` is the first released one, and none before it is a release (R25, R199). -/
abbrev NextIs (s : State) (c : CoreId) (k : BitVec 4) (pre : List Held) (h : Held) (post : List Held) : Prop :=
  (s.slot c k).hold = pre ++ h :: post ∧ h.mask = 0 ∧ h.after = 0 ∧
    ∀ x ∈ pre, (x.mask ≠ 0 ∨ x.after ≠ 0) ∧ ∀ rs scope ph, x.op = .upd rs scope ph → scope = 0
/-- The slot with a hold queue. -/
def withHold (s : State) (c : CoreId) (k : BitVec 4) (q : List Held) : State := s.setSlot c k { s.slot c k with hold := q }
/-- The context of a slot's block. -/
def ctxOf (s : State) (c : CoreId) (k : BitVec 4) : BitVec 6 := ((s.blockOf c (s.slot c k)).getD { rec0 := 0 }).ctx
/-- The slot goes on after the 12-byte instruction that held it. -/
def slotGoesOn (s : State) (c : CoreId) (k : BitVec 4) : State :=
  s.setSlot c k (Slot.advance { s.slot c k with busy := none } 12)
/-- A record of some slots: it holds an access of one, or one moved it (R205). -/
abbrev IsOf (names : List Nat) (r : Rec) : Prop := ∃ n ∈ names, n ∈ r.movers ∨ n ∈ r.srcs
/-- What a release waits for at a scope has come home (R199 step 3, R214, R221): every record of the slots that left its die is accepted, and
at `system` scope applied. -/
abbrev CameHome (s : State) (scope : BitVec 3) (names : List Nat) : Prop :=
  3 ≤ scope.toNat → (∀ x ∈ s.transit, x.r.eng = false → ¬IsOf names x.r) ∧
    (scope = 4 → ∀ x ∈ s.acceptedRecs, x.r.eng = false → ¬IsOf names x.r)
/-- No floating-point record of the slots in a range, accepted at its home, is still to be merged with the base (R45, R184; log 87). -/
abbrev FlagsRaised (s : State) (scope : BitVec 3) (rg : KeyRange) (names : List Nat) : Prop :=
  3 ≤ scope.toNat → ∀ d ∈ s.dies.toList, ∀ a ∈ d.acceptq ++ d.hostq, a.r.eng = false → a.r.op.toNat ∈ [2, 7, 8] → IsOf names a.r →
    inRange rg a.r.key = false
/-- The steps of `Drain` (R177): at each level inside the scope, innermost first, a pass over the context's records of the range, once the
pass that runs there is over; a level with none is passed by. -/
inductive DrainMoves (s : State) (c : CoreId) (n : BitVec 6) (scope : BitVec 3) (rg : KeyRange) (who : List Nat) :
    DrainSt → DrainSt → State → Prop where
  | start : DrainMoves s c n scope rg who .todo (.level 0 none) s
  | over (i : Nat) : (inside c scope).length ≤ i → DrainMoves s c n scope rg who (.level i none) .sent s
  | empty (i : Nat) (lv : LevelId) : (inside c scope)[i]? = some lv →
    (∀ r ∈ (s.run lv).recs, r.ctx = n → inRange rg r.key = false) → DrainMoves s c n scope rg who (.level i none) (.level (i + 1) none) s
  | pass (i : Nat) (lv : LevelId) : (inside c scope)[i]? = some lv → (∃ r ∈ (s.run lv).recs, r.ctx = n ∧ inRange rg r.key = true) →
    (s.run lv).pass = none → s.moves lv = true →
    DrainMoves s c n scope rg who (.level i none) (.level i (some s.seqno))
      ({ s with seqno := s.seqno + 1 }.setRun lv { s.run lv with
        pass := some { id := s.seqno, sel := some (n, rg), who := who }, lastMove := s.now lv,
        moves := if levelNum lv = 2 then 4 else 1, yields := 0 })
  | past (i : Nat) (lv : LevelId) (id : Nat) : (inside c scope)[i]? = some lv → (∀ p, (s.run lv).pass = some p → p.id ≠ id) →
    DrainMoves s c n scope rg who (.level i (some id)) (.level (i + 1) none) s

end Sys2Proof.Claims

/-- The first entry of a slot's hold queue that waits for nothing, with no release before it, proceeds: a held load goes from this moment,
without snapshots where its scope reaches the device; a plain update leaves the queue with its records inserted into cog 0 in order. Where
only the first of them may be inserted the rest stays in its place, and a new key waits from this moment; the resumption of such an
update inserts them when there is room. -/
def Sys2Proof.Claims.HeldAccessesProceed : Prop :=
  ∀ (c : CoreId) (k : BitVec 4) (pre : List Held) (h : Held) (post : List Held) (s : State), NextIs s c k pre h post →
    s.coreRuns c = true →
    (∀ tag l, h.op = .load tag → InFlight s c k tag l → baseOnly l.kind ≠ none →
      let u := withHold { s with seqno := s.seqno + 1 } c k (pre ++ post)
      exec (.heldAccessProceed c k) s =
        .next (withTag u c k tag { l with st := .going, issued := s.instant c, left := s.seqno, fresh := true })) ∧
    (∀ rs ph, h.op = .upd rs 0 ph →
      let i := if h.since = none then Instr.heldAccessProceed c k else Instr.updateInsertResume c k
      (FirstRoom s c h.since rs rs.length →
        exec i s = .next (withHold (insertedAt s c rs) c k (pre ++ post))) ∧
      ∀ n r, n ≤ rs.length → rs[n]? = some r → FirstRoom s c h.since rs n → (insertedAt s c (rs.take n)).mayInsert c h.since r = false →
        let t := insertedAt s c (rs.take n)
        let since := if h.since = none ∧ t.heldAt (.cog0 c) r.key = none then some t.seqno else h.since
        (0 < n ∨ since ≠ h.since) →
        exec i s = .next (withHold { t with seqno := t.seqno + 1 } c k
          (pre ++ { h with op := .upd (rs.drop n) 0 ph, keys := (rs.drop n).map (fun x => x.key), since := since } :: post)))

/-- A release update at the head of the hold queue with its loads performed, or a DRAIN or FENCE that holds its slot with no load in
flight and nothing held, takes the steps of its drain over its context at its scope one after another. With the drain over, and the
records of the slot's accesses and those it moved come home, the update inserts its records and leaves the queue, DRAIN ends once the
flags of its range are raised at the base (log 87), and FENCE drops the core's snapshots where its scope reaches the device and, without `ENG`, ends; with `ENG` it ends when no record or command of the slot
is on its way (a faulted command is, log 36: DEDUCED), its snapshots dropped again, and holds its slot until then. -/
def Sys2Proof.Claims.ReleasesComplete : Prop :=
  (∀ (c : CoreId) (k : BitVec 4) (h : Held) (rest : List Held) (rs : List Rec) (scope : BitVec 3) (s : State),
    (s.slot c k).hold = h :: rest → scope ≠ 0 → s.coreRuns c = true →
    (∀ ph ph' t, h.op = .upd rs scope ph → h.mask = 0 → h.loads = 0 →
      DrainMoves s c (ctxOf s c k) scope none (s.names c k) ph ph' t →
      exec (.releaseProceed c k) s = .next (withHold t c k ({ h with op := .upd rs scope ph' } :: rest))) ∧
    (h.op = .upd rs scope .sent → CameHome s scope (s.names c k) → FirstRoom s c h.since rs rs.length →
      exec (.releaseComplete c k) s = .next (withHold (insertedAt s c rs) c k rest))) ∧
  (∀ (c : CoreId) (k : BitVec 4) (scope : BitVec 3) (rg : KeyRange) (fence : Option Bool) (id : Nat) (s : State),
    (s.slot c k).hold = [] → s.coreRuns c = true →
    (∀ ph ph' t, (s.slot c k).busy = some (.drain scope rg fence ph id) → (s.slot c k).tags = [] →
      DrainMoves s c (ctxOf s c k) scope rg (s.names c k) ph ph' t →
      exec (.releaseProceed c k) s = .next (t.setSlot c k { t.slot c k with busy := some (.drain scope rg fence ph' id) })) ∧
    ((s.slot c k).busy = some (.drain scope rg fence .sent id) → CameHome s scope (s.names c k) →
      let t := if 3 ≤ scope.toNat then s.setCore c { s.core c with l1 := [] } else s
      (fence = none → FlagsRaised s scope rg (s.names c k) → exec (.releaseComplete c k) s = .next (slotGoesOn s c k)) ∧
      (fence = some false → exec (.releaseComplete c k) s = .next (slotGoesOn t c k)) ∧
      (fence = some true → t.fenceApplied c k = true →
        exec (.releaseComplete c k) s = .next (slotGoesOn (t.setCore c { t.core c with l1 := [] }) c k)) ∧
      (fence = some true → t.fenceApplied c k = false →
        exec (.releaseComplete c k) s = .next (t.setSlot c k { t.slot c k with busy := some .fenceApply })))) ∧
  (∀ (c : CoreId) (k : BitVec 4) (s : State), (s.slot c k).busy = some .fenceApply → s.coreRuns c = true → s.fenceApplied c k = true →
    exec (.fenceApplyComplete c k) s = .next (slotGoesOn (s.setCore c { s.core c with l1 := [] }) c k))

namespace Sys2Proof.Claims

-- records, runs and the base (spec/08)

/-- Within an element of an update other than SET the mask bits are all set or all clear (R168). -/
abbrev WholeElements (r : Rec) : Prop := ∀ b, b < 8 → r.mask.getLsbD b = r.mask.getLsbD (b / 2 ^ r.w.toNat * 2 ^ r.w.toNat)
/-- Two float updates of one operator, whose pair rounds once or picks among floats: not among those below. -/
def bothFloat (r1 r2 : Rec) : Bool := decide (r1.op = r2.op) && decide (r1.op.toNat ∈ [2, 7, 8])
/-- Element e of a word, for a width (R168). -/
def elementOf (w : BitVec 2) (v : Word) (e : Nat) : Nat := v.toNat / 256 ^ (e * 2 ^ w.toNat) % 256 ^ 2 ^ w.toNat
/-- The type of a float operator's elements, and how it computes: to nearest even, subnormals kept (R169, R183). -/
def floatOf (w : BitVec 2) (k : Bool) : FpEnv := ⟨if w = 3 then .fp64 else if w = 2 then .fp32 else if k then .bf16 else .fp16, .rne, false, false⟩
/-- R169's table: `Op(v, x)` on elements of a width, with the flags that it raises. -/
def opTable (op : BitVec 4) (w : BitVec 2) (k : Bool) (v x : Nat) : Nat × FFlags :=
  let b := 8 * 2 ^ w.toNat
  match op.toNat with
  | 0 => (x, 0)
  | 1 => ((v + x) % 2 ^ b, 0)
  | 2 => (floatOf w k).add v x
  | 3 => (if sgn b x < sgn b v then x else v, 0)
  | 4 => (if sgn b v < sgn b x then x else v, 0)
  | 5 => (min v x, 0)
  | 6 => (max v x, 0)
  | 7 => (floatOf w k).minMax false v x
  | 8 => (floatOf w k).minMax true v x
  | 9 => (Nat.land v x, 0)
  | 10 => (Nat.lor v x, 0)
  | 11 => (Nat.xor v x, 0)
  | _ =>
    if k then ((max (-(2 ^ (b - 1) : Int)) (min (2 ^ (b - 1) - 1) (sgn b v + sgn b x)) % 2 ^ b).toNat, 0)
    else (min (v + x) (2 ^ b - 1), 0)
/-- The width by which a record acts: a SET byte by byte, so also one that a host or an engine wrote in part of an element (log 13). -/
def actsBy (r : Rec) : BitVec 2 := if r.op = 0 then 0 else r.w
/-- Element e of a record is present. -/
def hasElement (r : Rec) (e : Nat) : Bool := r.mask.getLsbD (e * 2 ^ (actsBy r).toNat)
/-- `OP`, `W` and `K` are a float operator's only as the table lists them. -/
abbrev ListedOp (r : Rec) : Prop := r.op.toNat ≤ 12 ∧ (r.op.toNat ∈ [2, 7, 8] → r.w ≠ 0 ∧ (r.k = true → r.w = 1))

end Sys2Proof.Claims

/-- Applying a record replaces each present element of a word by R169's `Op` of it and the record's, leaves every other as it was, and raises what its
float operators raise: ADD and SADD by width, wrapping or clamped, MIN and MAX signed and natural, SET byte by byte, AND, OR and XOR by bits, FADD, FMIN
and FMAX as the scalar instructions' values under `rne` without flushes. For all records of one key word whose updates hold whole elements, other than two float updates of one operator: where they combine,
applying the combined record to any word gives what applying the first and then the second gives; the combined record has the key and
context of both, is poisoned when either is, and names the source of the second. Records of two contexts never combine. -/
def Obligations.CombiningKeepsTheFinalValue : Prop :=
  (∀ (r : Rec) (v : Word), ListedOp r → WholeElements r →
    let n := 8 / 2 ^ (actsBy r).toNat
    let got (e : Nat) : Nat × FFlags := opTable r.op (actsBy r) r.k (elementOf (actsBy r) v e) (elementOf (actsBy r) r.value e)
    (∀ e, e < n → elementOf (actsBy r) (r.apply v).1 e = if hasElement r e then (got e).1 else elementOf (actsBy r) v e) ∧
    (r.apply v).2 = (List.range n).foldl (fun fl e => if hasElement r e then fl ||| (got e).2 else fl) 0) ∧
  (∀ (r1 r2 x : Rec) (fl : FFlags) (v : Word), WholeElements r1 → WholeElements r2 → r1.op.toNat ≤ 12 → r2.op.toNat ≤ 12 → r1.key = r2.key →
    bothFloat r1 r2 = false → combine r1 r2 = some (x, fl) →
    (x.apply v).1 = (r2.apply (r1.apply v).1).1 ∧ x.key = r1.key ∧ x.ctx = r1.ctx ∧ x.pois = (r1.pois || r2.pois) ∧ x.sdie = r2.sdie ∧
      x.score = r2.score) ∧
  ∀ (r1 r2 : Rec), r1.ctx ≠ r2.ctx → combine r1 r2 = none

namespace Sys2Proof.Claims

/-- The derailleur of a level works (R346, R355). -/
abbrev Works (s : State) (lv : LevelId) : Prop :=
  (s.die (levelDie lv)).held = false ∧ (levelNum lv = 2 ∨ (s.die (levelDie lv)).stopped = false)
/-- The watermark of a level (R17, R177): for cog 0 the least of its bound blocks, 48 where there is none. -/
def markOf (s : State) : LevelId → Nat
  | .cog0 c => (((s.core c).table.filter fun e => !e.2.held).map fun e => e.2.cwm.toNat).min?.getD 48
  | .cog1 _ _ => 3072
  | .cog2 _ => 196608
/-- A level with a pass, or without one. -/
def withPass (s : State) (lv : LevelId) (p : Option Pass) : State := s.setRun lv { s.run lv with pass := p }
/-- A pass of a level's own has started: its moves begin in the next cycle (R177). -/
def passStarted (s : State) (lv : LevelId) : State :=
  s.setRun lv { s.run lv with
    pass := some {}, lastMove := (s.die (levelDie lv)).clock, moves := if levelNum lv = 2 then 4 else 1, yields := 0 }
/-- A pass selects a record: any, or those of a context in a range (R177). -/
abbrev Selects (p : Pass) (r : Rec) : Prop := ∀ n rg, p.sel = some (n, rg) → r.ctx = n ∧ inRange rg r.key = true
/-- A pass yields in this cycle (R294): a load has looked its level up in it, and it has not yielded three times in a row. -/
abbrev Yields (r : Run) (now : Nat) : Prop := r.looked = now + 1 ∧ ¬(3 ≤ r.yields ∧ r.yieldAt = now)

/-- An entry of a race trace ring (R182). -/
def raceWords (r1 r2 : Rec) (level clock : Nat) : List Word :=
  [BitVec.ofNat 64 (1 + 2 * (level - 1) + 2 ^ 3 * (r1.key % 2 ^ 49) + 2 ^ 52 * r1.op.toNat + 2 ^ 56 * (r1.mask &&& r2.mask).toNat),
   BitVec.ofNat 64 (r1.ctx.toNat + 2 ^ 6 * (r1.score.toNat + 2 ^ 10 * r1.sdie.toNat) + 2 ^ 19 * (r2.score.toNat + 2 ^ 10 * r2.sdie.toNat)
     + 2 ^ 32 * (clock % 2 ^ 32)), r1.value, r2.value]
/-- A die with its race trace ring; without one no race waits (R295). -/
def withRaceRing (s : State) (d : BitVec 3) (q : Option Race) : State :=
  s.setDie d { s.die d with race := q, raced := if q = none then [] else (s.die d).raced }
/-- A race of two records noted for the die's ring, where that is of their context (R182). -/
def raceNoted (s : State) (d : BitVec 3) (level : Nat) (r1 r2 : Rec) : State :=
  if (s.die d).race.any fun q => decide (q.ctx = r1.ctx) then
    s.setDie d { s.die d with raced := (s.die d).raced ++ [(r1, r2, level, (s.die d).clock)] }
  else s

end Sys2Proof.Claims

/-- Inserting at a level: a new key is placed; a record of the key that combines is replaced by the combination, and where the two are a SET
race it is noted for the ring of their context; otherwise the old one goes one level out and the new one is placed. The oldest race noted is written
once the ring's pages can be walked: while the ring has room as an entry and, that applied, in `PROD`; where it has none after `CONSR` is read again it
counts as dropped; a write that fails disables the ring. A derailleur that works starts a pass when its run is at the watermark, or holds records and
has had no insertion for 2,048 cycles. A pass with its rate not used up (4 records a cycle at cog 2, 1 inside) moves the first record from its cursor
up that it selects one level out, marked with those who asked for the pass, where there is room; it goes on past that key, or ends above the
highest key that it selects; with nothing left it ends. In a cycle with a load's lookup at its level it yields, at most three times in a row. -/
def Sys2Proof.Claims.InsertionAndPasses : Prop :=
  (∀ (s : State) (lv : LevelId) (r : Rec),
    (s.heldAt lv r.key = none → s.insertRec lv r = s.putRec lv r) ∧
    (∀ r1 x fl, s.heldAt lv r.key = some r1 → combine r1 r = some (x, fl) →
      let t := (s.putRec lv x).raiseM r.ctx fl
      let race := levelNum lv ≠ 0 ∧ r.op = 0 ∧ r1.mask &&& r.mask ≠ 0 ∧ (r1.sdie ≠ r.sdie ∨ r1.score ≠ r.score)
      (¬race → s.insertRec lv r = t) ∧ (race → s.insertRec lv r = raceNoted t (levelDie lv) (levelNum lv) r1 r)) ∧
    (∀ r1, s.heldAt lv r.key = some r1 → combine r1 r = none →
      let u := s.removeRec lv r.key
      s.insertRec lv r = State.putRec (match lv with
        | .cog0 c => u.insertRec (.cog1 c.die (BitVec.ofNat 6 c.cluster)) r1
        | .cog1 d _ => u.insertRec (.cog2 d) r1
        | .cog2 d => u.leaveDie d r1) lv r)) ∧
  (∀ (s t u w : State) (d : BitVec 3) (q : Race) (r1 r2 : Rec) (level clock : Nat) (more : List (Rec × Rec × Nat × Nat)) (rest : List Action),
    s.agenda = .race d :: rest → ({ s with agenda := rest } : State).turnWaits = false → (s.die d).raced = (r1, r2, level, clock) :: more →
    (s.die d).held = false → (s.die d).race = some q → ({ s with agenda := rest } : State).hubWalk d q.ctx q.base = some t →
    t.hubWalk d q.ctx (q.base + 64 + 32 * (q.prod % q.len)) = some u → u.readConsr d q = some w →
    step s = .next ((w.setDie d { w.die d with raced := more }).traceRace d level clock r1 r2)) ∧
  (∀ (s : State) (d : BitVec 3) (level clock : Nat) (r1 r2 : Rec), 1 ≤ level → level ≤ 2 →
    ((∀ q, (s.die d).race = some q → q.ctx ≠ r1.ctx) → s.traceRace d level clock r1 r2 = s) ∧
    ∀ q, (s.die d).race = some q → q.ctx = r1.ctx →
      (∀ cons, (q.prod - q.cons < q.len → cons = q.cons) →
        (q.len ≤ q.prod - q.cons → ∃ pa, s.hubWrite q.ctx (q.base + 16) = some pa ∧ cons = (s.baseWord (pa / 8)).toNat) →
        (q.prod - cons < q.len → ∀ b u b' w,
          s.statusWrite d q.ctx 0 (q.base + 64 + 32 * (q.prod % q.len)) (raceWords r1 r2 level clock) = (b, u) →
          (b = false → s.traceRace d level clock r1 r2 = withRaceRing u d none) ∧
          (b = true → u.statusWrite d q.ctx 0 q.base [BitVec.ofNat 64 (q.prod + 1)] [s.seqno, s.seqno + 1, s.seqno + 2, s.seqno + 3] = (b', w) →
            s.traceRace d level clock r1 r2 = withRaceRing w d (if b' then some { q with prod := q.prod + 1, cons := cons } else none))) ∧
        (q.len ≤ q.prod - cons → ∀ b u,
          let n := min (q.drop + 1) (2 ^ 64 - 1)
          s.statusWrite d q.ctx 0 (q.base + 8) [BitVec.ofNat 64 n] = (b, u) →
            s.traceRace d level clock r1 r2 = withRaceRing u d (if b then some { q with drop := n, cons := cons } else none)))) ∧
  (∀ (s : State) (lv : LevelId), Works s lv → (s.run lv).pass = none →
    (markOf s lv ≤ (s.run lv).recs.length → exec (.watermarkPassStart lv) s = .next (passStarted s lv)) ∧
    ((s.run lv).recs ≠ [] → (s.run lv).lastIns + 2048 ≤ (s.die (levelDie lv)).clock →
      exec (.idlePassStart lv) s = .next (passStarted s lv))) ∧
  (∀ (s : State) (lv : LevelId) (p : Pass), Works s lv → (s.run lv).pass = some p →
    let now := (s.die (levelDie lv)).clock
    let q := s.run lv
    (Yields q now → q.yieldAt ≠ now + 1 → exec (.derailleurMove lv) s =
      .next (s.setRun lv { q with yieldAt := now + 1, yields := if q.yieldAt = now then q.yields + 1 else 1 })) ∧
    (¬Yields q now →
      ((∀ r ∈ q.recs, p.cursor ≤ r.key → ¬Selects p r) → exec (.derailleurMove lv) s = .next (withPass s lv none)) ∧
      ∀ (pre post : List Rec) (x : Rec), q.recs = pre ++ x :: post → (∀ r ∈ pre, p.cursor ≤ r.key → ¬Selects p r) → p.cursor ≤ x.key →
        Selects p x →
        let moved := if q.lastMove = now then q.moves else 0
        moved < (if levelNum lv = 2 then 4 else 1) →
        let y := { x with movers := (x.movers ++ p.who).eraseDups }
        let u := (s.setRun lv { q with lastMove := now, moves := moved + 1 }).removeRec lv x.key
        u.roomOut lv y = true →
        let t := u.insertOut lv y
        ((∃ r ∈ (t.run lv).recs, x.key < r.key ∧ Selects p r) →
          exec (.derailleurMove lv) s = .next (withPass t lv (some { p with cursor := x.key + 1 }))) ∧
        ((∀ r ∈ (t.run lv).recs, x.key < r.key → ¬Selects p r) → exec (.derailleurMove lv) s = .next (withPass t lv none))))

namespace Sys2Proof.Claims

/-- A die with its queue of accepted records. -/
def withAccepted (s : State) (d : BitVec 3) (q : List Accepted) : State := s.setDie d { s.die d with acceptq := q }
/-- A record applied at a die (R186): on a poisoned key it is dropped and logged with cause 1; otherwise the base word becomes its result, its
flags go to the context's MFLAGS, and a poisoned record poisons the key and is logged with cause 2. -/
def appliedAt (s : State) (d : BitVec 3) (r : Rec) : State :=
  if s.keyPois r.key then s.logMerge d r 1
  else
    let t := (s.writeMem (8 * r.key) (r.apply (s.baseWord r.key)).1.toNat 8).raiseM r.ctx (r.apply (s.baseWord r.key)).2
    if r.pois then { t with poisKeys := insertNum r.key t.poisKeys }.logMerge d r 2 else t
/-- The engine writes of which a die has now applied a record, one of a write or of none, and another is still to come (R338). -/
def openWrites (s : State) (d : BitVec 3) (unit : Nat) (rest : List Accepted) : List Nat :=
  (if unit = 0 then (s.die d).begun else insertNum unit (s.die d).begun).filter fun u =>
    rest.any (fun a => decide (a.r.unit = u)) || s.transit.any fun x => decide (x.r.unit = u)
/-- A die with its open engine writes. -/
def withBegun (s : State) (d : BitVec 3) (us : List Nat) : State := s.setDie d { s.die d with begun := us }
/-- The SET records of a line that a host wrote back: one for each key word that a host may write (R371). Whether they are poisoned is a free value
(log 100). -/
def lineRecords (s : State) (die : BitVec 3) (line : Nat) (bs : List Byte) : List Accepted :=
  let word (key : Nat) : Word := BitVec.ofNat 64 ((List.range 8).foldr (fun b a => (bs.getD (8 * key - 64 * line + b) 0).toNat + 256 * a) 0)
  (((List.range 8).map fun j => 8 * line + j).filter hostMayWrite).zipIdx.map fun e =>
    ⟨s.seqno + e.2, setRec e.1 (word e.1) 0xFF 0 ((s.hostDie die).getD die) 0 1 ((Config.freeWord s.fresh).getLsbD 0) [] true⟩
/-- A queue of records ready for the host, and write-backs on their way to it. -/
def withHostq (s : State) (d : BitVec 3) (q go : List Accepted) : State :=
  s.setDie d { s.die d with hostq := q, hostGo := go }

/-- How long a source's turn at a home is off, after the source granted last (R294): the dies 0 to 7, the spokes 8 to 39, the host 40. -/
def wait (last src : Nat) : Nat := (src + 40 - last % 41) % 41

end Sys2Proof.Claims

/-- A record on its way, with no earlier one of its key from its source and those that it must follow applied, is accepted: at a live home die, one in a
cycle, the sources in turn among those with a record waiting there; by a live host agent; or by a peer that a route reaches (which applies it
later, log 17). One that has to wait is noted as arrived (log 20). A die, also a held one (log 16), applies its oldest accepted record, and notes the
engine writes that this leaves half done, once no host copy of its line is left and the row can be opened (log 73), and otherwise snoops the line once.
The host's answer frees the line, with the SET records (log 13) of a dirty one ahead of the queue (log 51), poisoned as a free value has it (log 100).
The host agent applies its oldest record and awaits its observation, which ends the wait. A record with no live home for 600,000 cycles is dropped,
logged with its context if it is a die's own, and ends the launches that issued it. -/
def Sys2Proof.Claims.RecordsReachTheBase : Prop :=
  (∀ (s : State) (n : Nat) (x : Transit), s.transit[n]? = some x →
    (∀ y ∈ s.transit.take n, y.src = x.src → y.r.eng = x.r.eng → y.r.key ≠ x.r.key) → s.unapplied x.after = false →
    let t := { s with transit := s.transit.eraseIdx n }
    let pa := 8 * x.r.key
    let home := s.die (homeDie pa)
    let first := home.accAt ≤ home.clock ∧ ∀ y ∈ s.transit, y.arrived = true → place (8 * y.r.key) = 0 → homeDie (8 * y.r.key) = homeDie pa →
      wait home.accLast x.src ≤ wait home.accLast y.src
    (place pa = 0 → home.held = false →
      (first → exec (.recordAccept n) s = .next (t.setDie (homeDie pa) { home with
        accLast := x.src, accAt := home.clock + 1, acceptq := home.acceptq ++ [⟨x.id, x.r⟩] })) ∧
      (¬first → x.arrived = false →
        exec (.recordAccept n) s = .next { s with transit := s.transit.set n { x with arrived := true } })) ∧
    (∀ d, place pa = 0xFFF → s.hostDie x.die = some d → (s.die d).held = false →
      exec (.recordAccept n) s = .next (withHostq t d ((s.die d).hostq ++ [⟨x.id, x.r⟩]) (s.die d).hostGo)) ∧
    (place pa ≠ 0 → place pa ≠ 0xFFF → s.peerLive x.die pa = true →
      exec (.recordAccept n) s = .next { t with peerq := s.peerq ++ [⟨x.id, x.r⟩] })) ∧
  (∀ (s : State) (d : BitVec 3) (a : Accepted) (rest : List Accepted), (s.die d).acceptq = a :: rest →
    let line := a.r.key / 8
    let h := homeDie (64 * line)
    ((s.die h).snoop.contains line = false → ∀ w, s.openRow line a.id = some w →
      exec (.applyToBase d) s = .next (appliedAt (withBegun (withAccepted w d rest) d (openWrites s d a.r.unit rest)) d a.r)) ∧
    ((s.die h).snoop.contains line = true → (s.die h).snooped.contains line = false →
      exec (.applyToBase d) s = .next (s.setDie h { s.die h with snooped := insertNum line (s.die h).snooped }))) ∧
  (∀ (s : State) (die : BitVec 3) (line : Nat), (s.die die).snooped.contains line = true →
    let d := s.die die
    let freed (q : List Accepted) : Die := { d with
      snooped := d.snooped.filter fun l => decide (l ≠ line), snoop := d.snoop.filter fun l => decide (l ≠ line), acceptq := q }
    exec (.birspi die line none) s = .next ({ s with fresh := s.fresh + 1 }.setDie die (freed d.acceptq)) ∧
    ∀ bs, bs.length = 64 →
      let rs := lineRecords s die line bs
      exec (.birspi die line (some bs)) s = .next ({ s with seqno := s.seqno + rs.length, fresh := s.fresh + 1 }.setDie die (freed (rs ++ d.acceptq)))) ∧
  (∀ (s : State) (d : BitVec 3) (a : Accepted) (rest : List Accepted), (s.die d).hostq = a :: rest →
    exec (.hostAgentApply d) s = .next (appliedAt (withHostq s d rest ((s.die d).hostGo ++ [a])) d a.r)) ∧
  (∀ (s : State) (d : BitVec 3) (a : Accepted) (rest : List Accepted), (s.die d).hostGo = a :: rest →
    exec (.globalObservationResponse d) s = .next (withHostq s d (s.die d).hostq rest)) ∧
  (∀ (s : State) (n : Nat) (x : Transit), s.transit[n]? = some x → x.since + 600000 ≤ (s.die x.die).clock →
    let pa := 8 * x.r.key
    ((place pa = 0 ∧ (s.die (homeDie pa)).held = true) ∨ (place pa = 0xFFF ∧ ∀ d, s.hostDie x.die = some d → (s.die d).held = true) ∨ isPeer pa = true) →
    exec (.recordUndeliverable n) s = .next (({ s with transit := s.transit.eraseIdx n }.logEvent x.die 0x0F
      (if x.src < 8 then some x.r.ctx else none) 0 0 1 0).endLaunchesOf
      (if x.r.eng then x.r.movers else x.r.srcs) 0x06))

namespace Sys2Proof.Claims

/-- The byte that a host write with byte enables writes at an address. -/
def byteFor (pa : Nat) (data : List (Option Byte)) (a : Nat) : Option Byte := if pa ≤ a then (data[a - pa]?).join else none
/-- The mask and value of a key word of some bytes at an address. -/
def wordMask (pa : Nat) (data : List (Option Byte)) (key : Nat) : Byte :=
  BitVec.ofNat 8 ((List.range 8).foldr (fun b a => a + if (byteFor pa data (8 * key + b)).isSome then 2 ^ b else 0) 0)
def wordValue (pa : Nat) (data : List (Option Byte)) (key : Nat) : Word :=
  BitVec.ofNat 64 ((List.range 8).foldr (fun b a => ((byteFor pa data (8 * key + b)).getD 0).toNat + 256 * a) 0)
/-- The SET records of a host write (R337): key words that it touches and that a host may write. -/
def hostRecords (sp : BitVec 5) (skind : BitVec 2) (pois : Bool) (pa : Nat) (data : List (Option Byte)) : List Rec :=
  ((keysAt [pa] data.length).filter fun key => decide (wordMask pa data key ≠ 0) && hostMayWrite key).map fun key =>
    setRec key (wordValue pa data key) (wordMask pa data key) 0 (BitVec.ofNat 3 (sp.toNat / 4)) (BitVec.ofNat 10 (sp.toNat % 4)) skind pois
      [] true
/-- Some records on the way from a source through a spoke, numbered from the present moment on. -/
def sentFrom (s : State) (sp : BitVec 5) (src : Nat) (rs : List Rec) : List Transit :=
  let d := BitVec.ofNat 3 (sp.toNat / 4)
  rs.zipIdx.map fun e => { id := s.seqno + e.2, die := d, r := e.1, since := (s.die d).clock, src := src }
/-- A spoke takes traffic of the host in: the device is ready, it is not fenced, and no collective block waits there for room. -/
abbrev SpokeOpen (s : State) (sp : BitVec 5) : Prop :=
  s.root.ready = true ∧ (s.spoke sp.toNat).fenced = false ∧ ((s.spoke sp.toNat).gq.length < 64 ∨ (s.spoke sp.toNat).colls = [])
/-- No line of some bytes is homed on a held die. -/
abbrev HomesLive (s : State) (pa n : Nat) : Prop := ∀ j, j < n → (s.die (homeDie (pa + j))).held = false
/-- An engine write has been applied to a line in part: of one that its home has begun, a record of the line is still to come (R338). -/
abbrev HalfDone (s : State) (line : Nat) : Prop :=
  let d := s.die (homeDie (64 * line))
  ∃ r : Rec, (r ∈ d.acceptq.map (fun a => a.r) ∨ r ∈ s.transit.map fun x => x.r) ∧ r.key / 8 = line ∧ r.unit ∈ d.begun

end Sys2Proof.Claims

/-- With the device ready, a host read of device memory whose homes are live, of which no line is being recalled or written in part by an engine, and
whose rows can be opened (log 73), returns the bytes as applied, poisoned when a key word of them is; with a CXL spoke every line it took may be held
by the host (log 50: DEDUCED). A host write from a spoke that is open, with an enabled byte, goes to its homes, in order, as one SET record (`W` 0, log 13:
DEDUCED) for each key word it touches that a host may write, with the mask of its enabled bytes; memory does not change yet. A spoke is open when the
device is ready, it is not fenced, and no collective block waits there for room. Either
stops with the model's own fault where it reaches beyond device memory. Beside the table's events the model takes these steps when the agenda
names them and no turn of the cycle is left (log 61: DESIGN CHOICE): a peer's record for device memory goes to its home as a spoke's, with
its own source die and context; a peer applies the oldest record that it has accepted; the host stores a byte into its own memory; a CXL host writes
into its trained spoke's request buffer, and reads the two buffers, the doorbell as zeros and the status. -/
def Obligations.HostAccesses : Prop :=
  (∀ (s : State) (rest : List Action), ({ s with agenda := rest } : State).turnWaits = false →
    let u : State := { s with agenda := rest }
    (∀ a q, s.agenda = .peerApply :: rest → s.peerq = a :: q → step s = .next { u with peerq := q }) ∧
    (∀ pa b, s.agenda = .hostStore pa b :: rest → place pa = 0xFFF → ∃ t, step s = .next t ∧ Memory.read t.mem pa = b ∧
      (∀ x, x ≠ pa → Memory.read t.mem x = Memory.read s.mem x) ∧ t.dies = s.dies ∧ t.cores = s.cores) ∧
    (∀ (sp : BitVec 5) (r : Rec), s.agenda = .peerRecord sp r :: rest → place (8 * r.key) = 0 → hostMayWrite r.key = true →
      SpokeOpen s sp → (s.spoke sp.toNat).cxl = false → ∃ t, step s = .next t ∧ t.mem = s.mem ∧ t.dies = s.dies ∧
        t.transit = s.transit ++ sentFrom s sp (8 + sp.toNat) [{ r with skind := 2, srcs := [], movers := [], unit := 0 }]) ∧
    (∀ (sp : BitVec 5) off data, s.agenda = .barWrite sp off data :: rest → (s.spoke sp.toNat).cxl = true → (s.spoke sp.toNat).fenced = false →
      s.root.trained = true → off + data.length ≤ 4096 → ∃ t, step s = .next t ∧ t.root = s.root ∧ (t.spoke sp.toNat).replyBuf = (s.spoke sp.toNat).replyBuf ∧
        ∀ j, j < 4096 → (t.spoke sp.toNat).reqBuf[j]? =
          some (if off ≤ j ∧ j < off + data.length then data.getD (j - off) 0 else (s.spoke sp.toNat).reqBuf.getD j 0)) ∧
    (∀ (sp : BitVec 5) off n, s.agenda = .barRead sp off n :: rest → (s.spoke sp.toNat).cxl = true → (s.spoke sp.toNat).fenced = false →
      s.root.trained = true → off + n ≤ 8208 →
      let x := s.spoke sp.toNat
      let status := 2 ^ 32 * s.root.ndone.toNat + (if s.root.claimed then 4 else 0) + (if s.root.ready then 2 else 0) + (if s.root.serving.isSome then 1 else 0)
      ∃ bytes, step s = .next { u with readOut := bytes, readPois := false } ∧ bytes.length = n ∧ ∀ i, i < n → bytes[i]? = some (
        if off + i < 4096 then x.reqBuf.getD (off + i) 0 else if off + i < 8192 then x.replyBuf.getD (off + i - 4096) 0
        else if off + i < 8200 then 0 else BitVec.ofNat 8 (status / 256 ^ (off + i - 8200))))) ∧
  (∀ (s : State) (pa n : Nat), 0 < n → pa + n ≤ 2 ^ 40 → s.root.ready = true → HomesLive s pa n →
    (∀ a, pa ≤ a → a < pa + n → (s.die (homeDie a)).snooped.contains (a / 64) = false ∧ ¬HalfDone s (a / 64)) →
    ∀ w, s.openRows s.seqno (linesOf pa n) = some w →
    let t : State := { w with
      seqno := w.seqno + 1
      readOut := (List.range n).map fun i => Memory.read s.mem (pa + i), readPois := (List.range n).any fun i => s.keyPois ((pa + i) / 8) }
    ((∀ sp, sp < 32 → (s.spoke sp).cxl = false) → exec (.hostRead pa n) s = .next t) ∧
    ((∃ sp, sp < 32 ∧ (s.spoke sp).cxl = true) → ∃ u, exec (.hostRead pa n) s = .next u ∧ u.readOut = t.readOut ∧ u.readPois = t.readPois ∧
      u.mem = s.mem ∧ ∀ a, pa ≤ a → a < pa + n → (u.die (homeDie a)).snoop.contains (a / 64) = true)) ∧
  (∀ (s : State) (sp : BitVec 5) (pa : Nat) (data : List (Option Byte)) (pois : Bool), (∃ b, some b ∈ data) →
    pa + data.length ≤ 2 ^ 40 → SpokeOpen s sp →
    ∃ t, exec (.hostWrite sp pa data pois) s = .next t ∧ t.mem = s.mem ∧ t.dies = s.dies ∧
      t.transit = s.transit ++ sentFrom s sp 40 (hostRecords sp 1 pois pa data)) ∧
  (∀ (s : State) (sp : BitVec 5) (pa n : Nat) (data : List (Option Byte)) (pois : Bool), 2 ^ 40 < pa + n → data.length = n →
    exec (.hostRead pa n) s = .fault .addressOutsideSpace ∧ exec (.hostWrite sp pa data pois) s = .fault .addressOutsideSpace)

namespace Sys2Proof.Claims

-- instructions that hold their slot, and what they read (R231, R240, R257)

/-- The core works: its die neither held nor stopped, the core not fenced. -/
abbrev CoreWorks (s : State) (c : CoreId) : Prop := (s.die c.die).held = false ∧ (s.die c.die).stopped = false ∧ (s.core c).fenced = false
/-- A read that holds its slot returns a value with its poison, and leaves the machine so: as a load's piece that folds, or, where no answer
has come in 600,000 cycles from a peer or a held die, poison with a free value (R333, R347, log 5). -/
abbrev Returns (s : State) (c : CoreId) (issued left pa size v : Nat) (po : Bool) (t : State) : Prop :=
  let lost := silent s c.die pa = true ∧ issued + 600000 ≤ s.instant c
  CoreWorks s c ∧ (lost → v = (Config.freeWord s.fresh).toNat ∧ po = true ∧ t = { s with fresh := s.fresh + 1 }) ∧
  (¬lost → ∃ sn, s.readPiece c { kind := .ld, dst := [], elems := [], scope := 0, w := 3, sext := false, taint := 0, issued := issued, left := left }
    false pa size = some (v, po, sn, t))
/-- The words of an image as read in one instant. -/
def imageRead (ws : List WordRead) (v : Nat) (po : Bool) : List WordRead :=
  ws.zipIdx.map fun (w, j) => { w with got := some (BitVec.ofNat 64 (v / 2 ^ (64 * j)), po) }
/-- The slot with what holds it. -/
def withBusy (s : State) (c : CoreId) (k : BitVec 4) (b : Busy) : State := s.setSlot c k { s.slot c k with busy := some b }
/-- The slot is held no more, and traps. -/
def busyTrap (s : State) (c : CoreId) (k : BitVec 4) (cause : Byte) (addr : Word) : State :=
  State.deliverTrap (s.setSlot c k { s.slot c k with busy := none }) c k cause addr (s.slot c k).pc
/-- The ring that a ring image makes (R234). -/
def ringFrom (b : Block) (v : Nat) : Ring := {
  cfg := true, slots := BitVec.ofNat 18 v, depth := BitVec.ofNat 7 (v / 2 ^ 24), desc := BitVec.ofNat 6 (b.desc0 + v / 2 ^ 32 % 64) }
/-- The block of a slot. -/
def blockOn (s : State) (c : CoreId) (k : BitVec 4) : Block := (s.blockOf c (s.slot c k)).getD { rec0 := 0 }
/-- The slab of a core with another sequencer. -/
def seqAt (s : State) (c : CoreId) (q : Sequencer) : State := s.setSlab c { s.slab c with seq := q }

end Sys2Proof.Claims

/-- An image read of a slot with nothing held and no taint to wait for reads its image in one instant. A poisoned one traps with poison. TDSET
writes a valid descriptor or, where the image is bad, traps with illegal operand; RINGCFG on an idle ring makes the ring empty with the
image's place, depth and descriptor, or traps likewise; CPY takes the trap that its checks find, or goes on to wait for its command slot
(its record's address, where it has one, being translated first). BSLD reads each word at its own instant, traps when one is poisoned, and
else stores them when the sequencer is not running. TLD reads each word so, none before an earlier load of its slot that overlaps it is gone (R212), and
with the last writes the tile, each row poisoned when a word of it is; of a tile that another slot's MMA has locked it reads nothing (log 96: the
model's choice). The slot then goes on. -/
def Obligations.HeldReadsReturn : Prop :=
  (∀ (s t : State) (c : CoreId) (k : BitVec 4) (n : Nat) (what : ImageFor) (issued left v : Nat) (w : WordRead) (ws : List WordRead)
      (po : Bool),
    (s.slot c k).busy = some (.image what 0 issued (w :: ws) left) → (s.slot c k).hold = [] → (∀ ix, what ≠ .bsld ix) →
    (∃ x ∈ w :: ws, x.got = none) →
    Returns s c issued left w.pa (8 * (ws.length + 1)) v po t →
    let b := blockOn t c k
    let e := Instr.imageReadReturn c k n
    (po = true → exec e s = .next (busyTrap t c k causePoison 0)) ∧
    (po = false → v < 2 ^ (64 * (ws.length + 1)) →
      (∀ d, what = .tdset d → ws.length = 3 →
        (descBad (BitVec.ofNat 256 v) = true → exec e s = .next (busyTrap t c k causeOperand 0)) ∧
        (descBad (BitVec.ofNat 256 v) = false → exec e s = .next (slotGoesOn (t.setCore c { t.core c with
          descs := Sparse.set (t.core c).descs d.toNat { image := BitVec.ofNat 256 v, valid := true } }) c k))) ∧
      (∀ q, what = .ringcfg q → ws.length = 1 →
        (t.ringBad c b (BitVec.ofNat 128 v) = true → exec e s = .next (busyTrap t c k causeOperand 0)) ∧
        (t.ringBad c b (BitVec.ofNat 128 v) = false → (t.core c).ringIdle (b.ring0 + q.toNat) = true →
          exec e s = .next (slotGoesOn (t.setRing c (b.ring0 + q.toNat) (ringFrom b v)) c k))) ∧
      (∀ d, what = .cpy d → ws.length = 7 →
        let im := BitVec.ofNat 512 v
        (∀ cause addr, t.cpyBad c b im = some (cause, addr) → exec e s = .next (busyTrap t c k cause (BitVec.ofNat 64 addr))) ∧
        (t.cpyBad c b im = none → (cmdPrec im = 0 ∨ ∃ pa, t.translate c k.toNat b.boot b.ctx (BitVec.ofNat 64 (cmdPrec im)) { w := true } = .ok pa) →
          exec e s = .next (withBusy { t with seqno := t.seqno + 1 } c k (.cpy d im (cmdPrec im) t.seqno)))))) ∧
  (∀ (s t : State) (c : CoreId) (k : BitVec 4) (n v : Nat) (ix : BitVec 10) (issued left : Nat) (w : WordRead) (ws : List WordRead) (po : Bool),
    (s.slot c k).busy = some (.image (.bsld ix) 0 issued ws left) → (s.slot c k).hold = [] → ws[n]? = some w → w.got = none →
    Returns s c issued left w.pa 8 v po t →
    exec (.imageReadReturn c k n) s =
      .next (withBusy t c k (.image (.bsld ix) 0 issued (ws.set n { w with got := some (BitVec.ofNat 64 v, po) }) left))) ∧
  (∀ (s : State) (c : CoreId) (k : BitVec 4) (n : Nat) (ix : BitVec 10) (issued left : Nat) (ws : List WordRead), CoreWorks s c →
    (s.slot c k).busy = some (.image (.bsld ix) 0 issued ws left) → (s.slot c k).hold = [] → (∀ x ∈ ws, x.got ≠ none) →
    ((∃ x ∈ ws, ∃ v, x.got = some (v, true)) → exec (.imageReadReturn c k n) s = .next (busyTrap s c k causePoison 0)) ∧
    ((∀ x ∈ ws, ∃ v, x.got = some (v, false)) →
      exec (.imageReadReturn c k n) s = .next (withBusy s c k (.bsld ix (ws.map fun x => ⟨(x.got.getD (0, false)).1, false⟩))))) ∧
  (∀ (s : State) (c : CoreId) (k : BitVec 4) (n : Nat) (ix : BitVec 10) (vals : List MsgWord), CoreWorks s c →
    (s.slot c k).busy = some (.bsld ix vals) → (s.slab c).seq.st ≠ .running →
    ∃ t, exec (.imageReadReturn c k n) s = .next (slotGoesOn (seqAt s c t) c k) ∧
      (∀ j, j < vals.length → Sparse.get 0 t.store (ix.toNat + j) = (vals.getD j ⟨0, false⟩).val ∧ ix.toNat + j ∉ t.storePois) ∧
      (∀ j, j < ix.toNat ∨ ix.toNat + vals.length ≤ j → Sparse.get 0 t.store j = Sparse.get 0 (s.slab c).seq.store j)) ∧
  (∀ (s t : State) (c : CoreId) (k : BitVec 4) (n v tile issued left : Nat) (w : WordRead) (ws : List WordRead) (po : Bool),
    (s.slot c k).busy = some (.tld tile 0 issued ws left) → (s.slot c k).hold = [] → ((s.core c).tile tile).busy = 0 → ws[n]? = some w →
    w.got = none → (∀ e ∈ (s.slot c k).tags, e.2.id < left → ∀ a ∈ e.2.elems, w.pa / 8 ∉ keysAt [a.pa] a.size) →
    Returns s c issued left w.pa 8 v po t →
    let ws' := ws.set n { w with got := some (BitVec.ofNat 64 v, po) }
    ((∃ x ∈ ws', x.got = none) → exec (.tldTileWrite c k n) s = .next (withBusy t c k (.tld tile 0 issued ws' left))) ∧
    (ws.length = 128 → (∀ x ∈ ws', x.got ≠ none) →
      ∃ y : Tile, exec (.tldTileWrite c k n) s = .next (slotGoesOn (t.setTile c tile y) c k) ∧ y.busy = 0 ∧
        (∀ j, j < 128 → y.val.extractLsb' (64 * j) 64 = (((ws'.getD j ⟨0, none⟩).got).getD (0, false)).1) ∧
        (∀ r, r < 16 → y.pois.getLsbD r =
          (List.range 8).any fun j => (((ws'.getD (8 * r + j) ⟨0, none⟩).got).getD (0, false)).2)))

namespace Sys2Proof.Claims

-- the copy engine (R219, R250 to R254)

/-- A command without a slot of its core's commands. -/
def withoutCmd (s : State) (c : CoreId) (n : Nat) : State :=
  let t := s.setDie c.die { s.die c.die with
    misses := (s.die c.die).misses.filter fun (x : Miss) => !(decide (x.core = c) && decide (x.who = 16 + n)) }
  t.setCore c { t.core c with cmds := Sparse.del (t.core c).cmds n }
/-- The unit in hand of a running command may be taken up: the engine is free, and a source in the core has had its rotations (R160, R250). -/
abbrev Due (s : State) (c : CoreId) (m : Cmd) : Prop :=
  let rot := if cmdKind m.image = 1 ∨ cmdNat m.image 4 2 = 0 then 0 else if cmdNat m.image 4 2 = 1 then 1 else 3
  CoreWorks s c ∧ m.st = .running ∧ (s.core c).cpyFree ≤ s.clock c ∧ m.issued + 16 * rot ≤ s.instant c
/-- The command's turn among those of its core (R294): none that could be granted a piece comes between it and the one served last. -/
abbrev ItsTurn (s : State) (c : CoreId) (n : Nat) : Prop :=
  ∀ e ∈ (s.core c).cmds, (e.1 + 7 - (s.core c).lastCmd % 8) % 8 < (n + 7 - (s.core c).lastCmd % 8) % 8 → s.cmdWants c e.1 e.2 = false
/-- Bytes cut into pieces that lie each in one aligned unit of 64 bytes, in order from a place up (R147). -/
abbrev Pieces (place len : Nat) (val : Nat → Byte × Bool) (ps : List (Nat × List (Byte × Bool))) : Prop :=
  (ps.flatMap fun p => p.2.zipIdx.map fun e => (p.1 + e.2, e.1)) = (List.range len).map (fun j => (place + j, val (place + j))) ∧
  ∀ p ∈ ps, p.2 ≠ [] ∧ p.1 / 64 = (p.1 + p.2.length - 1) / 64 ∧ ((p.1 + p.2.length) % 64 = 0 ∨ p.1 + p.2.length = place + len)
/-- A CPY that waits at its last step has what it needs beside a command slot: its ring slots, and room for a word to g61. -/
abbrev CpyFits (s : State) (c : CoreId) (q : Nat) (tile : Bool) (nslot : Nat) (d : GIx) : Prop :=
  (tile = true → (((s.core c).ring q).resv - ((s.core c).ring q).head).toNat + nslot ≤ ((s.core c).ring q).depth.toNat) ∧
  (d = 61 → (s.core c).outq.length < 8)
/-- The block of a command or slot, and the ring and size of a TILE image. -/
def blockAtRec (s : State) (c : CoreId) (n : Nat) : Block := (Sparse.find (s.core c).table n).getD { rec0 := 0 }
def ringOf (b : Block) (im : BitVec 512) : Nat := b.ring0 + im.toNat / 2 ^ 32 % 8
def slotsOf (im : BitVec 512) : Nat := im.toNat / 2 ^ 40 % 128
/-- The ring whose slots a CPY waits for, if any, and that an older CPY of the core waits for the same ring (R235). -/
def ringWanted (s : State) (c : CoreId) (k : BitVec 4) (im : BitVec 512) : Option Nat :=
  if cmdKind im = 1 then some (ringOf (blockAtRec s c ((s.slot c k).blk.getD 0)) im) else none
abbrev BehindForRing (s : State) (c : CoreId) (r : Option Nat) (since : Nat) : Prop :=
  r ≠ none ∧ ∃ (j : BitVec 4) (d : GIx) (im : BitVec 512) (p t : Nat), (s.slot c j).busy = some (.cpy d im p t) ∧ t < since ∧ ringWanted s c j im = r

/-- The elements of a unit of `TOCOMP` or `FROMCOMP` (R248): 256, or what is left. -/
def compLen (im : BitVec 512) (done : Nat) : Nat := min 256 (cmdNat im 96 32 - 256 * done)
/-- Some bits of some elements written into rows of consecutive lanes (R148, R248): bit i of element e stands in row `row` + i of its lane; the unit of
a row's block of lanes is poisoned by a poisoned element, and clean else only when all of it is written; every other bit is as it was. -/
abbrev RowsWritten (first lane row : Nat) (bits : List Nat) (vs : List (Nat × Bool)) (old new : Sparse Unit8) : Prop :=
  (∀ j ∈ bits, ∀ e v po, vs[e]? = some (v, po) →
    let g := first + (lane + e) / 2048
    let l := (lane + e) % 2048
    (rowUnit new g l (row + j)).val.getLsbD (l % 64) = decide (v / 2 ^ j % 2 = 1) ∧
    ((rowUnit new g l (row + j)).pois = true ↔ (∃ x v', vs[x]? = some (v', true) ∧ (lane + x) / 64 = (lane + e) / 64) ∨
      ((rowUnit old g l (row + j)).pois = true ∧ ∃ x, x / 64 = (lane + e) / 64 ∧ ¬(lane ≤ x ∧ x < lane + vs.length)))) ∧
  (∀ g l r, l < 2048 → r < 256 → (∀ j e, j ∈ bits → e < vs.length → ¬(r = row + j ∧ g = first + (lane + e) / 2048 ∧ l = (lane + e) % 2048)) →
    (rowUnit new g l r).val.getLsbD (l % 64) = (rowUnit old g l r).val.getLsbD (l % 64)) ∧
  (∀ g l r, l < 2048 → r < 256 → (∀ j e, j ∈ bits → e < vs.length → ¬(r = row + j ∧ g = first + (lane + e) / 2048 ∧ l / 64 = (lane + e) % 2048 / 64)) →
    rowUnit new g l r = rowUnit old g l r)
/-- Every bit of a unit, and its poison, is that of one or the other. -/
abbrev Between (a b x : Unit8) : Prop :=
  (∀ j, j < 64 → x.val.getLsbD j = a.val.getLsbD j ∨ x.val.getLsbD j = b.val.getLsbD j) ∧ (x.pois = a.pois ∨ x.pois = b.pois)
/-- What the copy engine finds in a slab's lanes: what they hold, but where a running microinstruction writes, bits from before or after (R260, R262). -/
abbrev LanesFound (y : Slab) (us : Sparse Unit8) : Prop :=
  ∀ i, match Sparse.find y.seq.wr i with
    | none => unitAt us i = unitAt y.units i
    | some w => Between (unitAt y.units i) w (unitAt us i)
/-- A unit's first unwritten piece, of at most 64 bytes, is written: SRAM takes one in this cycle, rows of lanes that no microinstruction writes get their bits at once,
key words leave for their homes as records of one write (R219, R251, R294). -/
abbrev PieceWritten (s : State) (c : CoreId) (n : Nat) (m : Cmd) (t : State) : Prop :=
  (∀ deep place bs ps, m.pieces = .bytes deep place bs :: ps →
    t = s.setCore c { s.core c with
      stores := (s.core c).stores ++ [(s.clock c, deep, place, bs)], cpyFree := s.clock c + 1, lastCmd := n
      cmds := Sparse.set (s.core c).cmds n { m with pieces := ps, upto := s.clock c + 1 } }) ∧
  (∀ first lane row bits vs ps, m.pieces = .rows first lane row bits vs :: ps → (s.slab c).seq.wr = [] → (∀ j ∈ bits, row + j < 256) →
    ∃ us, RowsWritten first lane row bits vs (s.slab c).units us ∧
      (let u := s.setSlab c { s.slab c with units := us }
       t = u.setCore c { u.core c with
         cpyFree := s.clock c + 1, lastCmd := n, cmds := Sparse.set (u.core c).cmds n { m with pieces := ps, upto := s.clock c + 1 } })) ∧
  (∀ ws ps, m.pieces = .words ws :: ps →
    let rec_ (w : Nat × Byte × Word × Bool) : Rec :=
      { setRec w.1 w.2.2.1 w.2.1 m.ctx c.die (s.lnumOf c) 0 w.2.2.2 [] true with movers := [s.cmdName c m], unit := m.unit }
    let u : State := { s with
      seqno := s.seqno + ws.length
      transit := s.transit ++ ws.zipIdx.map fun e =>
        { id := s.seqno + e.2, die := c.die, r := rec_ e.1, since := (s.die c.die).clock, src := c.die.toNat } }
    t = u.setCore c { u.core c with
      lastCmd := n, cmds := Sparse.set (u.core c).cmds n { m with pieces := ps, out := m.out ++ List.range' s.seqno ws.length } })
/-- The write of a unit begins: the command holds its pieces, and the first is written (R251). -/
abbrev UnitBegun (s : State) (c : CoreId) (n : Nat) (m : Cmd) (ps : List Piece) (t : State) : Prop :=
  let m' : Cmd := { m with sent := true, unit := s.seqno, out := [], pieces := ps }
  let u : State := { s with seqno := s.seqno + 1 }
  PieceWritten (u.setCore c { u.core c with cmds := Sparse.set (u.core c).cmds n m' }) c n m' t
/-- A free value more is used up where the reads of the unit in hand have had no answer for 200 µs. -/
def lateDrawn (s : State) (c : CoreId) (m : Cmd) (t : State) : State :=
  if m.reading.any (fun r => decide (r + 600000 ≤ s.instant c)) then { t with fresh := t.fresh + 1 } else t

/-- The command after one unit more (R251). -/
def oneMore (m : Cmd) : Cmd := { m with done := m.done + 1, out := [], sent := false, reading := none }
/-- A sync word of a block after the add of a unit's bytes, where the command has one (R150, R151). -/
def syncAdded (s : State) (c : CoreId) (m : Cmd) (bytes : Nat) : State :=
  if cmdNat m.image 64 32 = 2 ^ 32 - 1 then s
  else s.syncAdd c (((Sparse.find (s.core c).table m.blk).getD { rec0 := 0 }).scrbase + cmdNat m.image 64 32) bytes m.gen

end Sys2Proof.Claims

/-- CPY at its last wait, with no CPY of its core that has waited longer and could go, or that waits for slots of the same ring, takes the lowest
free command slot (log 34; a TILE command ring slots too): the command holds the image, the slot's FPCR and its sync word's generation, gD
gets the slot's number and the slot goes on; a converting TILE under `rsr` steps the slot's generator first. A command at its turn whose
COPY unit lies within the scratchpad reads its bytes, and their write begins, in pieces of one aligned unit of 64 bytes, one a cycle, with the
engine; a unit of TOCOMP from the scratchpad begins to put its elements into their lanes, one of FROMCOMP into it to write what the lanes hold. A
unit's next piece is written at the command's turn. (Of a unit
in which a command faults nothing is written, log 40: DEDUCED.) A unit is delivered once its records are applied and its pieces written: a TILE slot is committed, the sync word gets its add, the
count goes up. A command with every unit delivered and no progress record leaves its slot, and so does one whose record is applied; what waits for a
translation in its name is forgotten. A translation fault leaves the command faulted at its unit: its slot, when it runs, is to trap with engine fault,
or under replay the fault waits for the host. -/
def Obligations.CopyCommandsRun : Prop :=
  (∀ (s : State) (c : CoreId) (k : BitVec 4) (d : GIx) (im : BitVec 512) (prec since n : Nat),
    (s.slot c k).busy = some (.cpy d im prec since) → CoreWorks s c → n < 8 → Sparse.find (s.core c).cmds n = none →
    (∀ j, j < n → Sparse.find (s.core c).cmds j ≠ none) →
    let rec_ := (s.slot c k).blk.getD 0
    let b := blockAtRec s c rec_
    let q := (s.core c).ring (ringOf b im)
    let tile := decide (cmdKind im = 1)
    CpyFits s c (ringOf b im) tile (slotsOf im) d →
    ¬BehindForRing s c (ringWanted s c k im) since →
    (∀ (j : BitVec 4) (d' : GIx) (im' : BitVec 512) (p' t' : Nat), (s.slot c j).busy = some (.cpy d' im' p' t') → t' < since →
      CpyFits s c (ringOf (blockAtRec s c ((s.slot c j).blk.getD 0)) im') (decide (cmdKind im' = 1)) (slotsOf im') d' →
      BehindForRing s c (ringWanted s c j im') t') →
    let ring := ((s.core c).desc q.desc.toNat).image
    let steps := tile = true ∧ (s.slot c k).fpcr.toNat % 8 = 5 ∧ descFmt ring ≠ 9
    ∃ (m : Cmd) (f : Word), m.blk = rec_ ∧ m.slot = k ∧ m.ctx = b.ctx ∧ m.image = im ∧ m.prec = prec ∧ m.fpcr = (s.slot c k).fpcr ∧ m.done = 0 ∧
      m.out = [] ∧ m.sent = false ∧ m.pieces = [] ∧ m.reading = none ∧ m.closing = false ∧ m.st = .running ∧ m.issued = s.clock c ∧ m.left = since ∧ m.base = q.resv ∧
      (cmdNat im 64 32 ≠ 2 ^ 32 - 1 → m.gen.toNat = syncGen (s.core c).scratch (b.scrbase + cmdNat im 64 32)) ∧
      (tile = true → m.sdesc = ((s.core c).desc (b.desc0 + im.toNat / 2 ^ 16 % 64)).image ∧ m.ddesc = ring) ∧
      (¬steps → f = (s.slot c k).fpcr) ∧
      (steps → f.toNat % 2 ^ 32 = (s.slot c k).fpcr.toNat % 2 ^ 32 ∧ m.seed = m.gsr ∧ m.seed = (f.extractLsb' 32 32).reverse ∧
        f.extractLsb' 32 32 = lfsrStep (s.srSeed c (s.slot c k)) ((s.slot c k).fpcr.extractLsb' 32 32)) ∧
      (let s' := s.setSlot c k { s.slot c k with fpcr := f }
       let t := s'.setCore c { s'.core c with cmds := Sparse.set (s'.core c).cmds n m }
       let u := if tile then t.setRing c (ringOf b im) { q with resv := q.resv + BitVec.ofNat 12 (slotsOf im) } else t
       exec (.copySlotReserve c k) s =
         .next (slotGoesOn { ({ u with cur := (c, k) }.putG d (BitVec.ofNat 64 n) 0 false) with cur := s.cur } c k))) ∧
  (∀ (s : State) (c : CoreId) (n : BitVec 3) (m : Cmd), Sparse.find (s.core c).cmds n.toNat = some m →
    (m.closing = true → s.unapplied m.out = false → exec (.copyUnitDeliver c n) s = .next (withoutCmd s c n.toNat)) ∧
    (m.closing = false → m.pieces ≠ [] → CoreWorks s c → (s.core c).cpyFree ≤ s.clock c ∨ (∃ ws ps, m.pieces = .words ws :: ps) → ItsTurn s c n.toNat →
      ∃ t, PieceWritten s c n.toNat m t ∧ exec (.copyUnitDeliver c n) s = .next t) ∧
    (m.closing = false → m.pieces = [] → m.sent = true → s.unapplied m.out = false → m.upto ≤ s.clock c → CoreWorks s c →
      let qn := ringOf (blockAtRec s c m.blk) m.image
      let q := (s.core c).ring qn
      let t := syncAdded (if cmdKind m.image = 1 then s.setRing c qn { q with tail := q.tail + 1 } else s) c m m.unitBytes
      exec (.copyUnitDeliver c n) s = .next (t.setCore c { t.core c with cmds := Sparse.set (t.core c).cmds n.toNat (oneMore m) })) ∧
    (m.closing = false → m.pieces = [] → m.sent = false → Due s c m → cmdTotal m.image ≤ m.done → m.prec = 0 →
      exec (.copyUnitDeliver c n) s = .next (withoutCmd s c n.toNat)) ∧
    (m.closing = false → m.pieces = [] → m.sent = false → Due s c m → m.done < cmdTotal m.image → ItsTurn s c n.toNat → cmdKind m.image = 0 →
      cmdNat m.image 4 2 = 1 → cmdNat m.image 6 2 = 1 →
      let b := blockAtRec s c m.blk
      let src := b.scrbase + (cmdNat m.image 192 64 + 64 * m.done)
      let dst := b.scrbase + (cmdNat m.image 256 64 + 64 * m.done)
      let len := min 64 (cmdNat m.image 96 32 - 64 * m.done)
      ∃ ps t, Pieces dst len (fun a => let x := src + (a - dst)
          (BitVec.ofNat 8 (byteAt (s.core c).scratch x), (unitAt (s.core c).scratch (x / 8)).pois)) ps ∧
        UnitBegun s c n.toNat m (ps.map fun p => .bytes false p.1 p.2) t ∧ exec (.copyUnitDeliver c n) s = .next (lateDrawn s c m t)) ∧
    (m.closing = false → m.pieces = [] → m.sent = false → Due s c m → m.done < cmdTotal m.image → ItsTurn s c n.toNat → cmdKind m.image = 2 →
      cmdNat m.image 4 2 = 1 →
      let b := blockAtRec s c m.blk
      let eb := 2 ^ (m.image.toNat / 2 ^ 56 % 4)
      let src := b.scrbase + (cmdNat m.image 192 64 + 256 * m.done * eb)
      let vs := (List.range (compLen m.image m.done)).map fun e =>
        (sramNum (s.core c).scratch (src + e * eb) eb, sramPois (s.core c).scratch (src + e * eb) eb)
      ∃ (parts : List (List Nat)) (t : State), parts.flatten = List.range (8 * eb) ∧ parts.length = (compLen m.image m.done * eb + 63) / 64 ∧
        UnitBegun s c n.toNat m (parts.map fun bits =>
          .rows (s.ctx b.ctx).first (cmdNat m.image 256 64 + 256 * m.done) (m.image.toNat / 2 ^ 48 % 2 ^ 8) bits vs) t ∧
        exec (.copyUnitDeliver c n) s = .next (lateDrawn s c m t)) ∧
    (m.closing = false → m.pieces = [] → m.sent = false → Due s c m → m.done < cmdTotal m.image → ItsTurn s c n.toNat → cmdKind m.image = 3 →
      cmdNat m.image 6 2 = 1 → ((s.slab c).seq.wr.map Prod.fst).Nodup →
      let b := blockAtRec s c m.blk
      let eb := 2 ^ (m.image.toNat / 2 ^ 56 % 4)
      let dst := b.scrbase + (cmdNat m.image 256 64 + 256 * m.done * eb)
      let first := (s.ctx b.ctx).first
      let from_ (e : Nat) := cmdNat m.image 192 64 + 256 * m.done + e
      let crow := m.image.toNat / 2 ^ 48 % 2 ^ 8
      ∃ us ps t, LanesFound (s.slab c) us ∧ Pieces dst (compLen m.image m.done * eb) (fun a =>
          let l := from_ ((a - dst) / eb)
          (BitVec.ofNat 8 (laneNum us (first + l / 2048) (l % 2048) (crow + 8 * ((a - dst) % eb)) 8),
            lanePois us (first + l / 2048) (l % 2048) [(crow, 8 * eb)])) ps ∧
        UnitBegun { s with fresh := if (s.slab c).seq.wr = [] then s.fresh else s.fresh + 1 } c n.toNat m
          (ps.map fun p => .bytes false p.1 p.2) t ∧
        exec (.copyUnitDeliver c n) s = .next (lateDrawn s c m t)) ∧
    (∀ u cause va, m.closing = false → m.pieces = [] → m.sent = false → Due s c m → m.done < cmdTotal m.image → m.prec = 0 →
      s.unit c n.toNat m = .error (.fault u cause va) →
      let b := (Sparse.find (u.core c).table m.blk).getD { rec0 := 0 }
      let t := u.setCmd c n.toNat { m with st := .faulted cause va }
      let x := t.slot c m.slot
      let y := u.ctx m.ctx
      let replay := !b.boot && y.rply && decide (y.fqbase ≠ 0)
      (replay = false → exec (.copyTranslationFault c n) s =
        .next (if x.st = .running then t.setSlot c m.slot { x with epend := x.epend ++ [(0x0E, va)] } else t)) ∧
      (replay = true → exec (.copyTranslationFault c n) s = .next (t.setCtx m.ctx { y with
        fseq := y.fseq + 1
        faults := y.faults ++ [{ seq := y.fseq, kind := 4, cause := cause, va := va, pc := 0, core := c, slot := m.slot, score := t.lnumOf c,
                                 cmd := n, gen := x.gen, clock := t.clock c }] }))))

namespace Sys2Proof.Claims

-- the matrix engine (R57, R230, R235, R241 to R244)

/-- A count is committed in a ring: it lies before the tail (R235). -/
abbrev committedIn (r : Ring) (n : BitVec 12) : Prop := (n - r.head).toNat < (r.tail - r.head).toNat
/-- The operands of a row from the slot of a ring at a count (R230). -/
def ringRow (s : State) (c : CoreId) (o : MxOp) (q : Nat) (d : BitVec 256) (count : BitVec 12) (i : Nat) : List XVal × Bool :=
  (s.core c).slotRow ((Sparse.find (s.core c).table o.blk).getD { rec0 := 0 }) ((s.core c).ring q) d (fpFzi o.fpcr) count i
/-- The head of a ring after one slot more has been taken. -/
def popped (s : State) (c : CoreId) (q : Nat) : State := s.setRing c q { (s.core c).ring q with head := ((s.core c).ring q).head + 1 }
/-- An element of a tile. -/
def tileElem (t : Tile) (i j : Nat) : Nat := t.val.toNat / 2 ^ (32 * (16 * i + j)) % 2 ^ 32
/-- Two rows paired in groups of 32 positions, the last one shorter (R57). -/
def pairGroups (a b : List XVal) : List (List (XVal × XVal)) :=
  (List.range ((a.length + 31) / 32)).map fun g => ((a.zip b).drop (32 * g)).take 32
/-- An element of a tile after an MMA with a float accumulator, and its flags (R57, R58): group by group the exact sum of the products, scaled,
and the accumulator are added exactly and rounded once to `fp32`, to nearest even. `FZI` flushes the accumulator before each group (log 77). -/
def mmaElem (fzi fzo : Bool) (h : Int) (c : Nat) (gs : List (List (XVal × XVal))) : Nat × FFlags :=
  gs.foldl (fun (y : Nat × FFlags) g =>
    let ps := g.map fun p => xmul p.1 p.2
    let t := xsum false (ps.map Prod.fst)
    let acc := decodeF .fp32 fzi y.1
    let u := xadd false acc (t.1.scale h)
    let r := roundF .fp32 .rne false fzo u.1
    (r.1, y.2 ||| (g.map fun p => p.1.sigFlag ||| p.2.sigFlag).foldl (· ||| ·) 0 ||| (ps.map Prod.snd).foldl (· ||| ·) 0 ||| t.2 ||| acc.sigFlag |||
      u.2 ||| r.2)) (c, 0)
/-- The 16 values of a row of a tile as a TCVT into a float or SX format takes them: under `h16` each is the signed sum that R55 gives. -/
def tcvtVals (o : MxOp) (t : Tile) (i : Nat) : List XVal :=
  let xs := (List.range 16).map fun j => decodeF .fp32 (o.fpcr.getLsbD 3) (tileElem t i j)
  if descH o.da = 1 then (List.range 16).map fun p =>
    (xsum (decide (o.fpcr.toNat % 8 = 2)) (xs.zipIdx.map fun e => if hadSign p e.2 then e.1.negate else e.1)).1
  else xs
/-- The code of an element that a TCVT writes into a format without blocks (R244): an `i32` clamped to the range, or the value rounded, under `rsr`
with the generator's draw of its own step (R52). -/
def tcvtCode (o : MxOp) (t : Tile) (i j : Nat) : Nat :=
  let f := descFmt o.da
  let w := fmtBits f
  let rm := o.fpcr.toNat % 8
  let mode : RMode := if rm = 5 ∧ f ≠ 9 then .sr ((genAfter o.gsr o.gsr (16 * i + j + 1)).toNat / 256) else RMode.ofCode rm
  if f < 2 then ((max (-2 ^ (w - 1)) (min (2 ^ (w - 1) - 1) (BitVec.ofNat 32 (tileElem t i j)).toInt)) % 2 ^ w).toNat
  else (roundF (fmtElt f) mode (o.fpcr.getLsbD 5 && decide (f ≠ 9)) (o.fpcr.getLsbD 4) ((tcvtVals o t i).getD j (.zero false))).1 % 2 ^ w
/-- What a TCVT leaves in the scratchpad (R230, R244): in each row of its slot the segment's codes, in an SX format the row's block, with the last
segment zeros to the row's end (log 66: DEDUCED); every byte outside its rows' segments as it was. -/
abbrev TcvtWritten (b : Block) (q : Ring) (o : MxOp) (t : Tile) (old new : Sparse Unit8) : Prop :=
  let f := descFmt o.da
  let n := if 13 ≤ f then 2 * (fmtSx f + 1) + 2 else 2 * fmtBits f
  let row (i : Nat) := b.scrbase + q.slots.toNat + 2048 * (o.ca.toNat % q.depth.toNat) + 128 * i
  let last := decide (o.seg.toNat + 1 = fmtK f / 16)
  (∀ i, i < 16 → (f < 10 → ∀ j, j < 16 → sramNum new (row i + n * o.seg.toNat) n / 2 ^ (fmtBits f * j) % 2 ^ fmtBits f = tcvtCode o t i j) ∧
    (13 ≤ f → o.fpcr.toNat % 8 ≠ 5 → sramNum new (row i + n * o.seg.toNat) n =
      (sxEncode (fmtSx f) (tcvtVals o t i) { rm := o.fpcr.toNat % 8, sr := false, seed := 0, s := 0 }).1 % 256 ^ n) ∧
    (last = true → ∀ j, n * (o.seg.toNat + 1) ≤ j → j < 128 → byteAt new (row i + j) = 0)) ∧
  ∀ a, (∀ i, i < 16 → a < row i + n * o.seg.toNat ∨ row i + (if last then 128 else n * (o.seg.toNat + 1)) ≤ a) → byteAt new a = byteAt old a

end Sys2Proof.Claims

/-- The head of the engine's queue starts in a cycle after its issue once the engine is free, an MMA once its ring slots are committed. An
MMA started 64 cycles ago retires: in the integer formats each tile element gains, modulo 2^32, the exact sum of the products of its rows,
in the others it is, group after group, the exact sum rounded once to `fp32` (log 77: DEDUCED); a tile row is poisoned when it was or an operand
of it is (all read at this instant, log 21: DEDUCED), the tile is unlocked once and its rings' heads move on (one ring once). A TCVT
started 16 cycles ago writes its rows' segments, each element converted and in its place (a row's tail as zeros, log 66; under the Hadamard transform
and `rdn` an exact zero sum is −0 where its terms have both signs, log 14: DEDUCED, the model's choice), unlocks its tile, and with the last segment, in the order of reservation, commits its slot.
A governor window empties the use counts of its die's cores and puts their new budgets in force. -/
def Obligations.MatrixEngineRuns : Prop :=
  (∀ (s : State) (c : CoreId) (o : MxOp) (rest : List MxOp), (s.core c).mx = o :: rest → o.started = none → CoreWorks s c →
    o.issued < s.instant c → (s.core c).mxFree ≤ s.instant c →
    (o.tcvt = false → committedIn ((s.core c).ring o.qa) o.ca → (o.qa = o.qb ∨ committedIn ((s.core c).ring o.qb) o.cb) →
      exec (.mmaStart c) s = .next (s.setCore c { s.core c with mx := { o with started := some (s.instant c) } :: rest })) ∧
    (o.tcvt = true → exec (.tcvtStart c) s = .next (s.setCore c { s.core c with mx := { o with started := some (s.instant c) } :: rest }))) ∧
  (∀ (s : State) (c : CoreId) (o : MxOp) (rest : List MxOp) (start : Nat), (s.core c).mx = o :: rest → o.started = some start → o.tcvt = false →
    start + 64 ≤ s.instant c → CoreWorks s c →
    let u := s.setCore c { s.core c with mx := rest, mxFree := s.instant c }
    let a (i : Nat) := ringRow s c o o.qa o.da o.ca i
    let b (j : Nat) := ringRow s c o o.qb o.db o.cb j
    let old := (s.core c).tile o.tile
    ∃ (y : Tile) (fl : FFlags),
      (let t := popped (u.setTile c o.tile y) c o.qa
       exec (.mmaRetire c) s = .next ((if o.qa = o.qb then t else popped t c o.qb).raise o.ctx fl)) ∧
      y.busy = old.busy - 1 ∧
      (∀ i, i < 16 → y.pois.getLsbD i = (old.pois.getLsbD i || (a i).2 || (List.range 16).any fun j => (b j).2)) ∧
      (fmtInt (descFmt o.da) = true → fl = 0 ∧ ∀ i j, i < 16 → j < 16 →
        (tileElem y i j : Int) = (tileElem old i j + ((a i).1.zip (b j).1).foldl (fun (n : Int) p => n + p.1.toInt * p.2.toInt) 0) % 2 ^ 32) ∧
      (fmtInt (descFmt o.da) = false →
        let el (i j : Nat) := mmaElem (o.fpcr.getLsbD 3) (o.fpcr.getLsbD 4) (if descH o.da = 1 then -4 else if descH o.da = 2 then -5 else 0)
          (tileElem old i j) (pairGroups (a i).1 (b j).1)
        (∀ i j, i < 16 → j < 16 → tileElem y i j = (el i j).1 % 2 ^ 32) ∧
        fl = ((List.range 16).flatMap fun i => (List.range 16).map fun j => (el i j).2).foldl (· ||| ·) 0)) ∧
  (∀ (s : State) (c : CoreId) (o : MxOp) (rest : List MxOp) (start : Nat), (s.core c).mx = o :: rest → o.started = some start → o.tcvt = true →
    start + 16 ≤ s.instant c → CoreWorks s c →
    let u := s.setCore c { s.core c with mx := rest, mxFree := s.instant c }
    let q := (s.core c).ring o.qa
    let last := decide (o.seg.toNat + 1 = fmtK (descFmt o.da) / 16)
    let tile := (s.core c).tile o.tile
    (last = true → q.tail = o.ca) →
    let b := (Sparse.find (s.core c).table o.blk).getD { rec0 := 0 }
    let w := u.tcvtRows c b q o tile (List.range 16) (engineRounder o.fpcr (descFmt o.da) o.gsr) 0
    let t := w.1.setTile c o.tile { tile with busy := tile.busy - 1 }
    ((descFmt o.da < 10 ∨ 13 ≤ descFmt o.da) → o.seg.toNat < fmtK (descFmt o.da) / 16 →
      TcvtWritten b q o tile (s.core c).scratch (w.1.core c).scratch) ∧
    exec (.tcvtRetire c) s = .next ((if last then t.setRing c o.qa { q with tail := q.tail + 1 } else t).raise o.ctx w.2)) ∧
  (∀ (s : State) (d : BitVec 3), 3000 * ((s.die d).govWin + 1) ≤ (s.die d).clock + 1 →
    ∃ t, exec (.governorWindow d) s = .next t ∧ (t.die d).govWin = ((s.die d).clock + 1) / 3000 ∧
      ∀ e ∈ s.cores, (e.1, if e.1 / 1024 = d.toNat then { e.2 with used := 0, budget := e.2.budgetNext.getD e.2.budget, budgetNext := none } else e.2)
        ∈ t.cores)

namespace Sys2Proof.Claims

/-- A barrier register of a core, and one replaced. -/
def barAt (s : State) (c : CoreId) (n : Nat) : Barrier := Sparse.get {} (s.core c).bars n
def setBarAt (s : State) (c : CoreId) (n : Nat) (b : Barrier) : State := s.setCore c { s.core c with bars := Sparse.set (s.core c).bars n b }
/-- Two registers are for one rectangle and context (R264). -/
abbrev SameBar (a b : Barrier) : Prop := a.ctx = b.ctx ∧ a.x0 = b.x0 ∧ a.y0 = b.y0 ∧ a.x1 = b.x1 ∧ a.y1 = b.y1
/-- Every position of a row east of `x` up to the rectangle's edge is off; so is every position of the rows below. -/
abbrev offEast (s : State) (c : CoreId) (b : Barrier) : Prop :=
  ∀ x, c.x.toNat < x → x ≤ b.x1.toNat → s.enabled c.die (32 * c.y.toNat + x) = false
abbrev offBelow (s : State) (c : CoreId) (b : Barrier) : Prop :=
  ∀ x y, c.y.toNat < y → y ≤ b.y1.toNat → b.x0.toNat ≤ x → x ≤ b.x1.toNat → s.enabled c.die (32 * y + x) = false
/-- An enabled position of the rectangle has all its arrivals, and every position east of it has arrived: row-done (R264). -/
abbrev RowDone (s : State) (c : CoreId) (n : Nat) : Prop :=
  let b := barAt s c n
  s.enabled c.die (32 * c.y.toNat + c.x.toNat) = true ∧ b.narr.toNat < b.count.toNat ∧
  b.x0.toNat ≤ c.x.toNat ∧ c.x.toNat ≤ b.x1.toNat ∧ b.y0.toNat ≤ c.y.toNat ∧ c.y.toNat ≤ b.y1.toNat ∧ (b.east = true ∨ offEast s c b)
/-- A register after its release. -/
def nextPhase (b : Barrier) : Barrier :=
  { b with count := 0, phase := b.phase + 1, east := false, below := false, rowOut := false, colOut := false, rel := false }
/-- A signal reaches a register: its own rectangle and context take it, another's drop it (an enabled position). -/
def signalled (s : State) (c : CoreId) (n : Nat) (src : Barrier) (f : Barrier → Barrier) (t : State) : Prop :=
  s.enabled c.die (32 * c.y.toNat + c.x.toNat) = true →
    (SameBar (barAt s c n) src → t = setBarAt s c n (f (barAt s c n))) ∧ (¬SameBar (barAt s c n) src → t = s)

end Sys2Proof.Claims

/-- A row-done enabled position that is not in the first column signals its western neighbour once in each phase; a row-done position of the
first column with the rows below it done, not in the first row, signals the one above. At the corner both together, or an arrived release,
release the register: its count is 0, its phase one higher, its marks clear; the release goes on east, and from the first column down. A
neighbour's register takes a signal of its own rectangle and context and drops another's. -/
def Sys2Proof.Claims.BarriersComplete : Prop :=
  ∀ (s : State) (c : CoreId) (bb : BitVec 2), (s.die c.die).held = false →
    let n := bb.toNat
    let b := barAt s c n
    let west : CoreId := ⟨c.die, c.x - 1, c.y⟩
    let up : CoreId := ⟨c.die, c.x, c.y - 1⟩
    let right : CoreId := ⟨c.die, c.x + 1, c.y⟩
    let down : CoreId := ⟨c.die, c.x, c.y + 1⟩
    let done := RowDone s c n ∧ c.x = b.x0 ∧ (b.below = true ∨ offBelow s c b)
    (RowDone s c n → b.rowOut = false → b.x0.toNat < c.x.toNat →
      ∃ t, exec (.barrierDoneSignal c bb false) s = .next t ∧
        signalled (setBarAt s c n { b with rowOut := true }) west n b (fun x => { x with east := true }) t) ∧
    (done → b.colOut = false → b.y0.toNat < c.y.toNat →
      ∃ t, exec (.barrierDoneSignal c bb true) s = .next t ∧
        signalled (setBarAt s c n { b with colOut := true }) up n b (fun x => { x with below := true }) t) ∧
    ((b.rel = true ∨ (done ∧ c.y = b.y0)) →
      let r := setBarAt s c n (nextPhase b)
      ∃ t u, exec (.barrierRelease c bb) s = .next u ∧
        (b.x1.toNat ≤ c.x.toNat → t = r) ∧
        (c.x.toNat < b.x1.toNat → signalled r right n b (fun x => { x with rel := true }) t) ∧
        ((c.x ≠ b.x0 ∨ b.y1.toNat ≤ c.y.toNat) → u = t) ∧
        (c.x = b.x0 → c.y.toNat < b.y1.toNat → signalled t down n b (fun x => { x with rel := true }) u))

namespace Sys2Proof.Claims

/-- A message may be taken by a slot: it runs or is suspended, under the message's generation, in the message's context (R268). -/
abbrev Takes (s : State) (c : CoreId) (k : BitVec 4) (gen : BitVec 16) (n : BitVec 6) : Prop :=
  ((s.slot c k).st = .running ∨ (s.slot c k).st = .suspended) ∧ (s.slot c k).gen = gen ∧
  ∃ b, s.blockOf c (s.slot c k) = some b ∧ b.ctx = n
/-- The words in a slot's inbox. -/
def inboxCount (s : State) (c : CoreId) (k : BitVec 4) : Nat := ((s.slot c k).inbox.map fun m => m.words.length).sum
/-- A message to a slot, of a slot or of the core's sequencer, that arrived before a moment, or before now, still waits (R294). -/
abbrev EarlierWaits (s : State) (c : CoreId) (k : BitVec 4) (arrived : Option Nat) : Prop :=
  ∃ a, (∀ b, arrived = some b → a < b) ∧
    ((∃ m ∈ s.msgs, m.arrived = some a ∧ s.msgTo m = some (c, k)) ∨ ∃ m ∈ (s.slab c).seq.msgs, m.arrived = some a ∧ m.slot = k)
/-- A message added to a slot's inbox. -/
def withMessage (s : State) (c : CoreId) (k : BitVec 4) (m : InMsg) : State :=
  s.setSlot c k { s.slot c k with inbox := (s.slot c k).inbox ++ [m] }
/-- A message counted as dropped at a core and logged with its context. -/
def countedLost (s : State) (c : CoreId) (n : BitVec 6) : State :=
  let d := (s.core c).deadletter
  (s.setCore c { s.core c with deadletter := if d.toNat = 2 ^ 64 - 1 then d else d + 1 }).logEvent c.die 0x0C (some n)
    (32 * c.y.toNat + c.x.toNat) 0 1 0

end Sys2Proof.Claims

/-- A message on its way, with no earlier one from its slot to its destination, at a die that is not held, is accepted by a slot that takes
it and has room for its words, when none that arrived for the slot earlier, the core's sequencer's too, still waits; else it is noted as arrived (log 20). A message that the slot does not take, or whose core does not exist, is dropped and logged. A sequencer's
message reaches its owner likewise, with tag 0xF0. A collective block of at most 256 bytes at an open Avbaug spoke goes to its homes as SET records, with
its poison; when they are applied it enters the gateway queue, the oldest first, with the cycle. A bank group's change puts it in its mode
(a fenced group stays in cache mode) with zero data and no poison, and ends the DSMODE that waits for its last group. -/
def Sys2Proof.Claims.MessagesAndModeChanges : Prop :=
  (∀ (s : State) (n : Nat) (m : Msg), s.msgs[n]? = some m → m.boot = false → (s.die m.ddie).held = false →
    (∀ e ∈ s.msgs.take n, ¬(e.src = m.src ∧ e.sslot = m.sslot ∧ e.ddie = m.ddie ∧ e.dcore = m.dcore ∧ e.dslot = m.dslot)) →
    let t := { s with msgs := s.msgs.eraseIdx n }
    (s.coreOfLnum m.ddie m.dcore = none → exec (.messageAccept n) s = .next (t.logEvent m.ddie 0x0C (some m.ctx) 0 0 1 0)) ∧
    ∀ c, s.coreOfLnum m.ddie m.dcore = some c →
      (Takes s c m.dslot m.gen m.ctx → (s.slot c m.dslot).stop = false → (s.slot c m.dslot).stopped = false →
        let goes := inboxCount s c m.dslot + m.words.length ≤ 16 ∧ ¬EarlierWaits s c m.dslot m.arrived
        (¬goes → m.arrived = none → exec (.messageAccept n) s =
          .next { s with seqno := s.seqno + 1, msgs := s.msgs.set n { m with arrived := some s.seqno } }) ∧
        (goes → exec (.messageAccept n) s = .next (withMessage t c m.dslot {
          kind := 0, sdie := m.src.die, score := m.score, sslot := m.sslot, tag := m.tag, nw := BitVec.ofNat 5 m.words.length, words := m.words }))) ∧
      (¬Takes s c m.dslot m.gen m.ctx → exec (.messageAccept n) s = .next (countedLost t c m.ctx))) ∧
  (∀ (s : State) (c : CoreId) (m : SeqMsg) (ms : List SeqMsg), (s.slab c).seq.msgs = m :: ms → CoreWorks s c →
    let t := seqAt s c { (s.slab c).seq with msgs := ms }
    (Takes s c m.slot m.gen m.ctx → (s.slot c m.slot).stopped = false →
      let goes := inboxCount s c m.slot + 2 ≤ 16 ∧ ¬EarlierWaits s c m.slot m.arrived
      (¬goes → m.arrived = none → exec (.sequencerMessageAccept c) s =
        .next { seqAt s c { (s.slab c).seq with msgs := { m with arrived := some s.seqno } :: ms } with seqno := s.seqno + 1 }) ∧
      (goes → exec (.sequencerMessageAccept c) s = .next (withMessage t c m.slot {
        kind := 1, sdie := c.die, score := s.lnumOf c, sslot := 0, tag := 0xF0, nw := 2, words := [m.w0, m.w1] }))) ∧
    (¬Takes s c m.slot m.gen m.ctx → exec (.sequencerMessageAccept c) s = .next (countedLost t c m.ctx))) ∧
  (∀ (s : State) (sp : BitVec 5) (coll : BitVec 16) (idx : BitVec 32) (fin : Bool) (pa : Nat) (data : List Byte) (pois : Bool),
    SpokeOpen s sp → (s.spoke sp.toNat).cxl = false → data.length ≤ 256 → pa + data.length ≤ 2 ^ 40 → data ≠ [] →
    let rs := hostRecords sp 2 pois pa (data.map some)
    ∃ t, exec (.collectiveBlock sp coll idx fin pa ⟨data, pois⟩) s = .next t ∧ t.mem = s.mem ∧ t.dies = s.dies ∧
      t.transit = s.transit ++ sentFrom s sp (8 + sp.toNat) rs ∧
      (t.spoke sp.toNat).colls = (s.spoke sp.toNat).colls ++ [⟨coll, idx, fin, List.range' s.seqno rs.length⟩]) ∧
  (∀ (s : State) (sp : BitVec 5) (pre post : List Coll) (b : Coll), (s.spoke sp.toNat).colls = pre ++ b :: post → b ∉ pre →
    (∀ x ∈ pre, s.unapplied x.ids = true) → s.unapplied b.ids = false → (s.spoke sp.toNat).gq.length < 64 →
    exec (.gatewayQueueAppend sp) s = .next (s.setSpoke sp.toNat { s.spoke sp.toNat with
      gq := (s.spoke sp.toNat).gq ++ [(BitVec.ofNat 64 (b.idx.toNat + 2 ^ 32 * b.coll.toNat + 2 ^ 48 * sp.toNat + if b.fin then 2 ^ 63 else 0),
        (s.die (BitVec.ofNat 3 (sp.toNat / 4))).clock)]
      colls := pre ++ post })) ∧
  (∀ (s : State) (c : CoreId) (g : BitVec 4) (mode : BitVec 2), Sparse.find (s.slab c).changing g.toNat = some mode →
    (s.die c.die).held = false →
    ∃ t, exec (.dsmodeGroupChangeDone c g) s = .next t ∧
      Sparse.find (t.slab c).modes g.toNat = (if mode = 0 ∨ g.toNat ∈ (s.slab c).fenced then none else some mode) ∧ Sparse.find (t.slab c).changing g.toNat = none ∧
      (∀ u, u / 8192 = g.toNat → unitAt (t.slab c).units u = {}) ∧
      (∀ u, u / 8192 ≠ g.toNat → unitAt (t.slab c).units u = unitAt (s.slab c).units u) ∧
      ∀ k gs, (s.slot c k).busy = some (.dsmode gs) →
        ((∃ j, j < 12 ∧ j ≠ g.toNat ∧ gs.getLsbD j = true ∧ Sparse.find (s.slab c).changing j ≠ none) → t.slot c k = s.slot c k) ∧
        ((∀ j, j < 12 → j ≠ g.toNat → gs.getLsbD j = true → Sparse.find (s.slab c).changing j = none) →
          t.slot c k = Slot.advance { s.slot c k with busy := none } 12))

namespace Sys2Proof.Claims

-- what happens at a turn in place of an issue (R7, R10, R310, R318), and the hub's replies (R316, R317)

/-- A slot's turn is due: its place in the rotation (log 74), running, on a core that works and has not given this cycle's turn. -/
abbrev TurnDue (s : State) (c : CoreId) (k : BitVec 4) : Prop :=
  s.clock c % 16 = k.toNat ∧ (s.core c).turned ≤ s.clock c ∧ (s.slot c k).st = .running ∧ CoreWorks s c
/-- A slot has its turn: it is due, the slot's long results that are due and can be written have been, and no core of the die with a lower
`LNUM` has its turn of this cycle still before it. -/
abbrev HasTurn (s : State) (c : CoreId) (k : BitVec 4) : Prop :=
  TurnDue s c k ∧ (∀ r ∈ (s.slot c k).longs, r.due ≤ s.clock c → r.dst = .g 61 ∧ 8 ≤ (s.core c).outq.length) ∧
  ∀ e ∈ s.cores, (CoreId.ofKey e.1).die = c.die → (s.lnumOf (CoreId.ofKey e.1)).toNat < (s.lnumOf c).toNat → ¬TurnDue s (CoreId.ofKey e.1) k
/-- The turn is given. -/
def turnGiven (s : State) (c : CoreId) : State := s.setCore c { s.core c with turned := s.clock c + 1 }
/-- The slot does not stop in this cycle, and no failed fault answer waits. -/
abbrev GoesOn (s : State) (c : CoreId) (k : BitVec 4) : Prop :=
  ((s.slot c k).stop = true → s.clock c < (s.slot c k).stopAt) ∧ (s.slot c k).stopped = false ∧ (s.slot c k).ftrap = none
/-- No instruction holds the slot, or one that waits for the engine does: a FENCE, or a CPY at its last step (R252, log 36). -/
abbrev MayLeave (s : State) (c : CoreId) (k : BitVec 4) : Prop :=
  (s.slot c k).busy = none ∨ (s.slot c k).busy = some .fenceApply ∨ ∃ d im p t, (s.slot c k).busy = some (.cpy d im p t)
/-- A slot with its oldest pending HUBCALL answered. -/
def replied (s : State) (c : CoreId) (k : BitVec 4) (d : GIx) (v : Word) (t : Byte) : State :=
  let u := s.setSlot c k { s.slot c k with hubcalls := (s.slot c k).hubcalls.drop 1 }
  { ({ u with cur := (c, k) }.putG d v t false) with cur := s.cur }

end Sys2Proof.Claims

/-- At its turn a free slot with a pending trap, out of its handler, enters the handler with the cause and TRAPADDR kept, nothing pending any
more; one without a pending trap enters it for the engine fault or bit-serial stop that has waited longest, also out of a FENCE or a CPY that waits
for the engine (log 36: DEDUCED). A slot that is to stop stops at its turn, when its moment has come, and the instruction that holds it ends without completing. The reply of the oldest HUBCALL of a slot is the argument for service
0, 0 with a yield request for service 1, 0 with the word queued for the host (all ones where the host takes none) for service 2, and all ones
for any other. A yield request is set on a bound block that has none. -/
def Sys2Proof.Claims.TrapsAndStopsAtATurn : Prop :=
  (∀ (s : State) (c : CoreId) (k : BitVec 4), HasTurn s c k →
    let x := s.slot c k
    let u := turnGiven s c
    (GoesOn s c k → x.busy = none → MayTrap s c k → x.trapcause.getLsbD 9 = true →
      exec (.pendingTrapDelivery c k) s = .next (inHandler (u.setSlot c k { x with trapkeep := 0 }) c k
        (BitVec.ofNat 64 (0x100 + (x.trapcause.extractLsb' 10 8).toNat)) x.trapkeep x.pc)) ∧
    (∀ cause addr r, GoesOn s c k → MayLeave s c k → MayTrap s c k → x.trapcause.getLsbD 9 = false → x.epend = (cause, addr) :: r → (cause = 0x0E ∨ cause = 0x09) →
      ∃ tc, CauseEntered x.trapcause tc cause ∧
        exec (if cause = 0x0E then .engineFaultTrap c k else .bitSerialStopTrap c k) s =
          .next (inHandler (u.setSlot c k { x with epend := r, busy := none }) c k tc addr x.pc)) ∧
    (x.stop = true → x.stopAt ≤ s.clock c → x.stopped = false →
      exec (.preemptStop c k) s = .next (u.setSlot c k { x with stopped := true, busy := none, mxSince := none }))) ∧
  (∀ (s : State) (c : CoreId) (k : BitVec 4) (full : Bool) (d : GIx) (code : BitVec 16) (v : Word) (t : Byte)
      (r : List (GIx × BitVec 16 × Word × Byte)),
    (s.slot c k).hubcalls = (d, code, v, t) :: r → CoreWorks s c → (d = 61 → (s.core c).outq.length < 8) →
    let e := Instr.hubcallReply c k full
    (code = 0 → exec e s = .next (replied s c k d v t)) ∧
    (∀ n, code = 1 → (s.slot c k).blk = some n →
      exec e s = .next (replied (s.setBlock c n { (Sparse.find (s.core c).table n).getD { rec0 := 0 } with yieldReq := true }) c k d 0 t)) ∧
    (code = 2 → full = false → exec e s = .next (replied { s with notes := s.notes ++ [v] } c k d 0 t)) ∧
    ((code = 2 ∧ full = true) ∨ 2 < code.toNat → exec e s = .next (replied s c k d (BitVec.allOnes 64) t))) ∧
  (∀ (s : State) (c : CoreId) (n : Nat) (b : Block), Sparse.find (s.core c).table n = some b → b.boot = false → b.held = false →
    b.yieldReq = false → exec (.yieldRequestSet c n) s = .next (s.setBlock c n { b with yieldReq := true }))

namespace Sys2Proof.Claims

/-- A TLB of a capacity with an entry more: the oldest goes when it is full (log 19). -/
def withEntry (cap : Nat) (l : List TlbEntry) (e : TlbEntry) : List TlbEntry := l.drop (l.length + 1 - cap) ++ [e]
/-- The misses of a die without those of a core for a page that have met no fault. -/
def missesWithout (s : State) (d : BitVec 3) (c : CoreId) (n : BitVec 6) (vpn : Nat) : List Miss :=
  (s.die d).misses.filter fun m => !(decide (m.core = c) && decide (m.ctx = n) && decide (m.vpn = vpn) && decide (m.fault = none))
/-- The cluster's TLB has the page of a miss. -/
def inCluster (s : State) (m : Miss) : Option TlbEntry :=
  (s.cluster (CoreId.clusterKey m.core)).tlb.find? fun e => decide (e.ctx = m.ctx) && decide (e.vpn ≤ m.vpn) && decide (m.vpn < e.vpn + e.pages)
/-- A line's home answers the walker or the hub of a die: nothing accepted for it waits, a held die is not its home, a way leads there (R305, R331,
R336, R347). -/
abbrev TableAnswers (s : State) (d : BitVec 3) (pa : Nat) : Prop :=
  s.lineWaits (pa / 64) = false ∧ (place pa = 0 → (s.die (homeDie pa)).held = false) ∧ (isPeer pa = true → s.peerLive d pa = true) ∧
  (isHost pa = true → ∃ h, s.hostDie d = some h ∧ (s.die h).held = false)
/-- A miss of a die that needs a walk: no fault yet, no walk of its page, nothing in the cluster's TLB. -/
abbrev wantsWalk (s : State) (d : BitVec 3) (m : Miss) : Prop :=
  m.fault = none ∧ (∀ w ∈ (s.die d).walks, ¬(w.ctx = m.ctx ∧ w.vpn = m.vpn)) ∧ inCluster s m = none

end Sys2Proof.Claims

/-- On a die that is not held: a core's miss whose page the cluster's TLB has is filled after 32 cycles, the oldest entry going from a full
micro-TLB (log 19); a miss that needs a walk starts one when fewer than 64 run and no earlier miss needs one; a walk whose levels' lines all answer,
with no record accepted for one and not applied, ends after their R160 time (and when their rows can be opened, log 73), in an entry for the TLBs of every
core that waits on it, or in a fault that each of them takes. The hub waits for the tables' lines likewise, and for the line that it reads. The oldest
unwritten fault of a context whose fault queue has room, or whose `CONS` cannot be read, is written as a record and
counted, `PROD` being applied after the record; where a write fails, the fault is answered as failed. -/
def Obligations.TranslationAndFaultRecords : Prop :=
  (∀ (s : State) (c : CoreId) (n : Nat) (m : Miss) (e : TlbEntry), (s.die c.die).misses[n]? = some m → m.core = c → m.fault = none →
    m.since + 32 ≤ s.instant c → (s.die c.die).held = false → (s.die c.die).stopped = false → inCluster s m = some e →
    ∃ t, exec (.microTlbFill c n) s = .next t ∧ (t.core c).utlb = withEntry 32 (s.core c).utlb e ∧
      (t.die c.die).misses = missesWithout s c.die c m.ctx m.vpn ∧ t.mem = s.mem) ∧
  (∀ (s : State) (d : BitVec 3) (n : Nat) (m : Miss), (s.die d).misses[n]? = some m → (s.die d).held = false → wantsWalk s d m →
    (∀ j x, j < n → (s.die d).misses[j]? = some x → ¬wantsWalk s d x) → (s.die d).walks.length < 64 →
    exec (.pageWalkStart d n) s = .next (s.setDie d { s.die d with
      walks := (s.die d).walks ++ [{ ctx := m.ctx, vpn := m.vpn, since := (s.die d).clock + 1 }] })) ∧
  (∀ (s : State) (d : BitVec 3) (n : Nat) (w : Walk), (s.die d).walks[n]? = some w → (s.die d).held = false →
    (∀ m ∈ (s.die d).misses, m.core.die = d) →
    let lines := s.walkPath w.vpn 3 (s.ctx w.ctx).ptroot
    w.since + 16 * (lines.map (walkRot d w.since)).sum ≤ (s.die d).clock + 1 →
    (∀ pa ∈ lines, TableAnswers s d pa) → ∀ u, s.openRows w.since (lines.map fun pa => pa / 64) = some u →
    (∀ cause, s.walkTables w.ctx w.vpn = .fault cause → exec (.pageWalkComplete d n) s = .next (u.setDie d { u.die d with
      walks := (s.die d).walks.eraseIdx n
      misses := (s.die d).misses.map fun m => if m.ctx = w.ctx ∧ m.vpn = w.vpn ∧ m.fault = none then { m with fault := some cause } else m })) ∧
    (∀ e, s.walkTables w.ctx w.vpn = .page e → ∃ t, exec (.pageWalkComplete d n) s = .next t ∧
      (t.die d).walks = (s.die d).walks.eraseIdx n ∧
      (t.die d).misses = (s.die d).misses.filter (fun m => !(decide (m.ctx = w.ctx) && decide (m.vpn = w.vpn) && decide (m.fault = none))) ∧
      ∀ m ∈ (s.die d).misses, m.ctx = w.ctx → m.vpn = w.vpn → m.fault = none →
        e ∈ (t.core m.core).utlb ∧ e ∈ (t.cluster (CoreId.clusterKey m.core)).tlb)) ∧
  (∀ (s : State) (d : BitVec 3) (n : BitVec 6) (va : Nat),
    ((∃ pa ∈ s.walkPath (va / 4096) 3 (s.ctx n).ptroot, ¬TableAnswers s d pa) → s.hubWalk d n va = none ∧ s.hubFetch d n va = none) ∧
    (∀ pa, s.hubRead n va = some pa → ¬TableAnswers s d pa → s.hubFetch d n va = none)) ∧
  (∀ (s : State) (n : BitVec 6) (pre post : List FaultRec) (f : FaultRec), (s.ctx n).faults = pre ++ f :: post →
    (∀ g ∈ pre, g.written = true ∨ g.answer ≠ none) → f.written = false → f.answer = none → (s.die f.core.die).held = false →
    let y := s.ctx n
    let entry := y.fqbase + 64 + 32 * (y.fprod % y.fqsize)
    ∀ cons u v w, s.hubFetch f.core.die n (y.fqbase + 8) = some (cons, u) →
    (∀ pa, cons = some pa → y.fprod - (s.baseWord (pa / 8)).toNat < y.fqsize) →
    u.hubWalk f.core.die n entry = some v → v.hubWalk f.core.die n y.fqbase = some w →
    let unit := 32 * f.core.y.toNat + f.core.x.toNat
    let r := w.statusWrite f.core.die n unit entry f.words
    let h := r.2.statusWrite f.core.die n unit y.fqbase [BitVec.ofNat 64 (y.fprod + 1)] ((List.range 4).map (w.seqno + ·))
    (r.1 = false → exec (.faultRecordWrite n) s = .next (r.2.answerFault n f false)) ∧
    (r.1 = true → h.1 = false → exec (.faultRecordWrite n) s = .next (h.2.answerFault n f false)) ∧
    (r.1 = true → h.1 = true → ∃ t, exec (.faultRecordWrite n) s = .next t ∧ (t.ctx n).fprod = y.fprod + 1 ∧ t.mem = s.mem ∧
      (t.ctx n).faults = y.faults.map (fun g => if g.seq = f.seq then { g with written := true } else g)))

namespace Sys2Proof.Claims

/-- The slots of a block on a core. -/
abbrev OfBlock (s : State) (c : CoreId) (n : Nat) (k : BitVec 4) : Prop := (s.slot c k).blk = some n
/-- A block has left its core: no entry, its slots unbound with their generation alone, no command or operation of it, and nothing waits for a
translation in their names (R306). -/
def Left (s t : State) (c : CoreId) (n : Nat) : Prop :=
  Sparse.find (t.core c).table n = none ∧ (∀ k, OfBlock s c n k → t.slot c k = { gen := (s.slot c k).gen }) ∧
  (∀ e ∈ (t.core c).cmds, e.2.blk ≠ n) ∧ (∀ o ∈ (t.core c).mx, o.blk ≠ n) ∧
  ∀ m ∈ (t.die c.die).misses, m.core = c → m.who < 16 → ¬OfBlock s c n (BitVec.ofNat 4 m.who)

end Sys2Proof.Claims

/-- A save request for a bound block at a page-aligned address of hub working memory is kept, and every slot of the block is to stop, with
those of every block that stops with it (of its started whole launch, log 86: DEDUCED, the model's choice; of its context on the core where a slot of it owns the sequencer;
and so on); nothing else changes. The stop waits for each slot and its accesses, then pauses the commands that are
between units; the owner of the sequencer waits for the microinstruction that runs, whose rows are then written, and its run stops with cause 5, at
the end of its store with cause 4; and a barrier register waits for a release that a position of its rectangle has still to take. The step of a save
that is not over is the next step of the stop. When the stop is over (and, for the owner of the
sequencer, its context's other blocks have left; for a block of a started whole launch, every block of it has its request, log 86) the block's words stand at the address, the save is known, and the block has left its core (the place of an unstarted
matrix operation in them is in part the model's, log 26; engine faults that wait stay with the block, log 46: DEDUCED). -/
def Sys2Proof.Claims.SavingABlock : Prop :=
  (∀ (s : State) (c : CoreId) (n pa : Nat) (b : Block), Sparse.find (s.core c).table n = some b → b.boot = false → b.held = false →
    b.saveReq = none → b.closing = none → hubWorkingRange pa (s.saveSize c n b) = true → pa % 4096 = 0 →
    ∃ t, exec (.saveRequest c n pa) s = .next t ∧ StoppedFrom (s.setBlock c n { b with saveReq := some pa }) c n t) ∧
  (∀ (s : State) (c : CoreId) (n : Nat) (b : Block),
    ((∃ k, OfBlock s c n k ∧ (((s.slot c k).st = .running ∧ (s.slot c k).stopped = false) ∨ (s.slot c k).tags ≠ [] ∨ (s.slot c k).hold ≠ [] ∨
        (s.slot c k).longs ≠ [])) → s.stopStep c n b = .wait) ∧
    ((∀ k, OfBlock s c n k → ((s.slot c k).st ≠ .running ∨ (s.slot c k).stopped = true) ∧ (s.slot c k).tags = [] ∧ (s.slot c k).hold = [] ∧
        (s.slot c k).longs = []) → (s.slab c).changing = [] → (∃ e ∈ (s.core c).cmds, e.2.between n = true) →
      s.stopStep c n b = .go (s.setCore c { s.core c with
        cmds := (s.core c).cmds.map fun (e : Nat × Cmd) => if e.2.between n then (e.1, { e.2 with st := .paused }) else e })) ∧
    (s.ownsSeq c n = true → (s.slab c).seq.st = .running →
      (s.instant c < (s.slab c).seq.due → s.stopTail c n b = .wait) ∧
      ((s.slab c).seq.due ≤ s.instant c → (s.die c.die).held = false → (s.slab c).seq.last = false →
        let y := (s.slab c).commitMicro
        s.stopTail c n b = .go (s.setSlab c { y with seq := { y.seq with st := .stopped, scause := 5 } })) ∧
      ((s.slab c).seq.due ≤ s.instant c → (s.die c.die).held = false → (s.slab c).seq.last = true →
        s.stopTail c n b = .go ((s.setSlab c (s.slab c).commitMicro).seqStop c 4))) ∧
    (s.ownsSeq c n = false → b.ph = .sent → ∀ i, i < b.nbar →
      let r := barAt s c (b.bar0 + i)
      (∃ e ∈ s.cores, let o := CoreId.ofKey e.1
        let x := barAt s o (b.bar0 + i)
        o.die = c.die ∧ SameBar x r ∧ r.x0 ≤ o.x ∧ o.x ≤ r.x1 ∧ r.y0 ≤ o.y ∧ o.y ≤ r.y1 ∧ x.rel = true) → s.stopTail c n b = .wait)) ∧
  (∀ (s : State) (c : CoreId) (n pa : Nat) (b : Block), Sparse.find (s.core c).table n = some b → b.saveReq = some pa → b.closing = none →
    CoreWorks s c →
    (∀ t, s.stopStep c n b = .go t → exec (.blockSave c n) s = .next t) ∧
    (s.stopStep c n b = .finished → (s.ownsSeq c n = true → s.lastOfCtx c n b = true) →
      (s.wholeStarted b = true → ∀ e ∈ s.cores, ∀ y ∈ e.2.table, y.2.ofLaunch b.queue b.seq = true → y.2.saveReq.isSome = true) →
      let v := s.savedBlock c n b pa
      ∃ t, exec (.blockSave c n) s = .next t ∧ Left s t c n ∧ v ∈ t.saves ∧
        ∀ j w, (v.words s.root.boots)[j]? = some w → t.readMem (pa + 8 * j) 8 = w.toNat))

namespace Sys2Proof.Claims

-- queues and launches (spec/17 R280 to R292)

/-- A queue's home die. -/
def homeOf (q : Byte) : BitVec 3 := BitVec.ofNat 3 (q.toNat % 8)
/-- The bytes of a launch record. -/
def recordAt (s : State) (pa : Nat) : BitVec 512 :=
  BitVec.ofNat 512 ((List.range 8).foldr (fun i a => (s.baseWord (pa / 8 + i)).toNat + 2 ^ 64 * a) 0)
/-- The first of a launch's last steps (R291): its status word is written where its record has an aligned place for one; the launch keeps the
numbers of the records it awaits. -/
def cswWritten (s : State) (q : Byte) (y : Queue) (l : Launch) (st : Nat) (cause : Byte) : State :=
  let d := homeOf q
  let csw := recNat l.rec0 128 48
  let r := if csw = 0 ∨ csw % 16 ≠ 0 then (false, s)
    else s.statusWrite d y.ctx 0 csw [BitVec.ofNat 64 (2 ^ 62 * st + 2 ^ 54 * cause.toNat + l.blocks % 2 ^ 32),
      BitVec.ofNat 64 (2 ^ 32 * ((s.die d).clock % 2 ^ 32) + recNat l.rec0 320 32)]
  let ids := if r.1 then [s.seqno, s.seqno + 1] else []
  { r.2 with queues := Sparse.set r.2.queues q.toNat { y with
      launches := y.launches.map fun (m : Launch) => if m.n = l.n then { m with csw := some ids } else m } }
/-- The second: `FIN` is one higher, the launch gone, `DONE` written. -/
def doneWritten (s : State) (q : Byte) (y : Queue) (l : Launch) : State :=
  let y := { y with fin := y.fin + 1, launches := y.launches.filter fun (m : Launch) => decide (m.n ≠ l.n) }
  (({ s with queues := Sparse.set s.queues q.toNat y } : State).statusWrite (homeOf q) y.ctx 0 (y.qbase + 16) [BitVec.ofNat 64 y.fin]).2
/-- A launch that is next takes its last steps with a status and a cause: first the status word, and once that is applied `DONE`; each once the hub
can walk the tables for its place (R305). -/
abbrev Finishes (s : State) (e : Instr) (q : Byte) (y : Queue) (l : Launch) (st : Nat) (cause : Byte) : Prop :=
  let csw := recNat l.rec0 128 48
  (l.csw = none → csw = 0 ∨ csw % 16 ≠ 0 → exec e s = .next (cswWritten s q y l st cause)) ∧
  (∀ w, l.csw = none → csw ≠ 0 → csw % 16 = 0 → s.hubWalk (homeOf q) y.ctx csw = some w → exec e s = .next (cswWritten w q y l st cause)) ∧
  (∀ ids w, l.csw = some ids → s.unapplied ids = false → s.hubWalk (homeOf q) y.ctx (y.qbase + 16) = some w →
    exec e s = .next (doneWritten w q y l))

/-- Some bits of a record are not 0: the fields that a list names by lowest bit and width. -/
abbrev someSet (r : BitVec 512) (l : List (Nat × Nat)) : Prop := ∃ f ∈ l, recNat r f.1 f.2 ≠ 0
/-- The reserved fields of a launch record (R283). -/
def launchReserved : List (Nat × Nat) :=
  [(48, 16), (112, 16), (176, 16), (214, 2), (236, 20), (294, 26), (352, 32), (393, 7), (424, 24), (457, 7), (488, 24)]
/-- The cores that take part on the dies of a context, of a cluster (`cl` counts the clusters of the device) or of all. -/
def coresIn (s : State) (n : BitVec 6) (cl : Option Nat) : Nat :=
  ((List.range 8192).filter fun i =>
    let c := CoreId.ofKey i
    (s.ctx n).dies.getLsbD (i / 1024) && s.takesPart (BitVec.ofNat 3 (i / 1024)) (i % 1024)
      && match cl with | none => true | some x => decide (64 * (i / 1024) + c.cluster = x)).length
/-- The six causes for which a launch record of a context is refused (R284). -/
def refusedFor (s : State) (n : BitVec 6) (r : BitVec 512) (cause : Nat) : Prop :=
  let blocks := (recNat r 196 4 + 1) * (recNat r 200 9 + 1) * (recNat r 209 4 + 1)
  match cause with
  | 1 => someSet r launchReserved ∨ recNat r 0 2 ≠ 0 ∨ recNat r 128 48 % 16 ≠ 0 ∨ 196608 < recNat r 256 18 ∨ 4 < recNat r 233 3 ∨
      64 < recNat r 226 7 ∨ 8 < recNat r 222 4 ∨ 32 < recNat r 216 6
  | 2 => recNat r 222 4 ≠ 0 ∧ recNat r 256 18 < 2048 * recNat r 222 4
  | 3 => (s.ctx n).count * 65536 < recNat r 274 20
  | 4 => recNat r 213 1 = 1 ∧ coresIn s n none < blocks
  | 5 => ∃ j, j < 2 ∧ recNat r (392 + 64 * j) 1 = 1 ∧ ∀ y, Sparse.find s.queues (recNat r (384 + 64 * j) 8) = some y → y.ctx ≠ n
  | 6 => ((List.range 512).filter fun x => decide (recNat r 196 4 + 1 ≤ coresIn s n (some x))).length < recNat r 200 9 + 1
  | _ => False

end Sys2Proof.Claims

/-- A kick at an open spoke whose source is the queue's, with a number above `TAKEN`, raises the queue's target to that number, or the producer
count where greater, once the hub has it, and wakes its die; one at or below it does nothing; a kick of another source, or for no queue, is logged and does
nothing else. The monitor reads the next record up to the target, with the cause for which it is refused, the first of the six that
holds, and writes `TAKEN`. The launch that is next in its queue completes: refused with status 3 and its cause; ended, with no block left,
with status 2 and its cause; else, with all its blocks counted and their records applied, with status 1. Its status word is written first (none at a misaligned
address, log 47: DEDUCED), and `DONE` once that is applied. (A flit that comes in ends its spoke's replays, log 59; a held die takes no kick, log 16:
DEDUCED.) -/
def Sys2Proof.Claims.QueuesTakeAndFinishLaunches : Prop :=
  (∀ (s : State) (sp : BitVec 5) (fid : BitVec 18) (q : Byte) (n : Nat), SpokeOpen s sp → (s.die (homeOf q)).held = false →
    let t := s.setSpoke sp.toNat { s.spoke sp.toNat with replays := 0 }
    let src := if (s.spoke sp.toNat).cxl then 0x3FFFF else fid
    (Sparse.find s.queues q.toNat = none → exec (.kick sp fid q n) s = .next (t.logEvent (homeOf q) 0x0D none sp.toNat q.toNat n 0)) ∧
    (∀ y, Sparse.find s.queues q.toNat = some y →
      (y.ksrc ≠ src → exec (.kick sp fid q n) s = .next (t.logEvent (homeOf q) 0x0D (some y.ctx) sp.toNat q.toNat n 0)) ∧
      (y.ksrc = src → n ≤ y.taken → exec (.kick sp fid q n) s = .next t) ∧
      (∀ at_ v, y.ksrc = src → (s.ctx y.ctx).state = 1 → y.taken < n → t.hubFetch (homeOf q) y.ctx y.qbase = some (at_, v) →
        let prod := match at_ with | some pa => (s.baseWord (pa / 8)).toNat | none => 0
        let u : State := { v with queues := Sparse.set v.queues q.toNat { y with target := max y.target (max n prod) } }
        exec (.kick sp fid q n) s = .next (if (s.die (homeOf q)).stopped then u.setDie (homeOf q) { u.die (homeOf q) with wake := true } else u)))) ∧
  (∀ (s : State) (q : Byte) (y : Queue), Sparse.find s.queues q.toNat = some y → (s.die (homeOf q)).held = false → (s.ctx y.ctx).state = 1 →
    y.taken < y.target →
    ∀ place u w, s.hubFetch (homeOf q) y.ctx (y.qbase + 64 + 64 * (y.taken % y.qlen)) = some (place, u) →
    u.hubWalk (homeOf q) y.ctx (y.qbase + 8) = some w →
    let l : Launch := match place with
      | none => { n := y.taken, rec0 := 0, refused := some 1 }
      | some pa => { n := y.taken, rec0 := recordAt s pa, refused := s.refusal y.ctx (recordAt s pa) }
    let z := { y with taken := y.taken + 1, launches := y.launches ++ [l] }
    exec (.launchRecordRead q) s = .next (({ w with queues := Sparse.set w.queues q.toNat z } : State).statusWrite (homeOf q) y.ctx 0 (y.qbase + 8)
      [BitVec.ofNat 64 (y.taken + 1)]).2) ∧
  (∀ (s : State) (q : Byte) (y : Queue) (l : Launch) (pre post : List Launch), Sparse.find s.queues q.toNat = some y →
    (s.die (homeOf q)).held = false → y.launches = pre ++ l :: post → (∀ m ∈ pre, m.n ≠ y.fin) → l.n = y.fin →
    (∀ cause, l.refused = some cause → Finishes s (.refusedLaunchComplete q) q y l 3 cause) ∧
    (l.refused = none → (s.ctx y.ctx).state = 1 → s.movedWaits l.names = false →
      (∀ cause, l.ended = some cause → s.launchBound q l = false → Finishes s (.launchComplete q) q y l 2 cause) ∧
      (l.ended = none → l.blocks = (recNat l.rec0 196 4 + 1) * (recNat l.rec0 200 9 + 1) * (recNat l.rec0 209 4 + 1) →
        Finishes s (.launchComplete q) q y l 1 0))) ∧
  (∀ (s : State) (n : BitVec 6) (r : BitVec 512),
    (∀ cause, s.refusal n r = some cause → refusedFor s n r cause.toNat ∧ ∀ j, j < cause.toNat → ¬refusedFor s n r j) ∧
    (s.refusal n r = none → ∀ j, ¬refusedFor s n r j))

namespace Sys2Proof.Claims

/-- The rank of a slot among those of a mask (R288). -/
def rankIn (mask : BitVec 16) (k : BitVec 4) : BitVec 4 :=
  BitVec.ofNat 4 ((List.range k.toNat).countP fun j => mask.getLsbD j)
/-- The lowest number that a core's slot table does not use. -/
abbrev LowestFree (s : State) (c : CoreId) (n : Nat) : Prop :=
  n < 17 ∧ Sparse.find (s.core c).table n = none ∧ ∀ j, j < n → Sparse.find (s.core c).table j ≠ none

/-- The reserved fields of a bind record (R286). -/
def bindReserved : List (Nat × Nat) :=
  [(48, 16), (112, 16), (166, 2), (227, 5), (274, 2), (294, 2), (319, 1), (333, 3), (376, 8), (432, 80)]
/-- The monitor's copy of the launch that a bind record names, with its queue. -/
def launchOf (s : State) (b : Block) : Option (Queue × Launch) :=
  match Sparse.find s.queues b.queue.toNat with
  | none => none
  | some q => (q.launches.find? fun (l : Launch) => decide (l.n % 2 ^ 24 = b.seq.toNat)).map fun l => (q, l)
/-- Two ranges of numbers, each a first one and a count, have a number in common. -/
abbrev share (a b : Nat × Nat) : Prop := ∃ n, a.1 ≤ n ∧ n < a.1 + a.2 ∧ b.1 ≤ n ∧ n < b.1 + b.2
/-- The allotments of a block: scratchpad bytes, tiles, rings, descriptors, barriers. -/
def allots (b : Block) : List (Nat × Nat) :=
  [(b.scrbase, b.scrsize), (b.tile0, b.ntile), (b.ring0, b.nring), (b.desc0, b.ndesc), (b.bar0, b.nbar)]
/-- A dependence of a launch record is satisfied (R285). -/
abbrev depHolds (s : State) (r : BitVec 512) (j : Nat) : Prop :=
  recNat r (392 + 64 * j) 1 = 1 →
    ∃ y, Sparse.find s.queues (recNat r (384 + 64 * j) 8) = some y ∧ (y.fin + 2 ^ 24 - recNat r (400 + 64 * j) 24) % 2 ^ 24 < 2 ^ 23
/-- A block's placement breaks R289: against a block of its launch, one of its group elsewhere, or one of another group of its stage here. -/
abbrev misplaced (s : State) (c : CoreId) (b : Block) : Prop :=
  ∃ e ∈ s.cores, ∃ x ∈ e.2.table, x.2.boot = false ∧ x.2.queue = b.queue ∧ x.2.seq = b.seq ∧ x.2.stg = b.stg ∧
    (x.2.grp = b.grp ↔ CoreId.clusterKey (CoreId.ofKey e.1) ≠ CoreId.clusterKey c)
/-- The twelve checks of the guard that a bind record fails at a core (R287). -/
def guardFails (s : State) (c : CoreId) (b : Block) (code : Nat) : Prop :=
  let r := b.rec0
  match code with
  | 1 => (s.ctx b.ctx).state ≠ 1 ∨ ∀ q, Sparse.find s.queues b.queue.toNat = some q → q.ctx ≠ b.ctx
  | 2 => ∀ q l, launchOf s b = some (q, l) →
      ∃ f ∈ [(0, 0, 48), (64, 64, 48), (128, 320, 32), (196, 196, 4), (209, 200, 9), (222, 209, 4), (226, 213, 1)],
        recNat r f.1 f.2.2 ≠ recNat l.rec0 f.2.1 f.2.2
  | 3 => someSet r bindReserved ∨ recNat r 196 4 < recNat r 192 4 ∨ recNat r 209 9 < recNat r 200 9 ∨ recNat r 222 4 < recNat r 218 4 ∨
      ∃ q l, launchOf s b = some (q, l) ∧ (List.range 16).countP (fun k => b.smask.getLsbD k) ≠ recNat l.rec0 192 4 + 1
  | 4 => ∃ q l, launchOf s b = some (q, l) ∧
      (l.refused ≠ none ∨ l.ended ≠ none ∨ l.n ≠ q.fin ∨ ¬depHolds s l.rec0 0 ∨ ¬depHolds s l.rec0 1)
  | 5 => s.takesPart c.die (32 * c.y.toNat + c.x.toNat) = false ∨ (s.ctx b.ctx).dies.getLsbD c.die.toNat = false ∨
      ∃ g ∈ (s.slab c).fenced, share (65536 * (s.ctx b.ctx).first + b.dwbase, b.dwsize) (65536 * g, 65536)
  | 6 => ∃ k : BitVec 4, b.smask.getLsbD k.toNat = true ∧ ((s.slot c k).st ≠ .unbound ∨ (s.slot c k).blk ≠ none)
  | 7 => b.scrbase % 2048 ≠ 0 ∨ (∃ p ∈ (allots b).zip [196608, 32, 8, 64, 4], p.2 < p.1.1 + p.1.2) ∨
      ∃ q l, launchOf s b = some (q, l) ∧ (b.ntile < recNat l.rec0 216 6 ∨ b.nring < recNat l.rec0 222 4 ∨ b.ndesc < recNat l.rec0 226 7 ∨
        b.nbar < recNat l.rec0 233 3 ∨ b.scrsize < recNat l.rec0 256 18 ∨ b.dwsize < recNat l.rec0 274 20)
  | 8 => ∃ e ∈ (s.core c).table, ∃ p ∈ (allots e.2).zip (allots b), share p.1 p.2
  | 9 => (s.ctx b.ctx).count * 65536 < b.dwbase + b.dwsize
  | 10 => ∃ e ∈ (s.core c).table, e.2.boot = false ∧ e.2.queue = b.queue ∧ e.2.seq = b.seq
  | 11 => b.save ≠ 0 ∧ s.mayResume c b = false
  | 12 => misplaced s c b
  | _ => False
/-- The slots of a block as it starts afresh (R13, R16, R288): at the entry, g1 the arguments, every other register 0 and clean, `GEN` one
higher, the rank kept. -/
abbrev Fresh (s t : State) (c : CoreId) (n : Nat) (b : Block) : Prop :=
  Sparse.find (t.core c).table n = some { b with held := false } ∧ (t.core c).l1 = [] ∧
  (∀ k, (s.slot c k).blk = some n → t.slot c k = {
    st := .running, pc := b.rec0.extractLsb' 0 48, g := (Vector.replicate 64 ({} : Reg 64)).set 1 { val := (b.rec0.extractLsb' 64 48).setWidth 64 },
    thr := (s.slot c k).thr, gen := (s.slot c k).gen + 1, blk := some n }) ∧
  ∀ u, b.scrbase / 8 ≤ u → 8 * u < b.scrbase / 8 * 8 + b.scrsize → unitAt (t.core c).scratch u = {}
/-- The machine with a whole launch's record held (R288): its entry, its slots taken with their ranks, its die awake. -/
def heldThere (s : State) (c : CoreId) (n : Nat) (b : Block) : State :=
  let x := (s.core c).claimSlots n b.smask
  let t := s.setCore c { x with table := Sparse.set x.table n b }
  if (t.die c.die).stopped then t.setDie c.die { t.die c.die with wake := true } else t

end Sys2Proof.Claims

/-- A bind record that a check of the guard fails is logged with the code of the first that it fails, and does nothing else (the code 5 of a fenced
bank group is that of a deep window with bytes in it, log 52: DEDUCED). An accepted one of a
launch that is not whole, without a save, starts: each slot of its mask runs at the entry with its rank, its generation one higher, g1 the
arguments, every other register 0, clean; its scratchpad reads 0, the L1 is empty, every other slot is as before. One of a whole launch
that is not the last is held with its slots taken, and may be withdrawn; the last one starts every held block of the launch together,
and the launch has started. A block whose slots have exited, with its work done, drains step by step; with its records accepted it leaves
its core and is counted; a closed one is stopped first. -/
def Sys2Proof.Claims.BlocksBindAndComplete : Prop :=
  (∀ (s : State) (c : CoreId) (b : Block),
    (∀ code, s.guardCode c b = some code → guardFails s c b code ∧ ∀ j, j < code → ¬guardFails s c b j) ∧
    (s.guardCode c b = none → ∀ j, ¬guardFails s c b j)) ∧
  (∀ (s : State) (c : CoreId) (r : BitVec 512),
    let b : Block := { rec0 := r, held := r.getLsbD 226 }
    let e := Instr.bindRecordCommit c r
    (∀ code, s.guardCode c b = some code →
      exec e s = .next (s.logEvent c.die 0x0E (if code = 1 then none else some b.ctx) (32 * c.y.toNat + c.x.toNat) 0 code 0)) ∧
    (∀ n, s.guardCode c b = none → r.getLsbD 226 = false → r.extractLsb' 384 48 = 0 → LowestFree s c n →
      ∃ t, exec e s = .next t ∧ Sparse.find (t.core c).table n = some b ∧ (t.core c).l1 = [] ∧ t.mem = s.mem ∧
        (∀ k : BitVec 4, (r.extractLsb' 176 16).getLsbD k.toNat = true → t.slot c k = {
          st := .running, pc := r.extractLsb' 0 48, g := (Vector.replicate 64 ({} : Reg 64)).set 1 { val := (r.extractLsb' 64 48).setWidth 64 },
          thr := rankIn (r.extractLsb' 176 16) k, gen := (s.slot c k).gen + 1, blk := some n }) ∧
        (∀ k : BitVec 4, (r.extractLsb' 176 16).getLsbD k.toNat = false → (s.slot c k).blk ≠ some n → t.slot c k = s.slot c k) ∧
        (∀ u, b.scrbase / 8 ≤ u → 8 * u < b.scrbase + b.scrsize → unitAt (t.core c).scratch u = {})) ∧
    (∀ n, s.guardCode c b = none → r.getLsbD 226 = true → LowestFree s c n →
      let u := heldThere s c n b
      let hs := u.heldOf b
      let all := (recNat r 196 4 + 1) * (recNat r 209 9 + 1) * (recNat r 222 4 + 1)
      (hs.length < all → exec e s = .next u) ∧
      (all ≤ hs.length → (hs.map fun h => (h.1, h.2.1)).Nodup → (∀ h ∈ hs, h.2.2.save = 0) →
        ∃ t, exec e s = .next t ∧ t.mem = s.mem ∧ (∀ h ∈ hs, Fresh u t h.1 h.2.1 h.2.2) ∧
          ∀ q l, launchOf s b = some (q, l) → ∃ q' l', launchOf t b = some (q', l') ∧ l' = { l with started := true }))) ∧
  (∀ (s : State) (c : CoreId) (n : Nat) (b : Block), Sparse.find (s.core c).table n = some b → b.held = true →
    exec (.bindRecordWithdraw c n) s = .next (s.setCore c { s.core c with
      table := Sparse.del (s.core c).table n
      slots := (s.core c).slots.map fun (y : Slot) => if y.blk = some n then { y with blk := none, thr := 0 } else y }
      |>.returnHolding c b.ctx)) ∧
  (∀ (s : State) (c : CoreId) (n : Nat) (b : Block), Sparse.find (s.core c).table n = some b → CoreWorks s c →
    (b.closing = none → b.boot = false → b.held = false → s.blockIdle c n = true →
      (∀ ph t, DrainMoves s c b.ctx 3 none (s.blockNames c n) b.ph ph t →
        exec (.blockComplete c n) s = .next (t.setBlock c n { (Sparse.find (t.core c).table n).getD { rec0 := 0 } with ph := ph })) ∧
      (b.ph = .sent → CameHome s 3 (s.blockNames c n) →
        ∃ t, Left s t c n ∧ t.mem = s.mem ∧ exec (.blockComplete c n) s = .next (t.countBlock b (s.blockNames c n)))) ∧
    (b.closing ≠ none → (∀ t, s.stopStep c n b = .go t → exec (.blockComplete c n) s = .next t) ∧
      (s.stopStep c n b = .finished → b.held = false →
        ∃ t, Left s t c n ∧ t.mem = s.mem ∧ exec (.blockComplete c n) s = .next (t.countBlock b (s.blockNames c n)))))

namespace Sys2Proof.Claims

-- requests to the root-of-trust core (spec/22 R357 to R361)

/-- The requests with their opcodes. -/
def requestOf : Instr → Option (Nat × Request)
  | .claim r => some (0x0001, r)
  | .attest r => some (0x0002, r)
  | .status r => some (0x0003, r)
  | .createContext r => some (0x0010, r)
  | .endContext r => some (0x0011, r)
  | .setSplit r => some (0x0012, r)
  | .createQueue r => some (0x0020, r)
  | .setWindow r => some (0x0030, r)
  | .invalidateTranslations r => some (0x0031, r)
  | .faultAnswer r => some (0x0032, r)
  | .repair r => some (0x0040, r.rq)
  | .runtimeDisable r => some (0x0041, r)
  | .raceRing r => some (0x0050, r)
  | .extendMeasurement r => some (0x0060, r)
  | .raiseRollbackCounter r => some (0x0061, r)
  | _ => none
/-- `n` bytes of a number, least significant first. -/
def le (n v : Nat) : List Byte := (List.range n).map fun i => BitVec.ofNat 8 (v / 256 ^ i)
/-- The bytes of a reply (R359): magic, opcode, status, sequence number, body length, zeros, body. -/
def replyOf (r : Request) (status : Nat) (body : List Byte) : List Byte :=
  le 4 0x56525031 ++ le 2 (Request.field r 4 2) ++ le 2 status ++ le 8 (Request.field r 8 8) ++ le 4 body.length ++ le 12 0 ++ body
/-- A request answered: the reply, in the spoke's reply buffer too where it came through BAR0, one more done, and with status 0 of a signed
request its sequence number kept. -/
def answered (s : State) (r : Request) (status : Nat) (body : List Byte) : State :=
  let bs := replyOf r status body
  let x := s.spoke r.sp.toNat
  let t := if r.cxl then s.setSpoke r.sp.toNat { x with replyBuf := bs ++ x.replyBuf.drop bs.length } else s
  { t with root := { t.root with
      reply := some { cxl := r.cxl, sp := r.sp, fid := r.fid, bytes := bs }, ndone := t.root.ndone + 1,
      seq := if status = 0 ∧ 3 < Request.field r 4 2 then BitVec.ofNat 64 (Request.field r 8 8) else t.root.seq } }
/-- A request comes in: the spokes have trained, its own is of its kind, is not fenced, and no collective block waits there for room (R342, R369);
through BAR0 it is what the spoke's request buffer holds. -/
abbrev Arrives (s : State) (r : Request) : Prop :=
  s.root.trained = true ∧ (s.spoke r.sp.toNat).fenced = false ∧ ((s.spoke r.sp.toNat).gq.length < 64 ∨ (s.spoke r.sp.toNat).colls = []) ∧
    (s.spoke r.sp.toNat).cxl = r.cxl ∧
    (r.cxl = true → r.bytes = (s.spoke r.sp.toNat).reqBuf)
/-- It comes in while no request is served, and has the opcode of the step that takes it in. -/
abbrev Taken (s : State) (o : Nat) (r : Request) : Prop := Arrives s r ∧ s.root.serving = none ∧ Request.field r 4 2 = o
/-- The owner key's signature over a request's header and body (R358). -/
abbrev signedByOwner (s : State) (r : Request) : Bool :=
  let n := 32 + Request.field r 16 4
  Config.verifies s.root.ownerKey (Config.shake256 (r.bytes.take n)) (BitVec.ofNat 10240 (Request.field r n 1280))
/-- A signed request that passes every check before its own (R358, R359). -/
abbrev Passes (s : State) (o : Nat) (r : Request) : Prop :=
  Taken s o r ∧ Request.malformed r = false ∧ s.root.ready = true ∧ s.root.claimed = true ∧ s.root.seq.toNat < Request.field r 8 8 ∧
    signedByOwner s r = true
/-- The root with another state of its own. -/
def withRoot (s : State) (x : Root) : State := { s with root := x }
/-- The request is served, and goes on until some numbers have gone. -/
def serving (s : State) (r : Request) (wait : List Nat) : State := withRoot s { s.root with serving := some ⟨r, wait⟩ }
/-- The report of an attestation (R368): magic, version, length, nonce, the hash of the identity key, the measurement registers, the counters,
the bundle, the hash of the fuse block, the `CLOCK` of die 0. -/
def reportOf (s : State) (nonce : List Byte) : List Byte :=
  let x := s.root
  le 4 0x56415431 ++ le 4 1 ++ le 8 1992 ++ nonce ++ le 64 (Config.shake256 (le 1793 x.identity.toNat)).toNat ++
    ((List.range 8).map fun i => le 64 (x.meas[i]?.getD 0).toNat).flatten ++ ((List.range 3).map fun i => le 4 (x.counters[i]?.getD 0)).flatten ++
    le 4 x.bundle.toNat ++ le 64 s.fuseHash.toNat ++ le 8 (s.die 0).clock
/-- The security version of an image of the flash (R362). -/
def versionOf (s : State) (bundle : BitVec 1) (typ : Nat) : Nat :=
  leNat ((((s.root.flash[3 * bundle.toNat + typ - 1]?).getD []).drop 8).take 4)
/-- No TLB of the device, of a core or of a cluster, holds an entry of a context (of any, for `none`) that meets some pages. -/
abbrev noEntry (t : State) (only : Option (BitVec 6)) (vpn pages : Nat) : Prop :=
  let out (x : TlbEntry) : Prop := (only = none ∨ only = some x.ctx) → x.pages = 0 ∨ pages = 0 ∨ x.vpn + x.pages ≤ vpn ∨ vpn + pages ≤ x.vpn
  (∀ e ∈ t.cores, ∀ x ∈ e.2.utlb, out x) ∧ (∀ e ∈ t.clusters, ∀ x ∈ e.2.tlb, out x) ∧
    ∀ d, d < 8 → ∀ w ∈ (t.die (BitVec.ofNat 3 d)).walks, only ≠ none ∧ only ≠ some w.ctx
/-- A measurement register extended by a digest (R364). -/
def measured (x : Root) (j : Nat) (d : BitVec 512) : Root :=
  let b (v : BitVec 512) : List Byte := (List.range 64).map fun i => BitVec.ofNat 8 (v.toNat / 256 ^ i)
  { x with meas := x.meas.setIfInBounds j (Config.shake256 (b (x.meas[j]?.getD 0) ++ b d)) }

end Sys2Proof.Claims

/-- For each of the fifteen request steps and a request that arrives with its opcode. While another request is served it is answered with status
8, or not at all through BAR0. Else, past ATTEST and STATUS, one before the core is ready is answered with status 1; a malformed one with
status 2; of the well-formed ones past ATTEST and STATUS, CLAIM of a claimed device, and any other of an unclaimed one, with status 4; then
a sequence number that is not greater with status 5, a bad signature with status 6. An opcode of no request is answered with status 3. Each
of these answers changes nothing but the reply and the count. (The order of the checks is the model's choice where the spec gives none,
log 27.) -/
def Obligations.RequestChecksInOrder : Prop :=
  (∀ (i : Instr) (o : Nat) (r : Request) (s : State), requestOf i = some (o, r) → Arrives s r → Request.field r 4 2 = o →
    (∀ v, s.root.serving = some v → exec i s = .next (if r.cxl then s else answered s r 8 [])) ∧
    (s.root.serving = none →
      (s.root.ready = false → o ≠ 2 → o ≠ 3 → exec i s = .next (answered s r 1 [])) ∧
      ((s.root.ready = true ∨ o = 2 ∨ o = 3) → Request.malformed r = true → exec i s = .next (answered s r 2 [])) ∧
      (s.root.ready = true → Request.malformed r = false → o ≠ 2 → o ≠ 3 →
        (s.root.claimed = decide (o = 1) → exec i s = .next (answered s r 4 [])) ∧
        (o ≠ 1 → s.root.claimed = true →
          (Request.field r 8 8 ≤ s.root.seq.toNat → exec i s = .next (answered s r 5 [])) ∧
          (s.root.seq.toNat < Request.field r 8 8 → signedByOwner s r = false → exec i s = .next (answered s r 6 [])))))) ∧
  (∀ (i : Instr) (o : Nat) (r : Request) (s : State), requestOf i = some (o, r) → Arrives s r → s.root.serving = none → s.root.ready = true →
    Request.malformed r = false → (∀ j o' r', requestOf j = some (o', r') → o' ≠ Request.field r 4 2) → exec i s = .next (answered s r 3 []))

/-- CLAIM of an unclaimed ready device keeps the owner's key, its hash, a sequence number of 0, and measures the hash into register 4. STATUS
answers with the status as before its own reply (the model's choice, log 30), the bundle, the counters and the last sequence number; ATTEST
with the report over the nonce and the identity key's signature. Signed requests that pass: EXTEND extends register 5, 6 or 7; RAISE raises a counter to the version of the image that runs; DISABLE appends its
entries where each die's enabled cores stay connected; SET_WINDOW writes a window that was not valid. Each answers with status 0. A valid
window waits for the accesses in flight, no TLB of a core or cluster holding a translation any more and no walk under way; so does
INVALIDATE for those of its context that meet its addresses, which are all of them where the length is 0. -/
def Sys2Proof.Claims.RequestsOnTheRoot : Prop :=
  (∀ (s : State) (r : Request), Taken s 1 r → Request.malformed r = false → s.root.ready = true → s.root.claimed = false →
    let h := Config.shake256 ((r.bytes.drop 32).take 1793)
    exec (.claim r) s = .next (answered (withRoot s (measured { s.root with
      claimed := true, owner := h, ownerKey := BitVec.ofNat 14344 (leNat ((r.bytes.drop 32).take 1793)), seq := 0 } 4 h)) r 0 [])) ∧
  (∀ (s : State) (r : Request), Taken s 3 r → Request.malformed r = false →
    ∃ b, exec (.status r) s = .next (answered s r 0 b) ∧ b.length = 32 ∧
      leNat (b.take 8) = 2 ^ 32 * s.root.ndone.toNat + (if s.root.claimed then 4 else 0) + (if s.root.ready then 2 else 0) + 1 ∧
      leNat ((b.drop 8).take 8) = s.root.bundle.toNat ∧ (∀ j, j < 3 → b[16 + j]? = some (BitVec.ofNat 8 (s.root.counters[j]?.getD 0))) ∧
      leNat (b.drop 24) = s.root.seq.toNat) ∧
  (∀ (s : State) (r : Request), Taken s 2 r → Request.malformed r = false →
    let p := reportOf s ((r.bytes.drop 32).take 32)
    exec (.attest r) s = .next (answered s r 0 (p ++ le 1280 (Config.falconSign s.root.identity (Config.shake256 p)).toNat))) ∧
  (∀ (s : State) (r : Request), Passes s 0x0060 r → 5 ≤ Request.dword r 0 → Request.dword r 0 ≤ 7 →
    exec (.extendMeasurement r) s = .next (answered (withRoot s (measured s.root (Request.dword r 0)
      (BitVec.ofNat 512 (leNat ((r.bytes.drop 40).take 64))))) r 0 [])) ∧
  (∀ (s : State) (r : Request), Passes s 0x0061 r → 1 ≤ Request.dword r 0 → Request.dword r 0 ≤ 3 →
    let j := Request.dword r 0 - 1
    exec (.raiseRollbackCounter r) s = .next (answered (withRoot s { s.root with
      counters := s.root.counters.setIfInBounds j (max (s.root.counters[j]?.getD 0) (versionOf s s.root.bundle (Request.dword r 0))) })
      r 0 [])) ∧
  (∀ (s : State) (r : Request), Passes s 0x0041 r →
    let n := Request.dword r 0
    let ws := (List.range n).map fun i => BitVec.ofNat 64 (Request.dword r (i + 1))
    1 ≤ n → n ≤ 16 → (∀ w ∈ ws, disableOk w = true) →
    (∀ d, d < 8 → connected s.meshW s.meshH (s.enabledWith (s.root.disable ++ ws) (BitVec.ofNat 3 d)) = true) →
    exec (.runtimeDisable r) s = .next (answered (withRoot s { s.root with disable := s.root.disable ++ ws }) r 0 [])) ∧
  (∀ (s : State) (r : Request), Passes s 0x0030 r → 1 ≤ Request.dword r 0 → Request.dword r 0 ≤ 0xFFE →
    Request.dword r 1 / 2 ^ 18 % 2 ^ 45 = 0 →
    ((Sparse.get (0 : Word) s.root.windows (Request.dword r 0)).getLsbD 63 = false → exec (.setWindow r) s = .next (answered (withRoot s { s.root with
      windows := Sparse.set s.root.windows (Request.dword r 0) (BitVec.ofNat 64 (Request.dword r 1)) }) r 0 [])) ∧
    ((Sparse.get (0 : Word) s.root.windows (Request.dword r 0)).getLsbD 63 = true → ∃ t, exec (.setWindow r) s = .next t ∧
      t.root = (serving s r (s.pendingIds none)).root ∧ t.mem = s.mem ∧ noEntry t none 0 (2 ^ 36))) ∧
  (∀ (s : State) (r : Request), Passes s 0x0031 r → Request.dword r 0 ≤ 63 → Request.dword r 1 + Request.dword r 2 ≤ 2 ^ 48 →
    let n := BitVec.ofNat 6 (Request.dword r 0)
    ∃ t, exec (.invalidateTranslations r) s = .next t ∧ t.root = (serving s r (s.pendingIds (some n))).root ∧ t.mem = s.mem ∧
      if Request.dword r 2 = 0 then noEntry t (some n) 0 (2 ^ 36)
      else noEntry t (some n) (Request.dword r 1 / 4096) ((Request.dword r 1 + Request.dword r 2 - 1) / 4096 - Request.dword r 1 / 4096 + 1))

namespace Sys2Proof.Claims

/-- A bank group is held by a context of the active ones beside one. -/
abbrev HeldBeside (s : State) (n : BitVec 6) (g : Nat) : Prop :=
  ∃ m, m ≠ n ∧ (s.ctx m).state = 1 ∧ (s.ctx m).first ≤ g ∧ g < (s.ctx m).first + (s.ctx m).count
/-- The context of a request, from its first dword. -/
def reqCtx (r : Request) : BitVec 6 := BitVec.ofNat 6 (Request.dword r 0)
/-- The entry that CREATE_CONTEXT brings. -/
def reqEntry (r : Request) : BitVec 256 := BitVec.ofNat 256 (leNat ((r.bytes.drop 40).take 32))

end Sys2Proof.Claims

/-- A split is in order, beside active ones that lie within the twelve groups, when its groups are among the twelve, no other active context holds one of
them, and in every slab a group that no fence takes is left to the cache (log 52: DEDUCED). Signed requests that pass their checks. CREATE_CONTEXT writes a free context's entry, with no flags and no faults; END_CONTEXT makes an
active one ending, with every block of it closing and its saved blocks gone, and goes on; SET_SPLIT of an active context without blocks writes
its split alone. CREATE_QUEUE makes a queue that is empty. FAULT_ANSWER answers a written fault. REPAIR of lines of device memory goes on, with those whose storage fails again noted;
of the logs' or the firmware's lines it is refused with status 7. RACE_RING clears a die's ring, or sets it for an active context with its header cleared, where it can be written, once the hub can walk the tables for it. All but END_CONTEXT and REPAIR answer
with status 0. -/
def Sys2Proof.Claims.RequestsOnContextsAndQueues : Prop :=
  (∀ (s : State) (n : BitVec 6) (v : BitVec 12), (∀ m, (s.ctx m).state = 1 → (s.ctx m).first + (s.ctx m).count ≤ 12) →
    let mine (g : Nat) : Prop := v.toNat % 16 ≤ g ∧ g < v.toNat % 16 + v.toNat / 256
    (s.splitOk n v = true ↔ v.toNat % 16 + v.toNat / 256 ≤ 12 ∧ (∀ g, mine g → ¬HeldBeside s n g) ∧
      (∃ g, g < 12 ∧ ¬mine g ∧ ¬HeldBeside s n g) ∧ ∀ e ∈ s.slabs, ∃ g, g < 12 ∧ ¬mine g ∧ ¬HeldBeside s n g ∧ g ∉ e.2.fenced)) ∧
  (∀ (s : State) (r : Request), Passes s 0x0010 r → Request.dword r 0 ≤ 63 →
    let y : Ctx := { ent := reqEntry r }
    ctxReserved y.ent = false → y.state = 1 → y.fqbase % 4096 = 0 → (y.ent.extractLsb' 204 4).toNat ≤ 8 → splitRange y.split.toNat = true →
    (s.ctx (reqCtx r)).state = 0 → s.splitOk (reqCtx r) y.split = true →
    exec (.createContext r) s = .next (answered (s.setCtx (reqCtx r) y) r 0 [])) ∧
  (∀ (s : State) (r : Request), Passes s 0x0011 r → Request.dword r 0 ≤ 63 → (s.ctx (reqCtx r)).state = 1 →
    ∃ t, exec (.endContext r) s = .next t ∧ t.root = (serving s r []).root ∧ (t.ctx (reqCtx r)).state = 2 ∧ t.mem = s.mem ∧
      (∀ v ∈ t.saves, v.blk.ctx ≠ reqCtx r) ∧
      ∀ e ∈ t.cores, ∀ m b, Sparse.find e.2.table m = some b → b.ctx = reqCtx r → b.boot = false → b.closing ≠ none) ∧
  (∀ (s : State) (r : Request), Passes s 0x0012 r → Request.dword r 0 ≤ 63 → splitRange (Request.dword r 1) = true →
    (s.ctx (reqCtx r)).state = 1 → s.hasBlock (reqCtx r) = false → s.splitOk (reqCtx r) (BitVec.ofNat 12 (Request.dword r 1)) = true →
    ∃ e : BitVec 256, exec (.setSplit r) s = .next (answered (s.setCtx (reqCtx r) { s.ctx (reqCtx r) with ent := e }) r 0 []) ∧
      ∀ j, j < 256 → e.getLsbD j =
        if 32 ≤ j ∧ j < 44 then (BitVec.ofNat 12 (Request.dword r 1)).getLsbD (j - 32) else (s.ctx (reqCtx r)).ent.getLsbD j) ∧
  (∀ (s : State) (r : Request), Passes s 0x0020 r →
    let d := Request.dword r
    d 0 ≤ 255 → d 1 ≤ 63 → d 2 ≤ 3 → d 3 % 4096 = 0 → d 3 < 2 ^ 48 → (∃ j, 1 ≤ j ∧ j ≤ 12 ∧ d 4 = 2 ^ j) → d 5 < 2 ^ 18 →
    Sparse.find s.queues (d 0) = none → (s.ctx (BitVec.ofNat 6 (d 1))).state = 1 →
    exec (.createQueue r) s = .next (answered { s with queues := Sparse.set s.queues (d 0) {
      ctx := BitVec.ofNat 6 (d 1), pri := BitVec.ofNat 2 (d 2), qbase := d 3, qlen := d 4, ksrc := BitVec.ofNat 18 (d 5) } } r 0 [])) ∧
  (∀ (s : State) (r : Request) (f : FaultRec) (pre post : List FaultRec), Passes s 0x0032 r → Request.dword r 0 ≤ 63 → Request.dword r 2 ≤ 1 →
    (s.ctx (reqCtx r)).faults = pre ++ f :: post → f.written = true → f.answer = none → f.seq % 2 ^ 32 = Request.dword r 1 →
    (∀ g ∈ pre, g.written = false ∨ g.answer ≠ none ∨ g.seq % 2 ^ 32 ≠ Request.dword r 1) →
    exec (.faultAnswer r) s = .next (answered (s.answerFault (reqCtx r) f (decide (Request.dword r 2 = 0))) r 0 [])) ∧
  (∀ (s : State) (r : Request), Passes s 0x0040 r →
    let d := Request.dword r
    d 0 % 64 = 0 → d 1 % 64 = 0 → 0 < d 1 → d 1 ≤ 2048 → d 0 + d 1 ≤ 2 ^ 40 → ∀ bad : List Nat,
    let lines := (List.range (d 1 / 64)).map fun j => d 0 / 64 + j
    ((∃ l ∈ lines, hubReserved (64 * l) = true ∧ hubWorking (64 * l) = false) → exec (.repair ⟨r, bad⟩) s = .next (answered s r 7 [])) ∧
    ((∀ l ∈ lines, hubReserved (64 * l) = true → hubWorking (64 * l) = true) →
      exec (.repair ⟨r, bad⟩) s = .next (serving s r (bad.filter fun l => lines.contains l)))) ∧
  (∀ (s : State) (r : Request), Passes s 0x0050 r →
    let d := Request.dword r
    let die := BitVec.ofNat 3 (d 0)
    d 0 ≤ 7 →
    (d 4 = 0 → exec (.raceRing r) s = .next (answered (s.setDie die { s.die die with race := none, raced := [] }) r 0 [])) ∧
    (d 4 = 1 → d 1 ≤ 63 → d 2 % 64 = 0 → d 2 < 2 ^ 48 → (∃ j, 4 ≤ j ∧ j ≤ 16 ∧ d 3 = 2 ^ j) → (s.ctx (BitVec.ofNat 6 (d 1))).state = 1 →
      ∀ v, s.hubWalk die (BitVec.ofNat 6 (d 1)) (d 2) = some v →
      let w := (v.setDie die { v.die die with race := none, raced := [] }).statusWrite die (BitVec.ofNat 6 (d 1)) 0 (d 2) (List.replicate 8 0)
      exec (.raceRing r) s = .next (answered (w.2.setDie die { w.2.die die with
        race := if w.1 then some { ctx := BitVec.ofNat 6 (d 1), base := d 2, len := d 3 } else none, raced := [] }) r 0 [])))

namespace Sys2Proof.Claims

/-- An event of a class in a die's log, with its unit, sub-unit, count and address, its context where it has one (R348). -/
def event (s : State) (d : BitVec 3) (cls : Nat) (unit sub count addr : Nat) (ctx : Option (BitVec 6) := none) : State :=
  s.logEvent d cls ctx unit sub count addr
/-- The score of a row of device memory. -/
def scoreOf (s : State) (row : Nat) : Nat := Sparse.get 0 s.scores row
/-- A core's unit of SRAM is poisoned, its value kept. -/
def spoiled (t : Sparse Unit8) (i : Nat) : Sparse Unit8 := Sparse.set t i { val := (unitAt t i).val, pois := true }
/-- The channel of a line's address, 0 to 31 (R350). -/
def chanOf (pa : Nat) : Nat := Config.channelOf (pa / 64) % 32
/-- A die's logs are as in a state that has just had an event: the log, and what is accepted to be written. -/
def SaysEvent (t u : State) : Prop := ∀ e : BitVec 3, (t.die e).events = (u.die e).events ∧ (t.die e).acceptq = (u.die e).acceptq
/-- The context of a slot's block. -/
def ctxOfSlot (s : State) (c : CoreId) (k : BitVec 4) : Option (BitVec 6) := (s.blockOf c (s.slot c k)).map fun b => b.ctx
/-- A fenced core: nothing in cog 0. -/
def CoreFenced (t : State) (c : CoreId) : Prop := (t.core c).fenced = true ∧ (t.core c).cog0.recs = [] ∧ (t.core c).table = []
/-- A held die: no record in any of its runs. -/
def DieHeld (t : State) (d : BitVec 3) : Prop :=
  (t.die d).held = true ∧ (t.die d).cog2.recs = [] ∧ (∀ c : CoreId, c.die = d → (t.core c).cog0.recs = []) ∧
    ∀ k : Nat, k / 64 = d.toNat → (t.cluster k).cog1.recs = []
/-- A launch has ended with a cause where a block of it that meets a test, not boot state's, is bound on one of some cores. -/
def LaunchesEnd (s t : State) (cores : List Nat) (cause : Byte) (test : Block → Prop := fun _ => True) : Prop :=
  ∀ k ∈ cores, ∀ m b, Sparse.find (Sparse.get ({} : Core) s.cores k).table m = some b → b.boot = false → test b →
    ∀ l, Sparse.find t.queues b.queue.toNat = some l → ∀ x ∈ l.launches, x.n % 2 ^ 24 = b.seq.toNat →
      x.ended ≠ none ∧ ((∀ l0, Sparse.find s.queues b.queue.toNat = some l0 → ∀ y ∈ l0.launches, y.n = x.n → y.ended = none) →
        x.ended = some cause)

end Sys2Proof.Claims

/-- A corrected error changes no value; in HBM its row is on the hot list with its score raised by 16, to 255 at most, and with an event of
class 0x01 when it joins. An uncorrectable one poisons the line and raises the score to 255 (class 0x02), and its row is counted for the
channel; poisons the unit of SRAM (in a group in cache mode the line that it holds, if it holds one, with class 0x02: which one is free, log 72), the register or the record, each of
which keeps its value (class 0x03, with the context of a register's or a record's block); drops a TLB entry; removes a record whose key or context cannot be read,
ending launches with cause 0x06 (class 0x04); fences a core (its launches end with cause 0x06, its blocks are
closed at once, log 54: DEDUCED, its cog 0 is empty), a cluster with all
its cores and its cog 1, or holds the die with all its runs empty. -/
def Obligations.ErrorsSpoilOrFence : Prop :=
  (∀ (s : State) (pa : Nat), pa < 2 ^ 40 → ∃ t, exec (.correctedError (.line pa)) s = .next t ∧ t.mem = s.mem ∧ t.cores = s.cores ∧
    t.poisLines = s.poisLines ∧ scoreOf t (rowKey pa) = min 255 (scoreOf s (rowKey pa) + 16) ∧
    Sparse.find t.hot (rowKey pa) = some (s.die (homeDie pa)).clock ∧
    (∀ x, Sparse.find s.hot (rowKey pa) = some x → t.dies = s.dies) ∧
    (Sparse.find s.hot (rowKey pa) = none → t.dies = (event s (homeDie pa) 0x01 (chanOf pa) 0 0 pa).dies)) ∧
  (∀ (s : State) (e : ErrSite), (∀ pa, e ≠ .line pa) → exec (.correctedError e) s = .next s) ∧
  (∀ (s : State) (pa : Nat), pa < 2 ^ 40 → ∃ t, exec (.uncorrectableError (.line pa)) s = .next t ∧ t.mem = s.mem ∧ pa / 64 ∈ t.poisLines ∧
    (∀ l ∈ s.poisLines, l ∈ t.poisLines) ∧ (∀ l ∈ t.poisLines, l = pa / 64 ∨ l ∈ s.poisLines) ∧ scoreOf t (rowKey pa) = 255 ∧
    Sparse.find t.hot (rowKey pa) = (Sparse.find s.hot (rowKey pa)).map (fun _ => (s.die (homeDie pa)).clock) ∧
    ∃ l, (∀ x, x ∈ l ↔ x = (chanOf pa, rowKey pa, (s.die (homeDie pa)).clock) ∨
        (x ∈ (s.die (homeDie pa)).badRows ∧ ¬ (x.1 = chanOf pa ∧ x.2.1 = rowKey pa))) ∧
      t.dies = (event (s.setDie (homeDie pa) { s.die (homeDie pa) with badRows := l }) (homeDie pa) 0x02 (chanOf pa) 0 0 pa).dies) ∧
  (∀ (s : State) (c : CoreId) (i : Nat), i < 24576 → exec (.uncorrectableError (.scratch c i)) s =
    .next (event (s.setCore c { s.core c with scratch := spoiled (s.core c).scratch i }) c.die 0x03 c.pos 0 0 0)) ∧
  (∀ (s : State) (c : CoreId) (i : Nat), i < 98304 →
    let e := Instr.uncorrectableError (.slab c i)
    let bad := (i / 8192, (s.die c.die).clock) :: (s.slab c).badUnits
    let v : State := { s.setSlab c { s.slab c with badUnits := bad } with seqno := s.seqno + 1 }
    ((s.slab c).mode (i / 8192) ≠ some 0 → exec e s = .next (event (s.setSlab c { s.slab c with
      badUnits := bad, units := spoiled (s.slab c).units i }) c.die 0x03 c.pos (i / 8192) 0 0)) ∧
    ((s.slab c).mode (i / 8192) = some 0 → Config.cachedLine c.key i s.seqno = none → exec e s = .next v) ∧
    (∀ n, (s.slab c).mode (i / 8192) = some 0 → Config.cachedLine c.key i s.seqno = some n →
      let line := n % 2 ^ 34
      ∃ l, (∀ x, x ∈ l ↔ x = line ∨ x ∈ s.poisLines) ∧
        exec e s = .next (event { v with poisLines := l } (homeDie (64 * line)) 0x02 (chanOf (64 * line)) 0 0 (64 * line)))) ∧
  (∀ (s : State) (c : CoreId) (x : BitVec 10), ∃ t, exec (.uncorrectableError (.store c x)) s = .next t ∧
    t.dies = (event s c.die 0x03 c.pos 0 0 0).dies ∧ (t.slab c).seq.store = (s.slab c).seq.store ∧
    ∀ y, y ∈ (t.slab c).seq.storePois ↔ y = x.toNat ∨ y ∈ (s.slab c).seq.storePois) ∧
  (∀ (s : State) (c : CoreId) (n : BitVec 5) (row : BitVec 4), ∃ t, exec (.uncorrectableError (.tile c n row)) s = .next t ∧
    t.dies = (event s c.die 0x03 c.pos 0 0 0).dies ∧ ((t.core c).tile n.toNat).val = ((s.core c).tile n.toNat).val ∧
    ∀ j, j < 16 → ((t.core c).tile n.toNat).pois.getLsbD j = (((s.core c).tile n.toNat).pois.getLsbD j || decide (j = row.toNat))) ∧
  (∀ (s : State) (c : CoreId) (k : BitVec 4) (d : GIx), d.toNat < 60 → d ≠ 0 → ∃ t, exec (.uncorrectableError (.reg c k .g d)) s = .next t ∧
    (t.slot c k).g = (s.slot c k).g.set d.toNat { (s.slot c k).g[d.toNat] with pois := true } ∧
    t.dies = (event s c.die 0x03 c.pos 0 0 0 (ctxOfSlot s c k)).dies) ∧
  (∀ (s : State) (c : CoreId) (k : BitVec 4) (i : Fin 32), ∃ t, exec (.uncorrectableError (.reg c k .v (BitVec.ofNat 6 i))) s = .next t ∧
    (t.slot c k).v = (s.slot c k).v.set i { (s.slot c k).v[i] with pois := true } ∧
    t.dies = (event s c.die 0x03 c.pos 0 0 0 (ctxOfSlot s c k)).dies) ∧
  (∀ (s : State) (c : CoreId) (k : BitVec 4) (i : Fin 8), i ≠ 0 →
    (∃ t, exec (.uncorrectableError (.reg c k .p (BitVec.ofNat 6 i))) s = .next t ∧
      (t.slot c k).p = (s.slot c k).p.set i { (s.slot c k).p[i] with pois := true } ∧
      t.dies = (event s c.die 0x03 c.pos 0 0 0 (ctxOfSlot s c k)).dies) ∧
    ∃ t, exec (.uncorrectableError (.reg c k .m (BitVec.ofNat 6 i))) s = .next t ∧
      (t.slot c k).m = (s.slot c k).m.set i { (s.slot c k).m[i] with pois := true } ∧
      t.dies = (event s c.die 0x03 c.pos 0 0 0 (ctxOfSlot s c k)).dies) ∧
  (∀ (s : State) (l : LevelId) (n : Nat) (r : Rec), (s.run l).recs[n]? = some r → (s.run l).recs.Pairwise (fun a b => a.key < b.key) →
    (∃ t, exec (.uncorrectableError (.record l n true true)) s = .next t ∧ (t.run l).recs = (s.run l).recs.set n { r with pois := true } ∧
      SaysEvent t (event s (levelDie l) 0x03 (match l with | .cog0 c => c.pos | .cog1 _ m => m.toNat | .cog2 _ => 0) 0 0 0 (some r.ctx))) ∧
    ∀ ko co, (ko && co) = false → ∃ t, exec (.uncorrectableError (.record l n ko co)) s = .next t ∧
      (t.run l).recs = (s.run l).recs.eraseIdx n ∧
      SaysEvent t (event s (levelDie l) 0x04 (match l with | .cog0 c => c.pos | .cog1 _ m => m.toNat | .cog2 _ => 0) 0 1 0
        (if co then some r.ctx else none)) ∧
      LaunchesEnd s t ((s.cores.map Prod.fst).filter fun k => decide (k / 1024 = (levelDie l).toNat)) 0x06
        (fun b => co = true → b.ctx = r.ctx)) ∧
  (∀ (s : State) (c : CoreId) (n : Nat), n < (s.cluster (CoreId.clusterKey c)).tlb.length → exec (.uncorrectableError (.tlb c n)) s =
    .next (s.setCluster (CoreId.clusterKey c) { s.cluster (CoreId.clusterKey c) with
      tlb := (s.cluster (CoreId.clusterKey c)).tlb.eraseIdx n })) ∧
  (∀ (s : State) (c : CoreId), (s.core c).fenced = false → ∃ t, exec (.uncorrectableError (.core c)) s = .next t ∧ CoreFenced t c ∧
    LaunchesEnd s t [c.key] 0x06) ∧
  (∀ (s : State) (d : BitVec 3) (cl : BitVec 6), (s.cluster (clusterKey d cl.toNat)).fenced = false →
    ∃ t, exec (.uncorrectableError (.cluster d cl)) s = .next t ∧ (t.cluster (clusterKey d cl.toNat)).fenced = true ∧
      (t.cluster (clusterKey d cl.toNat)).cog1.recs = [] ∧
      ∀ c : CoreId, c.die = d → CoreId.clusterKey c = clusterKey d cl.toNat → CoreFenced t c) ∧
  (∀ (s : State) (d : BitVec 3), (s.die d).held = false → ∃ t, exec (.uncorrectableError (.die d)) s = .next t ∧ DieHeld t d ∧
    LaunchesEnd s t ((s.cores.map Prod.fst).filter fun k => decide (k / 1024 = d.toNat)) 0x06)

/-- A channel after a failed training or errors in more than 16 rows within a second, a bank group after 4 uncorrectable units within a second,
and a spoke after 64 replays or a failed retraining become fenced, with an event of class 0x08, 0x09 or 0x07; a bank group in scratch or compute
mode ends launches with cause 0x08 (log 52: DEDUCED). A replay is counted, below 64. A change of routes takes the peer spokes that are not fenced:
it begins, and is done once no record that a peer has accepted from the die is still to be applied (log 80: DEDUCED). A patrol read of a
line whose row can be opened (log 73) with a corrected error keeps the line's counter for a write-back, and with an uncorrectable one poisons the line; a unit of a group in scratch
mode, or in compute mode with an idle sequencer, is read too; the write-back counts as a write only if the counter is unchanged. A row leaves the
hot list 7 days after its last error; a score loses 1 for each day. A row whose score has reached 128 takes one of the 8 spare rows of its bank (its score
starts again, log 55: DEDUCED) with an event of class 0x0A, and where none is left one of class 0x0B is written; its bytes and poison stay. -/
def Sys2Proof.Claims.FencesScrubsAndRetirement : Prop :=
  (∀ (s : State) (d : BitVec 3) (ch : BitVec 5) (training : Bool), ch.toNat ∉ (s.die d).badChannels →
    (training = true ∨ 16 < ((s.die d).badRows.filter fun b => decide (b.1 = ch.toNat ∧ (s.die d).clock < b.2.2 + 3000000000)).length) → ∃ l, ch.toNat ∈ l ∧
    (∀ x ∈ l, x = ch.toNat ∨ x ∈ (s.die d).badChannels) ∧ (∀ x ∈ (s.die d).badChannels, x ∈ l) ∧
    exec (.hbmChannelFence d ⟨ch, training⟩) s = .next (event (s.setDie d { s.die d with badChannels := l }) d 0x08 ch.toNat 0 0 0)) ∧
  (∀ (s : State) (c : CoreId) (g : BitVec 4), g.toNat < 12 → g.toNat ∉ (s.slab c).fenced →
    4 ≤ ((s.slab c).badUnits.filter fun b => decide (b.1 = g.toNat ∧ (s.die c.die).clock < b.2 + 3000000000)).length →
    ∃ t, exec (.bankGroupFence c g) s = .next t ∧ t.dies = (event s c.die 0x09 c.pos g.toNat 0 0).dies ∧
    g.toNat ∈ (t.slab c).fenced ∧ (t.slab c).units = (s.slab c).units ∧ t.mem = s.mem ∧
    ((s.slab c).mode g.toNat = some 0 → t.queues = s.queues ∧ t.cores = s.cores) ∧
    ((s.slab c).mode g.toNat ≠ some 0 → LaunchesEnd s t [c.key] 0x08 fun b =>
      (s.ctx b.ctx).first ≤ g.toNat ∧ g.toNat < (s.ctx b.ctx).first + (s.ctx b.ctx).count)) ∧
  (∀ (s : State) (sp : BitVec 5) (retraining : Bool), (s.spoke sp.toNat).fenced = false →
    (retraining = true ∨ 64 ≤ (s.spoke sp.toNat).replays → exec (.spokeFence ⟨sp, retraining⟩) s = .next (event (s.setSpoke sp.toNat { s.spoke sp.toNat with fenced := true })
      (BitVec.ofNat 3 (sp.toNat / 4)) 0x07 sp.toNat 0 0 0)) ∧
    ((s.spoke sp.toNat).cxl = false → (s.spoke sp.toNat).replays < 64 → exec (.flitReplay sp) s =
      .next (s.setSpoke sp.toNat { s.spoke sp.toNat with replays := (s.spoke sp.toNat).replays + 1 }))) ∧
  (∀ (s : State) (d : BitVec 3), (s.die d).held = false → ∃ r : BitVec 4,
    (∀ k, k < 4 → r.getLsbD k = (!(s.spoke (4 * d.toNat + k)).fenced && !(s.spoke (4 * d.toNat + k)).cxl)) ∧
    ((s.die d).routing = none → exec (.routeChange d) s =
      .next (if (s.die d).routes = r then s else s.setDie d { s.die d with routing := some r })) ∧
    ((s.die d).routing ≠ none → exec (.routeChange d) s =
      .next (if ∃ a ∈ s.peerq, a.r.sdie = d then s else s.setDie d { s.die d with routes := r, routing := none }))) ∧
  (∀ (s : State) (pa : Nat) (e : BitVec 2), pa < 2 ^ 40 → (s.die (homeDie pa)).held = false →
    ∀ v, s.openRow (pa / 64) s.seqno = some v →
    (e = 0 → exec (.patrolScrubRead (.line pa) e) s = .next v) ∧
    (e = 1 → ∃ t u, exec (.patrolScrubRead (.line pa) e) s = .next t ∧ exec (.correctedError (.line pa)) v = .next u ∧
      t = { u with scrubs := s.scrubs ++ [(pa / 64, Sparse.get 0 s.wseq (pa / 64))] }) ∧
    (2 ≤ e.toNat → exec (.patrolScrubRead (.line pa) e) s = exec (.uncorrectableError (.line pa)) v)) ∧
  (∀ (s : State) (c : CoreId) (i : Nat) (e : BitVec 2), i < 98304 → (s.die c.die).held = false →
    ((s.slab c).mode (i / 8192) = some 1 ∨ ((s.slab c).mode (i / 8192) = some 2 ∧ (s.slab c).seq.st = .idle)) →
    (e.toNat < 2 → exec (.patrolScrubRead (.slab c i) e) s = .next s) ∧
    (2 ≤ e.toNat → exec (.patrolScrubRead (.slab c i) e) s = exec (.uncorrectableError (.slab c i)) s)) ∧
  (∀ (s : State) (line n : Nat) (pre post : List (Nat × Nat)), s.scrubs = pre ++ (line, n) :: post → (∀ x ∈ pre, x.1 ≠ line) →
    (Sparse.get 0 s.wseq line ≠ n → exec (.scrubWriteback line) s = .next { s with scrubs := pre ++ post }) ∧
    (∀ v, Sparse.get 0 s.wseq line = n → s.openRow line s.seqno = some v →
      ∃ w, exec (.scrubWriteback line) s = .next { v with scrubs := pre ++ post, wseq := w } ∧
        (∀ l, l ≠ line → Sparse.get 0 w l = Sparse.get 0 s.wseq l) ∧ Sparse.get 0 w line = n + 1)) ∧
  (∀ (s : State) (row t : Nat), Sparse.find s.hot row = some t → t + 7 * 86400 * 3000000000 ≤ (s.die (rowDie row)).clock →
    exec (.hotListExpiry row) s = .next { s with hot := Sparse.del s.hot row }) ∧
  (∀ (s : State) (row : Nat), 0 < scoreOf s row → Sparse.get 0 s.decays row < (s.die (rowDie row)).clock / (86400 * 3000000000) →
    ∃ t, exec (.retirementScoreDecay row) s = .next t ∧ scoreOf t row = scoreOf s row - 1 ∧
      Sparse.get 0 t.decays row = Sparse.get 0 s.decays row + 1 ∧
      (∀ r, r ≠ row → scoreOf t r = scoreOf s r ∧ Sparse.get 0 t.decays r = Sparse.get 0 s.decays r) ∧ t.mem = s.mem) ∧
  (∀ (s : State) (row : Nat), (s.die (rowDie row)).clock / (86400 * 3000000000) ≤ Sparse.get 0 s.decays row →
    exec (.retirementScoreDecay row) s = .next s) ∧
  (∀ (s : State) (row : Nat), 128 ≤ scoreOf s row → row ∉ s.noSpare →
    let bank := 2 ^ 32 * rowStack row + Config.bankOf (row % 2 ^ 32) % 2 ^ 32
    let line := Sparse.get 0 s.rowPages row
    let page := 64 * line / 4096 * 4096
    let n := Sparse.get 0 s.spares bank
    (n < 8 → ∃ t, exec (.rowRetire row) s = .next t ∧ Sparse.get 0 t.spares bank = n + 1 ∧ scoreOf t row = 0 ∧ Sparse.find t.hot row = none ∧ t.mem = s.mem ∧ t.poisLines = s.poisLines ∧
      t.dies = (event s (rowDie row) 0x0A (chanOf (64 * line)) 0 0 page).dies) ∧
    (8 ≤ n → ∃ t, exec (.rowRetire row) s = .next t ∧ t.spares = s.spares ∧ row ∈ t.noSpare ∧ t.mem = s.mem ∧
      t.dies = (event s (rowDie row) 0x0B (chanOf (64 * line)) 0 0 page).dies))

/-- A power update gives each die that is not held its share: every core's next `BUDGET` is the share, halved while the compute die is hot (a
share of 0 counting as 46), and each stack its next ACTLIM; a stack's window brings it in and starts its count again. An access that opens a row counts,
and waits at the limit, once one has come (which ones open a row is free, log 73: DESIGN CHOICE). Clocks stop only on a die
without a block, a record in cog 0 or cog 1 or a command, and start again for a kick or bind. `THERM` is set at 105 degrees with an event of
class 0x11 and cleared at 100 with one of class 0x12. A compute die above 105 degrees halves every core's next `BUDGET` until it falls to 100. At
115 degrees, or when coolant is lost, the die is held. -/
def Sys2Proof.Claims.PowerAndHeat : Prop :=
  (∀ (s : State) (bs : List Byte) (ls : List Nat), ∃ t, exec (.powerBudgetUpdate bs ls) s = .next t ∧ t.mem = s.mem ∧ t.slabs = s.slabs ∧
    ∀ d : BitVec 3, ((s.die d).held = true → t.die d = s.die d) ∧ ((s.die d).held = false →
      (∀ b, bs[d.toNat]? = some b → (t.die d).share = b ∧ ∀ c : CoreId, c.die = d →
        (t.core c).budgetNext = some (if (s.die d).hotDie then (if b = 0 then 23 else BitVec.ofNat 8 (b.toNat / 2)) else b)) ∧
      (bs[d.toNat]? = none → ∀ c : CoreId, c.die = d → t.core c = s.core c) ∧
      (t.die d).actNext[0] = ls[2 * d.toNat]?.or (s.die d).actNext[0] ∧ (t.die d).actNext[1] = ls[2 * d.toNat + 1]?.or (s.die d).actNext[1])) ∧
  (∀ (s : State) (d : BitVec 3) (b : Bool), let i : Fin 2 := if b then 1 else 0
    (s.die d).actWin[i] < ((s.die d).clock + 1) / 3000 → ∃ t, exec (.actlimWindow d b) s = .next t ∧ (t.die d).actUsed[i] = 0 ∧
      (t.die d).actNext[i] = none ∧ (t.die d).actlim[i] = ((s.die d).actNext[i]).or (s.die d).actlim[i] ∧
      exec (.actlimWindow d b) t = .next t) ∧
  (∀ (s : State) (line moment : Nat), let d := homeDie (64 * line)
    let i : Fin 2 := if line / 512 % 2 = 1 then 1 else 0
    let opens := place (64 * line) = 0 ∧ Config.cached line moment = false ∧ Config.activates line moment = true
    (¬opens ∨ (s.die d).actlim[i] = none → s.openRow line moment = some s) ∧
    (∀ lim, opens → (s.die d).actlim[i] = some lim → (lim ≤ (s.die d).actUsed[i] → s.openRow line moment = none) ∧
      ((s.die d).actUsed[i] < lim → s.openRow line moment =
        some (s.setDie d { s.die d with actUsed := (s.die d).actUsed.set i ((s.die d).actUsed[i] + 1) })))) ∧
  (∀ (s : State) (d : BitVec 3), (s.die d).held = false → (s.die d).boot = false → (s.die d).wake = false → (s.die d).stopped = false →
    ((∀ k x, (k, x) ∈ s.cores → k / 1024 = d.toNat → x.table = [] ∧ x.cog0.recs = [] ∧ x.cmds = []) →
     (∀ k x, (k, x) ∈ s.clusters → k / 64 = d.toNat → x.cog1.recs = []) →
      exec (.dieClockStop d) s = .next (s.setDie d { s.die d with stopped := true })) ∧
    ((∃ k x, (k, x) ∈ s.cores ∧ k / 1024 = d.toNat ∧ (x.table ≠ [] ∨ x.cog0.recs ≠ [] ∨ x.cmds ≠ [])) ∨
      (∃ k x, (k, x) ∈ s.clusters ∧ k / 64 = d.toNat ∧ x.cog1.recs ≠ []) → exec (.dieClockStop d) s = .next s)) ∧
  (∀ (s : State) (d : BitVec 3), (s.die d).stopped = true → (s.die d).wake = true →
    exec (.dieClockRestart d) s = .next (s.setDie d { s.die d with stopped := false, wake := false })) ∧
  (∀ (s : State) (d : BitVec 3) (tj : Nat), (s.die d).held = false → tj < 256 →
    let u := s.setDie d { s.die d with tj := BitVec.ofNat 8 tj }
    let v (b : Bool) := s.setDie d { s.die d with tj := BitVec.ofNat 8 tj, therm := b }
    exec (.tjSample d tj) s = .next (
      if (s.die d).therm = false ∧ 105 ≤ tj then event (v true) d 0x11 0 0 0 0
      else if (s.die d).therm = true ∧ tj ≤ 100 then event (v false) d 0x12 0 0 0 0 else u)) ∧
  (∀ (s : State) (d : BitVec 3) (tj : Nat), (s.die d).held = false → ∃ t, exec (.computeDieThermal d tj) s = .next t ∧
    (t.die d).hotDie = (decide (105 < tj) || ((s.die d).hotDie && decide (100 < tj))) ∧
    ((s.die d).hotDie = false → 105 < tj → ∀ c : CoreId, c.die = d →
      (t.core c).budgetNext = some (if (s.die d).share = 0 then 23 else BitVec.ofNat 8 ((s.die d).share.toNat / 2))) ∧
    ((s.die d).hotDie = true → tj ≤ 100 → ∀ c : CoreId, c.die = d → (t.core c).budgetNext = some (s.die d).share)) ∧
  (∀ (s : State) (d : BitVec 3) (tj : Nat), (s.die d).held = false →
    (115 ≤ tj → ∃ t, exec (.thermalTrip d tj) s = .next t ∧ exec (.coolantLoss d) s = .next t ∧ DieHeld t d ∧
      LaunchesEnd s t ((s.cores.map Prod.fst).filter fun k => decide (k / 1024 = d.toNat)) 0x06) ∧
    (tj < 115 → exec (.thermalTrip d tj) s = .next s))

namespace Sys2Proof.Claims

/-- An image of the flash, and a field of one (R362). -/
def flashImage (x : Root) (b : BitVec 1) (typ : Nat) : List Byte := (x.flash[3 * b.toNat + typ - 1]?).getD []
def imgNum (i : List Byte) (off n : Nat) : Nat := leNat ((i.drop off).take n)
/-- The body of an image, and its digest: over every byte but its signature (R362). -/
def imgBody (i : List Byte) : List Byte := (i.drop 3096).take (imgNum i 12 4)
def imgDigest (i : List Byte) : BitVec 512 := Config.shake256 (i.take 1816 ++ imgBody i)
/-- An image is valid as one of a type (R362): its layout, the fused key hash, the signature, the type, the version. -/
abbrev ImageOk (x : Root) (b : BitVec 1) (typ : Nat) : Prop :=
  let i := flashImage x b typ
  let key := (i.drop 16).take 1793
  3096 + imgNum i 12 4 ≤ i.length ∧ imgNum i 0 4 = 0x56464D31 ∧ imgNum i 1809 7 = 0 ∧ Config.shake256 key = x.vkh ∧
    Config.verifies (BitVec.ofNat 14344 (leNat key)) (imgDigest i) (BitVec.ofNat 10240 (imgNum i 1816 1280)) = true ∧ imgNum i 4 4 = typ ∧
    x.counters[typ - 1]?.getD 0 ≤ imgNum i 8 4 ∧ imgNum i 8 4 ≤ 31
/-- Every image of a bundle is valid (R363). -/
abbrev BundleOk (x : Root) (b : BitVec 1) : Prop := ImageOk x b 1 ∧ ImageOk x b 2 ∧ ImageOk x b 3
/-- The failing images that the management controller reads are those of the bundles tried (R363). -/
abbrev FailsTold (x y : Root) : Prop :=
  ∀ (b : BitVec 1) typ, (∃ k, (b.toNat, typ, k) ∈ y.fails) ↔ 1 ≤ typ ∧ typ ≤ 3 ∧ ¬ ImageOk x b typ ∧ (b = 1 → ¬ BundleOk x 0)
/-- The core at a position is enabled (R370): it lies in the mesh, its fuse bit is set, no entry of the list in force names it. -/
abbrev OnMap (s : State) (l : List Word) (d : BitVec 3) (p : Nat) : Prop :=
  p < 1024 ∧ p % 32 < s.meshW ∧ p / 32 < s.meshH ∧ (s.die d).fuse.getLsbD p = true ∧
    ∀ w ∈ l, ¬ (w.extractLsb' 0 3 = d ∧ w.getLsbD 8 = false ∧ (w.extractLsb' 16 10).toNat = p)
/-- A position is the boot corner of its die (R370). -/
abbrev IsCorner (t : State) (l : List Word) (d : BitVec 3) (p : Nat) : Prop :=
  ∀ q, OnMap t l d q → p % 32 + p / 32 < q % 32 + q / 32 ∨ (p % 32 + p / 32 = q % 32 + q / 32 ∧ p / 32 ≤ q / 32)
/-- The core at a position starts boot state (R372). -/
abbrev Boots (t : State) (d : BitVec 3) (p : Nat) (l : List Word) : Prop :=
  let k := Sparse.get ({} : Core) t.cores (1024 * d.toNat + p)
  k.slots[0].st = .running ∧ k.slots[0].pc.toNat = Config.bootEntry % 2 ^ 48 ∧ k.slots[0].gen = 0 ∧
    k.slots[0].g[1].val.toNat = Config.bootParams + 0x1000 * d.toNat ∧
    (IsCorner t l d p → k.slots[0].g[2].val = 1) ∧ (¬ IsCorner t l d p → k.slots[0].g[2].val = 0) ∧
    (∀ j : Fin 64, j ≠ 1 → j ≠ 2 → k.slots[0].g[j].val = 0) ∧ (∀ j : Fin 16, j ≠ 0 → k.slots[j].st = .unbound) ∧ k.cog0.recs = [] ∧
    Sparse.find k.bars 0 = some { x1 := BitVec.ofNat 5 (t.meshW - 1), y1 := BitVec.ofNat 5 (t.meshH - 1) }
/-- The distance of a position from the router of spoke k (R329, R341). -/
def routerDist (k p : Nat) : Nat :=
  let x : Nat := if k < 2 then 0 else 31
  let y : Nat := if k % 2 = 0 then 8 else 23
  (p % 32 - x) + (x - p % 32) + (p / 32 - y) + (y - p / 32)
/-- The enabled position nearest a router that is not yet chosen; ties go to the lower y and then the lower x (R341). -/
abbrev Nearest (s : State) (d : BitVec 3) (k : Nat) (chosen : List Nat) (p : Nat) : Prop :=
  OnMap s s.root.applied d p ∧ p ∉ chosen ∧ ∀ q, OnMap s s.root.applied d q → q ∉ chosen → routerDist k p < routerDist k q ∨
    (routerDist k p = routerDist k q ∧ p ≤ q)
/-- The gateway cores of a spoke (R341). -/
abbrev GatesOf (s : State) (d : BitVec 3) (k : Nat) (chosen l : List Nat) : Prop :=
  (l = [] ∧ ∀ q, OnMap s s.root.applied d q → q ∈ chosen) ∨
  (∃ a, l = [a] ∧ Nearest s d k chosen a ∧ ∀ q, OnMap s s.root.applied d q → q = a ∨ q ∈ chosen) ∨
  ∃ a b, l = [a, b] ∧ Nearest s d k chosen a ∧ Nearest s d k (a :: chosen) b
/-- The cores of a die that boot state runs on. -/
abbrev BootsOn (s : State) (d : BitVec 3) (p : Nat) : Prop :=
  OnMap s s.root.applied d p ∧ (s.core (CoreId.ofKey (1024 * d.toNat + p))).fenced = false

end Sys2Proof.Claims

/-- A reset boots bundle A where all its images are valid, else B where B's are; the failing images are told. The identity key is derived and the
device secret closed; M0 to M3 are extended, M3 by the hash of every die's fuse map and the list; the other measurement registers are zero, no
claim is left, contexts are free and queues gone; the hub firmware stands in every die's firmware pages; spokes and groups are off by the fuses. On
every die boot state begins: slot 0 of each enabled core runs at the entry address with the parameter block in g1 and the corner's mark in g2,
barrier b0 over the mesh. With neither bundle valid the device is in recovery and nothing starts. Once every slot 0 of a die has exited, its cores
are drained one after another; once no record of boot state is left, its end numbers the cores by the map, frees them, chooses and reports the
gateway cores, and with no die in boot state the spokes have trained and the device, without a held die, is ready. (Entry and parameters, the spokes' personality and fuses before
manufacture: logs 9, 2, 3: DESIGN CHOICE; what survives a reset, the ready point, boot state as context 0: logs 28, 60, 15: DEDUCED.) -/
def Obligations.ResetAndBoot : Prop :=
  (∀ (s : State) (b : BitVec 1), BundleOk s.root b → (b = 1 → ¬ BundleOk s.root 0) → ∃ t, exec (.deviceReset b) s = .next t ∧
    FailsTold s.root t.root ∧
    (let y := s.root
     let x : Root := {
        counters := y.counters, flash := y.flash, disable := y.disable, applied := y.disable, boots := y.boots + 1, vkh := y.vkh, uds := y.uds
        udsOpen := false, identity := Config.falconPublic (Config.shake256 (le 32 y.uds.toNat)), bundle := b, fails := t.root.fails }
     let maps := (s.dies.toList.map fun d => le 1666 d.fuse.toNat).flatten ++ (y.disable.map fun w => le 8 w.toNat).flatten
     t.root = measured (measured (measured (measured x 0 (imgDigest (flashImage y b 1))) 2 (imgDigest (flashImage y b 3))) 3
       (Config.shake256 maps)) 1 (imgDigest (flashImage y b 2))) ∧
    t.ctxs = State.reset.ctxs ∧ t.queues = [] ∧ t.saves = [] ∧ t.msgs = [] ∧ t.transit = [] ∧ t.poisLines = s.poisLines ∧
    (∀ a, a < 0xFFC0000000 → t.readMem a 1 = s.readMem a 1) ∧
    (∀ n, n < 32 → ((t.spoke n).fenced = !(s.die (BitVec.ofNat 3 (n / 4))).fuse.getLsbD (13312 + n % 4)) ∧
      ((t.spoke n).cxl = (decide (n % 4 = 0) && Config.boardCxl (imgBody (flashImage s.root b 3)) (n / 4)))) ∧
    (∀ (c : CoreId) g, g < 12 → (g ∈ (t.slab c).fenced ↔ (s.die c.die).fuse.getLsbD (1024 + 12 * c.pos + g) = false ∨
      ∃ w ∈ s.root.disable, w.extractLsb' 0 3 = c.die ∧ w.getLsbD 8 = true ∧ (w.extractLsb' 16 10).toNat = c.pos ∧
        (w.extractLsb' 32 4).toNat = g)) ∧
    ∀ d : BitVec 3, (t.die d).boot = true ∧ (t.die d).held = false ∧ (t.die d).fuse = (s.die d).fuse ∧ (t.die d).clock = 0 ∧
      (∀ i (x : Byte), (imgBody (flashImage s.root b 2))[i]? = some x → i < 4096 * 764 →
        t.readMem (0xFFC0000000 + 0x10000 * (260 + i / 4096) + 0x1000 * d.toNat + i % 4096) 1 = x.toNat) ∧
      (s.meshW ≤ 32 → s.meshH ≤ 32 → ((List.range 6).map fun j => t.readMem (Config.bootParams + 0x1000 * d.toNat + 8 * j) 8) =
        [s.meshW, s.meshH, 0xFFC4000000 + 0x1000 * d.toNat, 0xFFC4010000 + 0x1000 * d.toNat, 0xFFC1030000 + 0x1000 * d.toNat, 16384]) ∧
      ∀ p, OnMap s s.root.disable d p → Boots t d p s.root.disable) ∧
  (∀ (s : State) (b : BitVec 1), BundleOk s.root 0 → b = 1 → exec (.deviceReset b) s = .next s) ∧
  (∀ (s : State) (b : BitVec 1), ¬ BundleOk s.root 0 → ¬ BundleOk s.root 1 → ∃ t, exec (.deviceReset b) s = .next t ∧ FailsTold s.root t.root ∧
    t.root.recovery = true ∧ t.root.ready = false ∧ t.root.meas = Vector.replicate 8 0 ∧ t.cores = [] ∧ t.queues = [] ∧ t.mem = s.mem) ∧
  (∀ (s : State) (d : BitVec 3) (p : Nat), let c := CoreId.ofKey (1024 * d.toNat + p)
    let b (q : Nat) : Block := Sparse.get { rec0 := 0 } (s.core (CoreId.ofKey (1024 * d.toNat + q))).table 0
    (s.die d).boot = true → (s.die d).held = false → (∀ q, BootsOn s d q → (s.slot (CoreId.ofKey (1024 * d.toNat + q)) 0).st = .exited) →
    BootsOn s d p → (∀ q, q < p → BootsOn s d q → (b q).ph = .sent) → (b p).ph ≠ .sent → ∀ ph t,
    DrainMoves s c (b p).ctx 3 none (s.blockNames c 0) (b p).ph ph t →
      exec (.bootStateEnd d) s = .next (t.setBlock c 0 { (Sparse.find (t.core c).table 0).getD { rec0 := 0 } with ph := ph })) ∧
  (∀ (s : State) (d : BitVec 3), (s.die d).boot = true → (s.die d).held = false → 0 < s.meshW → s.meshW ≤ 32 → s.meshH ≤ 32 →
    (∀ q, BootsOn s d q → (s.slot (CoreId.ofKey (1024 * d.toNat + q)) 0).st = .exited ∧
      (Sparse.get { rec0 := 0 } (s.core (CoreId.ofKey (1024 * d.toNat + q))).table 0).ph = .sent) →
    (∀ x ∈ s.transit, x.die = d → x.r.skind = 0 → x.r.ctx ≠ 0) → (∀ a ∈ s.acceptedRecs, a.r.sdie = d → a.r.skind = 0 → a.r.ctx ≠ 0) →
    let n := ((List.range 1024).filter fun p => decide (BootsOn s d p)).length
    let map (k : Nat) := s.readMem (s.readMem (Config.bootParams + 0x1000 * d.toNat + 24) 8 + 2 * k) 2
    ∃ t, exec (.bootStateEnd d) s = .next t ∧ t.mem = s.mem ∧ (t.die d).boot = false ∧
      (t.root.trained = true ↔ ∀ e : BitVec 3, e ≠ d → (s.die e).boot = false) ∧
      (t.root.ready = true ↔ ∀ e : BitVec 3, e ≠ d → (s.die e).boot = false ∧ (s.die e).held = false) ∧
      (∀ c : CoreId, c.die = d → (t.core c).table = [] ∧ (t.slot c 0).st = .unbound) ∧
      ((∀ k, k < n → map k < s.meshW * s.meshH) → (∀ k j, k < n → j < n → map k = map j → k = j) → ∀ k, k < n →
        (t.core ⟨d, BitVec.ofNat 5 (map k % s.meshW), BitVec.ofNat 5 (map k / s.meshW)⟩).lnum.toNat = k) ∧
      (∃ ps : List (List Nat), ps.length = 4 ∧
        (∀ k, k < 4 → GatesOf s d k (ps.take k).flatten (ps[k]?.getD []) ∧
          (t.spoke (4 * d.toNat + k)).gates = (ps[k]?.getD []).map fun p => CoreId.ofKey (1024 * d.toNat + p)) ∧
        t.gateReport = s.gateReport ++ (List.range 4).map fun k => (4 * d.toNat + k, (t.spoke (4 * d.toNat + k)).gates)) ∧
      ∀ k, k < 4 → (t.die d).routes.getLsbD k = (!(t.spoke (4 * d.toNat + k)).fenced && !(t.spoke (4 * d.toNat + k)).cxl))

namespace Sys2Proof.Claims

-- frames: what the fetched instructions leave as it is

/-- Every register of the slot that is not named keeps its value and its marks. -/
def RegsKept (rs : List RegId) (x y : Slot) : Prop :=
  (∀ i : Fin 64, RegId.g (BitVec.ofNat 6 i.val) ∉ rs → y.g[i] = x.g[i]) ∧ (∀ i : Fin 8, RegId.p (BitVec.ofNat 3 i.val) ∉ rs → y.p[i] = x.p[i]) ∧
  (∀ i : Fin 32, RegId.v (BitVec.ofNat 5 i.val) ∉ rs → y.v[i] = x.v[i]) ∧ (∀ i : Fin 8, RegId.m (BitVec.ofNat 3 i.val) ∉ rs → y.m[i] = x.m[i])

/-- Instructions that put a new value into a special register of the slot: FPCR (with its generator), VFMT, MDEST, TRAPVEC and the trap
registers by WRS, the generator by a conversion with stochastic rounding and by CPYRES of a command that has not yet begun. -/
def stepsGenerator : Instr → Bool
  | .wrs .. | .fcvt .. | .vcvt .. | .vqnt .. | .vdqnt .. | .vbaddq .. | .tcvt .. | .cpyres .. => true
  | _ => false
def isWrs : Instr → Bool
  | .wrs .. => true
  | _ => false
/-- TRET changes TRAPCAUSE; TRAP and BRK trap with the pc after them. -/
def isTret : Instr → Bool
  | .tret .. => true
  | _ => false
def trapsAfter : Instr → Bool
  | .trap .. | .brk .. => true
  | _ => false
/-- The end of a loop body: a LOOP with a count of zero fetches there, and a fault of that fetch has its address as the trap's pc (R115). -/
def loopEnd (pc : BitVec 48) : Instr → Option (BitVec 48)
  | .loopImm _ _ e => some (pc + 12 + (e.setWidth 48 <<< 2))
  | .loopReg _ _ e => some (pc + 12 + (e.setWidth 48 <<< 2))
  | _ => none
def takesTag : Instr → Bool
  | .ld .. | .ldro .. | .ldx .. | .ldv .. | .ldvGather .. | .atom .. | .cas .. => true
  | _ => false
/-- Instructions that may add to the hold queue. -/
def takesHold : Instr → Bool
  | .upd .. | .updx .. | .updv .. | .updvScatter .. | .tdget .. | .tupd .. => true
  | i => takesTag i
/-- Instructions that issue and hold their slot. -/
def holdsSlot : Instr → Bool
  | .drain .. | .fence .. | .tdset .. | .ringcfg .. | .tld .. | .cpy .. | .bsld .. | .dsmode .. => true
  | _ => false

/-- Instructions that write the core's scratchpad, its slab's deep scratch, its tiles, its rings, its barrier registers and its commands. -/
def writesScratch : Instr → Bool
  | .sts .. | .stsv .. | .syncinit .. | .syncadd .. => true
  | _ => false
def writesDeep : Instr → Bool
  | .std .. => true
  | _ => false
def writesTiles : Instr → Bool
  | .tzero .. | .tilecfg .. | .tilerel .. | .mma .. | .tcvt .. => true
  | _ => false
def writesRings : Instr → Bool
  | .ringdrop .. | .mma .. | .tcvt .. => true
  | _ => false
def writesBars : Instr → Bool
  | .barcfg .. | .bararr .. => true
  | _ => false
def writesSlab : Instr → Bool
  | .bsrun .. | .bsres .. | .exit .. | .dsmode .. => true
  | i => writesDeep i
/-- Instructions that may move, add or take records of the runs on their core's path. -/
def touchesRuns : Instr → Bool
  | .upd .. | .updx .. | .updv .. | .updvScatter .. | .atom .. | .cas .. | .tdget .. | .tupd .. | .drain .. | .fence .. => true
  | _ => false

/-- The operation codes of the microinstructions (R260). -/
def codeOf : MicroOp → BitVec 5
  | .mzero => 0 | .mcopy => 1 | .microMnot => 2 | .microMand => 3 | .microMor => 4 | .microMxor => 5 | .madd => 6 | .msub => 7
  | .mcmp => 8 | .msel => 9 | .mshl => 10 | .mshr => 11 | .mfadd => 12 | .mfmul => 13 | .mloop => 14 | .mend => 15

/-- The parts of a slot that other slots' instructions leave alone: all but the mark that it is to stop. -/
def unmarked (x : Slot) : Slot := { x with stop := false, stopAt := 0 }
/-- What an instruction does to another slot: BARCFG drops the phases of its register that the slots of the block have captured (R263), CPYRES
may step the generator of the slot that issued the command (R52, R254). -/
def OtherSlot (i : Instr) (s : State) (c : CoreId) (x y : Slot) : Prop :=
  unmarked y = { unmarked x with caps := y.caps, fpcr := y.fpcr } ∧
  (y.caps ≠ x.caps → ∃ gd b a, i = .barcfg gd b a ∧ c.key = s.cc.key ∧ x.blk = some (s.cs.blk.getD 0) ∧ y.caps = Sparse.del x.caps b.toNat) ∧
  (y.fpcr ≠ x.fpcr → ∃ gd a, i = .cpyres gd a ∧ c.key = s.cc.key ∧ y.fpcr.extractLsb' 0 32 = x.fpcr.extractLsb' 0 32)

/-- `n` bytes of the base image from an address, little-endian, as a fetch reads them (R84, R85). -/
def codeAt (s : State) (pa n : Nat) : Nat :=
  (List.range n).foldr (fun i v => ((s.baseWord ((pa + i) / 8)).extractLsb' (8 * ((pa + i) % 8)) 8).toNat + 256 * v) 0

end Sys2Proof.Claims

/-- For every fetched instruction (all 234) and every next state, one with its effect, a wait, a skip or a trap: no byte of the base image
and no poison of a line or a key changes; each register of the slot that the instruction does not name as a destination keeps its value,
taint, poison and pending mark; every other slot keeps everything but the mark that it is to stop (a trap may end its launch), the phases that
BARCFG drops and the generator that CPYRES steps; and the control taint is unchanged unless the instruction chooses the pc or is TCLR or TDEP of the control taint. -/
def Obligations.FrameOfRegistersAndBaseImage : Prop :=
  ∀ (i : Instr) (f : Issue) (s t : State), issueOf s i = some f → exec i s = .next t →
    (∀ a, Memory.read t.mem a = Memory.read s.mem a) ∧ t.mem = s.mem ∧ t.poisLines = s.poisLines ∧ t.poisKeys = s.poisKeys ∧ t.cur = s.cur ∧
    RegsKept f.writes s.cs t.cs ∧
    (∀ (c : CoreId) (k : BitVec 4), (c.key, k) ≠ (s.cc.key, s.cur.2) → OtherSlot i s c (s.slot c k) (t.slot c k)) ∧
    (f.ctl = false → t.cs.ctaint = s.cs.ctaint)

/-- For every fetched instruction and every next state: VFMT, MDEST and TRAPVEC change by WRS alone, FPCR by WRS and by the instructions that
may step its generator, which leave its low half; TRAPPC, TRAPCAUSE and TRAPADDR by WRS and by a trap with this very pc (TRAP and BRK: the pc after it; a LOOP's
fetch at the end of its body: that address), TRAPCAUSE also by TRET; the load tags by the tagged loads and atomics, the hold queue by them and the updates, what holds the slot by the instructions
that hold it; THR, GEN, and the block stay. -/
def Obligations.FrameOfSpecialState : Prop :=
  ∀ (i : Instr) (f : Issue) (s t : State), issueOf s i = some f → exec i s = .next t →
    let x := s.cs
    let y := t.cs
    (isWrs i = false → y.vfmt = x.vfmt ∧ y.mdest = x.mdest ∧ y.trapvec = x.trapvec ∧ y.fpcr.extractLsb' 0 32 = x.fpcr.extractLsb' 0 32) ∧
    (stepsGenerator i = false → y.fpcr = x.fpcr) ∧
    (isWrs i = false → (y.trappc ≠ x.trappc ∨ y.trapaddr ≠ x.trapaddr ∨ (isTret i = false ∧ y.trapcause ≠ x.trapcause)) →
      y.trappc = (if trapsAfter i then x.pc + 12 else x.pc).setWidth 64 ∨ y.trappc = x.pc.setWidth 64 ∨
        ∃ e, loopEnd x.pc i = some e ∧ y.trappc = e.setWidth 64) ∧
    (takesTag i = false → y.tags = x.tags) ∧ (takesHold i = false → y.hold = x.hold) ∧ (holdsSlot i = false → y.busy = x.busy) ∧
    y.thr = x.thr ∧ y.gen = x.gen ∧ y.blk = x.blk

/-- For every fetched instruction and every next state. Tiles, rings, descriptors, barrier registers and the slab change by the instructions
named for them alone. A scratchpad store that places its bytes leaves every other byte of the scratchpad as it was, and so does every
instruction that stores nothing there; the same of STD and the deep scratch. Outside boot state, no run changes by an instruction that forms no
record and drains none; a plain update, and TDGET and TUPD, change no record but those of the key words that they store to. -/
def Obligations.FrameOfSramAndCassette : Prop :=
  ∀ (i : Instr) (f : Issue) (s t : State), issueOf s i = some f → exec i s = .next t →
    let x := s.core s.cc
    let y := t.core s.cc
    (writesTiles i = false → y.tiles = x.tiles) ∧ (writesRings i = false → y.rings = x.rings) ∧ y.descs = x.descs ∧
    (writesBars i = false → y.bars = x.bars) ∧ (writesSlab i = false → t.slab s.cc = s.slab s.cc) ∧
    (writesScratch i = false → y.scratch = x.scratch) ∧
    (writesScratch i = true → ∀ w o, sramOf s i = some w → placeIn s w = some o →
      ∀ a, a < o ∨ o + w.size ≤ a → byteAt y.scratch a = byteAt x.scratch a) ∧
    (writesDeep i = true → ∀ w o, sramOf s i = some w → placeIn s w = some o →
      ∀ a, a < o ∨ o + w.size ≤ a → byteAt (t.slab s.cc).units a = byteAt (s.slab s.cc).units a) ∧
    (s.block.boot = false → touchesRuns i = false → ∀ l, (t.run l).recs = (s.run l).recs) ∧
    (s.block.boot = false → ∀ w pas scope rs, accessOf s i = some w → Placed s w pas → recordsOf s pas i = some (scope, rs) → scope = 0 →
      ∀ (l : LevelId) (r : Rec), r.key ∉ rs.map (fun x => x.key) → (r ∈ (t.run l).recs ↔ r ∈ (s.run l).recs))

/-- When the next action is the turn of a slot that has its turn, that is free and for which no trap waits, and its pc translates: the bytes
there, as many as their first word says, are decoded, and the step is `exec` of the instruction they decode to with the turn given; or an
illegal-instruction trap where they decode to none. Where a row cannot be opened for them (log 73) the turn is given and nothing issues. The same where the bytes lie on two pages, both of which translate. A translation that the
slot waited for at another pc is dropped first. (That the agenda names who moves next is the model's own, log 6; which bytes a fetch gets where the
spec is silent, log 75: DESIGN CHOICE; the cycle of a core, log 74.) -/
def Obligations.StepRunsTheDecodedInstruction : Prop :=
  ∀ (s : State) (c : CoreId) (k : BitVec 4) (rest : List Action) (pa : Nat), s.agenda = .turn c k :: rest → HasTurn s c k → GoesOn s c k → (s.slot c k).busy = none →
    (s.slot c k).epend = [] → (s.slot c k).trapcause.getLsbD 9 = false →
    let v : State := { turnGiven { s with agenda := rest } c with cur := (c, k) }
    let u := v.setDie c.die { v.die c.die with
      misses := (v.die c.die).misses.filter fun m => !decide (m.core = c ∧ m.who = k.toNat ∧ m.pc ≠ (s.slot c k).pc) }
    let len := lenBytes (BitVec.ofNat 2 (codeAt s pa 4))
    let room := 4096 - (s.slot c k).pc.toNat % 4096
    u.translate c k.toNat u.block.boot u.block.ctx ((s.slot c k).pc.setWidth 64) { x := true } = .ok pa →
    (len ≤ room →
      (u.openFetch = none → step s = .next u) ∧
      ∀ w, u.openFetch = some w → (∀ i, decode (BitVec.ofNat 160 (codeAt s pa len)) = .ok i → step s = exec i w) ∧
        (∀ e, decode (BitVec.ofNat 160 (codeAt s pa len)) = .error e → step s = .next (w.trapHere causeIllegal 0))) ∧
    (room < len → ∀ pb,
      u.translate c k.toNat u.block.boot u.block.ctx (((s.slot c k).pc + BitVec.ofNat 48 room).setWidth 64) { x := true } = .ok pb →
      let bytes := codeAt s pa room + 256 ^ room * codeAt s pb (len - room)
      (u.openFetch = none → step s = .next u) ∧
      ∀ w, u.openFetch = some w → (∀ i, decode (BitVec.ofNat 160 bytes) = .ok i → step s = exec i w) ∧
        (∀ e, decode (BitVec.ofNat 160 bytes) = .error e → step s = .next (w.trapHere causeIllegal 0)))

/-- Every well-formed fetched instruction, with every value that its fields admit, is decoded from the words of its encoding, whatever bits
follow them; and every well-formed microinstruction from its 64-bit word. The other direction: what bits decode to is well formed, and
encodes to those bits. -/
def Obligations.DecodeEncodeAgree : Prop :=
  (∀ (i : Instr) (h : Nat), i.wf = true → (fieldsOf i).isSome = true →
    decode (BitVec.ofNat 160 ((bitsOfWords (encode i)).toNat + 2 ^ (8 * instrLen i) * h)) = .ok i) ∧
  (∀ (w : BitVec 160) (i : Instr), decode w = .ok i → i.wf = true ∧ (fieldsOf i).isSome = true ∧
    (bitsOfWords (encode i)).toNat = w.toNat % 2 ^ (8 * instrLen i)) ∧
  (∀ (op : MicroOp) (u : Micro), u.wfFor op = true → decodeMicro (u.bits (codeOf op)) = .ok (op, u)) ∧
  (∀ (w : Word) (op : MicroOp) (u : Micro), decodeMicro w = .ok (op, u) → u.wfFor op = true ∧ u.bits (codeOf op) = w)

/-- Whatever step the machine takes (a slot's turn, a microinstruction, a step of the hardware or the host, a cycle) from a state whose memory
lists rising addresses and no byte equal to what an unlisted address reads as, the next state's memory has that form too. So equal memories are
equal data (the form, and the value 0 of an unlisted byte, are the model's own, log 4). -/
def Obligations.StepsKeepMemoryCanonical : Prop :=
  ∀ (s t : State), Memory.wf s.mem = true → step s = .next t → Memory.wf t.mem = true

/-- Right after reset: every slot of every core is unbound; no run holds a record; every bank group is in cache mode; every context is free;
there is no queue, no saved block, no message, no load in flight; the clock is 0; the measurement registers are zero, the root-of-trust core is
neither ready nor claimed; the memory has its canonical form. The registers' zeros are the model's choice (log 1), as is memory's (log 4). -/
def Obligations.ResetState : Prop :=
  let s := State.reset
  (∀ (c : CoreId) (k : BitVec 4), (s.slot c k).st = .unbound ∧ (s.slot c k).tags = [] ∧ (s.slot c k).hold = [] ∧
    (∀ i : Fin 64, (s.slot c k).g[i] = {}) ∧ (∀ i : Fin 32, (s.slot c k).v[i] = {})) ∧
  (∀ c : CoreId, (s.core c).table = [] ∧ (s.core c).cmds = [] ∧ (s.core c).fenced = false ∧ ∀ g, g < 12 → (s.slab c).mode g = some 0) ∧
  (∀ l : LevelId, (s.run l).recs = []) ∧ (∀ n : BitVec 6, (s.ctx n).state = 0) ∧
  s.queues = [] ∧ s.saves = [] ∧ s.msgs = [] ∧ s.transit = [] ∧ (∀ d : BitVec 3, (s.die d).clock = 0 ∧ (s.die d).held = false) ∧
  (∀ j : Fin 8, s.root.meas[j] = 0) ∧ s.root.ready = false ∧ s.root.claimed = false ∧ Memory.wf s.mem = true ∧
  ∀ a, Memory.read s.mem a = 0

/-- One word of several families, as the spec writes it out: VADD in its short and its extended form, BFX, CPY, TDEP, UPD,
SEND, TRAP, TRET, EXIT and RDS, and the microinstructions MFADD and MLOOP. -/
def Obligations.WordsDecode : Prop :=
  let w (l : List (BitVec 32)) : Option Instr := match decode (bitsOfWords l) with
    | .ok i => some i
    | .error _ => none
  let on : Guard := ⟨false, 0⟩
  w [0x06102100] = some (.vadd on 1 2 3) ∧
  w [0x06102102, 0x00002800, 0] = some (.vaddExt on ⟨2, true⟩ 0 1 2 3) ∧
  w [0x0059407E, 0x02650000, 0] = some (.bfx on false 10 11 37 9) ∧
  w [0x0051A1E2, 0, 0] = some (.cpy on 13 10 0) ∧
  w [0x003900BA, 0x00000040, 0] = some (.tdep on 0 8 0 7) ∧
  w [0x20922196, 0x00006280, 0] = some (.upd on 10 ⟨false, 3, 0⟩ 17 ⟨18, 16, 0⟩) ∧
  w [0x012801F6, 0x100F0000, 0] = some (.send on 0x10 15 37 0) ∧
  w [0x000001FA, 0x00210000, 0] = some (.trap on 0x21) ∧
  w [0x000001FA, 0x00000040, 0] = some (.tret on) ∧
  w [0x000001FA, 0x00000080, 0] = some (.exit on) ∧
  w [0x018080E0] = some (.rds on 4 0 0x30) ∧
  (∃ u, decodeMicro 0x61E4000200000000 = .ok (.mfadd, u) ∧ u.wm1 = 15 ∧ u.drow = 32 ∧ u.arow = 0 ∧ u.brow = 16 ∧ u.imm = 0) ∧
  ∃ u, decodeMicro 0x7000020000600001 = .ok (.mloop, u) ∧ u.crow = 3 ∧ u.arow = 16 ∧ u.imm = 1

namespace Sys2Proof.Claims

-- the resumption of a saved block (spec/18 R323, R324)

/-- The fields of a bind record that a resumption keeps (R323): lowest bit and width. -/
def bindKept : List (Nat × Nat) := [(128, 32), (160, 6), (168, 8), (192, 4), (196, 4), (200, 9), (209, 9), (218, 4), (222, 4), (226, 1), (232, 24)]
/-- The saved block of an address. -/
abbrev SavedAt (s : State) (pa : Nat) (v : Saved) : Prop := ∃ pre post, s.saves = pre ++ v :: post ∧ v.pa = pa ∧ ∀ w ∈ pre, w.pa ≠ pa
/-- The checks on a resumption (R323): the sealed bytes stand in hub working memory, the record keeps what it must, every allotment is at least the
saved one, no held record has this save, the core keeps R289, its command slots are free, and the context's storage can be taken. -/
abbrev MayResume (s : State) (c : CoreId) (b : Block) (v : Saved) : Prop :=
  SavedAt s b.save v ∧ hubWorkingRange v.pa v.size = true ∧
  (∀ i w, (v.words s.root.boots)[i]? = some w → BitVec.ofNat 64 (s.readMem (v.pa + 8 * i) 8) = w) ∧
  (∀ f ∈ bindKept, recNat b.rec0 f.1 f.2 = recNat v.blk.rec0 f.1 f.2) ∧ (List.range 16).countP (fun k => b.smask.getLsbD k) = v.slots.length ∧
  v.blk.scrsize ≤ b.scrsize ∧ v.blk.ntile ≤ b.ntile ∧ v.blk.nring ≤ b.nring ∧ v.blk.ndesc ≤ b.ndesc ∧ v.blk.nbar ≤ b.nbar ∧
  v.blk.dwsize ≤ b.dwsize ∧ (∀ e ∈ s.cores, ∀ x ∈ e.2.table, x.2.held = true → x.2.save ≠ b.save) ∧ ¬ misplaced s c b ∧
  (∀ e ∈ v.cmds, Sparse.find (s.core c).cmds e.1 = none) ∧
  if v.hold then ∀ x ∈ (s.core c).table, x.2.ctx ≠ b.ctx
  else ∀ o, o < b.dwsize → (b.dwbase + o) / 65536 < (s.ctx b.ctx).count ∧
    (s.slab c).mode ((s.ctx b.ctx).first + (b.dwbase + o) / 65536) = some 1
/-- The slots of a block in rank order (R288). -/
def ranked (s : State) (c : CoreId) (n : Nat) : List (BitVec 4) :=
  ((List.range 16).map (BitVec.ofNat 4)).filter fun k => decide ((s.slot c k).blk = some n)
/-- A command that takes its generator anew as it goes on (R52): paused, and it converts with stochastic rounding. -/
def takesGen (m : Cmd) : Bool := decide (m.st = .paused ∧ cmdKind m.image = 1 ∧ fpRm m.fpcr = 5 ∧ descFmt m.ddesc ≠ 9)
/-- How many operations have claimed a ring of their block, and work on a tile of it. -/
def claimsOf (v : Saved) (q : Nat) : Nat := v.mx.countP fun o => !o.tcvt && decide (o.qa = q ∨ o.qb = q)
def worksOn (v : Saved) (i : Nat) : Nat := v.mx.countP fun o => decide (o.tile = i)
/-- No entry of a saved block is listed twice, and its commands are of its slots. -/
abbrev Listed (v : Saved) : Prop := (v.cmds.map Prod.fst).Nodup ∧ (v.scratch.map Prod.fst).Nodup ∧ (v.deep.map Prod.fst).Nodup ∧
  ∀ e ∈ v.cmds, e.2.slot.toNat < v.slots.length
/-- A saved block is back on a core as entry n (R324), where its slots, in the order of their ranks, are those of the entry: their registers,
loop stack, inbox and `GEN`; its place in the table; tiles, rings, descriptors, barriers, scratchpad and deep storage; its commands in their command
slots, the paused ones going on; its matrix operations at the queue's end with their claims; its sequencer's run. -/
abbrev Resumed (s t : State) (c : CoreId) (n : Nat) (b : Block) (v : Saved) : Prop :=
  let ks := ranked s c n
  let x := s.core c
  let y := t.core c
  let z := t.slab c
  let first := (s.ctx b.ctx).first
  (∀ i k w, ks[i]? = some k → v.slots[i]? = some w → (t.slot c k) = { w with blk := some n, fpcr := (t.slot c k).fpcr } ∧
    (t.slot c k).fpcr.extractLsb' 0 32 = w.fpcr.extractLsb' 0 32 ∧
    ((∀ e ∈ v.cmds, takesGen e.2 = true → e.2.slot.toNat ≠ i) → (t.slot c k).fpcr = w.fpcr)) ∧
  (∀ k, (s.slot c k).blk ≠ some n → t.slot c k = s.slot c k) ∧ y.l1 = [] ∧
  Sparse.find y.table n = some { b with
    held := false, cwm := v.blk.cwm, nalloc := v.blk.nalloc, chkv := v.blk.chkv, yieldReq := v.blk.yieldReq } ∧
  (∀ i u, (i, u) ∈ v.scratch → unitAt y.scratch (b.scrbase / 8 + i) = u) ∧
  (∀ i, 8 * i < b.scrsize → i ∉ v.scratch.map Prod.fst → unitAt y.scratch (b.scrbase / 8 + i) = {}) ∧
  (∀ i w, v.tiles[i]? = some w → y.tile (b.tile0 + i) = { w with busy := w.busy + worksOn v i }) ∧
  (∀ i w, v.rings[i]? = some w → y.ring (b.ring0 + i) =
    { w with desc := w.desc + BitVec.ofNat 6 b.desc0, cons := w.cons + BitVec.ofNat 12 (claimsOf v i) }) ∧
  (∀ i w, v.descs[i]? = some w → y.desc (b.desc0 + i) = w) ∧ (∀ i w, v.bars[i]? = some w → Sparse.find y.bars (b.bar0 + i) = some w) ∧
  (∀ i m, (i, m) ∈ v.cmds → ∃ m', Sparse.find y.cmds i = some m' ∧
    (m.st ≠ .paused → m' = { m with blk := n, slot := ks.getD m.slot.toNat 0 }) ∧
    (m.st = .paused → m' = { m with blk := n, slot := ks.getD m.slot.toNat 0, st := .running, issued := s.clock c, seed := m'.gsr, gsr := m'.gsr } ∧
      (takesGen m = false → m'.gsr = m.gsr) ∧
      (takesGen m = true → (∀ e ∈ v.cmds, takesGen e.2 = true → e.2.slot = m.slot → e.1 = i) → ∀ w, v.slots[m.slot.toNat]? = some w →
        m.slot.toNat < ks.length → let g := lfsrStep (s.srSeed c w) (w.fpcr.extractLsb' 32 32)
        m'.gsr = g.reverse ∧ (t.slot c (ks.getD m.slot.toNat 0)).fpcr.extractLsb' 32 32 = g))) ∧
  y.mx = x.mx ++ v.mx.map (fun o => { o with
    blk := n, tile := o.tile + b.tile0, qa := o.qa + b.ring0, qb := o.qb + b.ring0, issued := s.clock c }) ∧
  (v.hold = true →
    (∀ i g, v.modes[i]? = some g → i < (s.ctx b.ctx).count → first + i ∉ (s.slab c).fenced → z.mode (first + i) = some g) ∧
    ∀ i u, (i, u) ∈ v.deep → first + i / 8192 ∉ (s.slab c).fenced → unitAt z.units (8192 * first + i) = u) ∧
  (v.hold = false → let p := 65536 * first + b.dwbase
    (∀ i, i < v.blk.dwsize → byteAt z.units (p + i) = byteAt v.deep i) ∧
    (p % 8 = 0 → ∀ i, 8 * i + 8 ≤ v.blk.dwsize → unitAt z.units (p / 8 + i) = unitAt v.deep i)) ∧
  ∀ q, v.seq = some q → z.seq = { q with
    owner := ks.getD (rankIn v.blk.smask q.owner).toNat 0, due := s.clock c,
    st := if q.scause = 5 then .running else q.st, scause := if q.scause = 5 then 0 else q.scause }

end Sys2Proof.Claims

/-- A record with a save may resume it where the checks of R323 hold. An accepted one of a launch that is not whole brings the saved block back
onto the core: the slot of each rank takes the slot record of that rank with its registers and `GEN`; storage, commands, matrix operations and the
sequencer's run are restored, a paused command going on, its
generator taken anew from its slot's, which steps (R52); memory stays, the L1 is empty, and the save is gone. A fault of the block moves to its new
core and slot; the answer that was held is applied: a replay lets the slot run again. The last block of a whole launch resumes every held block that
has a save, and starts the others afresh. (A bind leaves barrier registers as they are, log 43; the saved bytes are those that the guard sealed,
log 45; engine faults that wait for a turn survive a save, log 46: all DEDUCED.) -/
def Obligations.ResumingASave : Prop :=
  (∀ (s : State) (c : CoreId) (b : Block), s.mayResume c b = true ↔ ∃ v, MayResume s c b v) ∧
  (∀ (s : State) (c : CoreId) (r : BitVec 512) (n : Nat) (v : Saved), let b : Block := { rec0 := r }
    let u := heldThere s c n b
    r.getLsbD 226 = false → b.save ≠ 0 → s.guardCode c b = none → LowestFree s c n → (∀ k, (s.slot c k).blk ≠ some n) →
    SavedAt s b.save v → Listed v →
    ((∀ f ∈ (s.ctx b.ctx).faults, ∀ i, f.saved = some (v.pa, i) → f.answer = none) →
      ∃ t, exec (.bindRecordCommit c r) s = .next t ∧ t.mem = s.mem ∧ Resumed u t c n b v ∧
        t.saves = s.saves.filter (fun w => decide (w.pa ≠ v.pa)) ∧
        (t.ctx b.ctx).faults = (s.ctx b.ctx).faults.map fun (f : FaultRec) => match f.saved with
          | some (a, i) => if a = v.pa then { f with core := c, slot := (ranked u c n).getD i 0, saved := none } else f
          | none => f) ∧
    (∀ f i k w, (∀ g ∈ (s.ctx b.ctx).faults, ∀ j, g.saved = some (v.pa, j) → g = f) → f ∈ (s.ctx b.ctx).faults → f.saved = some (v.pa, i) →
      f.answer = some true → f.kind ≠ 4 → (ranked u c n)[i]? = some k → v.slots[i]? = some w → w.st = .suspended → w.gen = f.gen →
      ∃ t, exec (.bindRecordCommit c r) s = .next t ∧ (t.slot c k).st = .running ∧ (t.slot c k).pc = w.pc ∧
        f ∉ (t.ctx b.ctx).faults)) ∧
  (∀ (s : State) (c : CoreId) (r : BitVec 512) (n : Nat), let b : Block := { rec0 := r, held := true }
    let u := heldThere s c n b
    let hs := u.heldOf b
    r.getLsbD 226 = true → s.guardCode c b = none → LowestFree s c n →
    (recNat r 196 4 + 1) * (recNat r 209 9 + 1) * (recNat r 222 4 + 1) ≤ hs.length →
    (hs.map fun h => h.1.key).Nodup → ((hs.map fun h => h.2.2.save).filter fun p => decide (p ≠ 0)).Nodup →
    (∀ h ∈ hs, h.2.2.save ≠ 0 → ∃ v, SavedAt s h.2.2.save v ∧ Listed v ∧ v.slots.length = (ranked u h.1 h.2.1).length) →
    (∀ h ∈ hs, ∀ f ∈ (s.ctx h.2.2.ctx).faults, f.saved = none ∨ f.answer = none) →
    ∃ t, exec (.bindRecordCommit c r) s = .next t ∧ t.mem = s.mem ∧
      (∀ h ∈ hs, h.2.2.save = 0 → Fresh u t h.1 h.2.1 h.2.2) ∧
      ∀ h ∈ hs, h.2.2.save ≠ 0 → ∀ v, SavedAt s h.2.2.save v → Resumed u t h.1 h.2.1 h.2.2 v)

/-- DIV, DIVN, REM and REMN, where they run, answer a next state in which gD is pending and the result is to arrive 4 rotations later at
64 bits and 2 at 32. The quotient is rounded toward zero; by 0 it is all ones and the remainder is the dividend; the most negative
value by −1 gives itself, with remainder 0. None of them traps. SEL, LEA with a base register, LEA with the instruction's own address,
and MAD, where they run, answer a next state with the result of R112 or R110 in gD, cut to 32 bits and sign-extended under `S` = 1.
SEL's predicate is read as data: its taint and poison go into the result. -/
def Obligations.DivisionAndMultiplyAddResults : Prop := DivisionResults ∧ SelectAddressAndMultiplyAdd

/-- BFX, BFXS and BFI, where they run: with hi = `POS` + `WM1` at most 63 (31 under `S` = 1) the instruction answers a next state in which
gD holds the field of gA zero-extended, sign-extended from its top bit, or gD with the field replaced by the low bits of gA; with a
larger hi it traps with illegal operand. CMP in its six forms, where it runs, answers a next state in which pD is the truth of the
condition on gA and operand B, read at w bits as signed or natural numbers; PAND, POR, PXOR and PMOV, where they run, write the
operation on the predicates, complemented under `S` = 1. A write to p0 is discarded, and nothing else changes. -/
def Obligations.BitFieldAndCompareResults : Prop := BitFieldResults ∧ CompareAndPredicateResults

/-- BRA, CALL and BTAG, where they run: the taint of the guard joins the control taint; a taken one (always but for BTAG, which is taken
when the head message of the inbox has its tag) goes to its own address plus the offset, CALL with the next address in g59; a BTAG not
taken goes on. BRX, CALLX and RET go to the address in gA or g59, read before the link is written, with its taint in the control
taint; a target with a bit of 1:0 set traps with misaligned, one with a bit of 63:48 set with not present, the target in TRAPADDR. A
slot that goes on after an instruction of some length at its pc: with no loop, or an innermost loop that does not end there, it goes
to the next address; where the innermost loop ends there with a count other than 1, the count falls by one and the slot goes to the
loop's start; with a count of 1 the entry is popped and the test goes on with the entries that are left, to the address that they
give. Nothing else of the slot changes. -/
def Obligations.BranchesAndEndOfBody : Prop := BranchTargetsAndLinks ∧ EndOfBodyTest

/-- FADD, FSUB, FMUL, FDIV, FFMA, FSQRT, FMIN and FMAX in all their forms, where they run: the flags of the rounded result are set in the
context's MXFLAGS. With none of them enabled in FPCR, gD gets the result zero-extended (FDIV and FSQRT: gD is pending, and the result
comes 4 rotations later for `fp64`, 2 for the others), with the taint and poison of what was read. With one enabled the slot traps
with illegal operand, the flags in TRAPADDR, and no destination is written. For the four scalar types, every mode and flush setting,
and all operands: a NaN operand gives the canonical NaN, with NV exactly when an operand is signalling (in FFMA, where only the addend
is a NaN, also for 0 × ∞); ∞ − ∞, 0 × ∞, 0 / 0 and ∞ / ∞ give it with NV; a finite nonzero value divided by zero gives ∞ of the
product of the signs with DZ alone; the root of −0 is −0 with no flag, of another negative value the NaN with NV; a sum of two zeros
of one sign is that zero, of two signs +0, or −0 under `rdn`. On finite operands each gives `Round` of its exact value, with the flags
of the rounding alone: a + b and a − b in a common unit, a × b, a × b + c rounded once, the quotient and the root by their bits down
to 2^130 or 2^64 below the unit with a mark when more follow. FMIN and FMAX give the lesser or the greater of two values, −0 below +0,
by its encoding (zero of its sign where `FZI` reads it as zero); one NaN gives the other operand, two the canonical NaN, with NV
exactly for a signalling one. -/
def Obligations.FloatResults : Prop := FloatArithmeticResults ∧ FloatValues

/-- RDS, where it runs: for a number of the map it writes the register's value to gD with no taint and no poison, and nothing else
changes; for every other number it traps with illegal operand. WRS, where it runs (it waits for the taint of gA): a legal value of a
writable register is written there, nothing else changes, and RDS then reads it (in MXFLAGS with the flags that the context raised in
the same cycle set in it); a read-only register, a number outside the map and a value with a reserved bit or out of range trap with
illegal operand and change no register. -/
def Obligations.SpecialRegisterAccess : Prop := ReadSpecialRegisters ∧ WriteSpecialRegisters

/-- VCMP, where it runs, writes the truth of its condition at each active element to every byte-lane bit of the element in mD, and keeps
(or under `VZ` clears) the bits of inactive elements; on integer types a condition above 5 traps with illegal operand. VINS replaces
one element of vD by the low bits of gA and joins the old taint and poison; VEXT writes one element, extended by its signedness, to
gD; a lane not below the number of elements traps with illegal operand. VREDADD, VREDMIN and VREDMAX, where they run, write to gD the
sum modulo 2^64, least or greatest of the active elements (the end of the range when there is none) for integer types; for floating
types VREDADD rounds the exact sum once, and VREDMIN and VREDMAX fold R37 over the active elements, ±∞ when there is none. VDOT adds
the products of the elements under each 32-bit word of vD to it, exactly, reducing modulo 2^32 or rounding once to `fp32`, and traps
for a type it does not take. VSFU marks vD pending and its result, the function's exact value rounded to nearest even at each active
element, comes 6 rotations later for `fp32` and 3 for the others; a type that is none of the three traps. For every operand in the
table of special cases its result and flags are those of the table. -/
def Obligations.VectorCompareMoveAndReduce : Prop := VectorCompareInsertExtract ∧ ReductionDotAndSpecialFunctions

/-- VCVT of well-formed types, where it runs, converts 256 / max(ws, wd) elements: from part `PART` of vA when the destination is wider,
into part `PART` of vD when it is narrower, whose other elements stay. An active element gets the source's value rounded into the
destination type; inactive elements are kept or zeroed. Under `rsr` with a destination of 16 bits or fewer each active element takes
one generator step, in ascending order, and the last state goes into FPCR (also where it traps: the model's choice, log 8). That a
`float` conversion into an integer judges its range after rounding is the model's choice too (log 67). Where they run: VQNT and VDQNT
trap with illegal operand unless VFMT is `fp32`, `fp16` or `bf16` and the group is aligned; VQNT builds the image of the group's
elements in vD and, for an MX format, the scale in g[C]; VDQNT rounds each value of the image, one generator step an element under
`rsr` into 16 bits. VHAD traps for natural types and a misaligned group; it writes each run's signed sums, modulo 2^w or exact and
rounded once. VBADDQ builds the image of the exact sums of three images. Flags follow R45: an enabled one traps before any register is
written (the generator has stepped all the same: the model's choice, log 8; so is the sign of VHAD's exact zero sums under `rdn`, log
14). -/
def Obligations.VectorConvertAndQuantise : Prop := VectorConversionResults ∧ QuantiseTransformAndBlockAdd

/-- A tagged load or returning atomic (LD, LDRO, LDX, LDV and its gather form, ATOM, CAS) that runs and whose addresses are aligned and
translate takes the lowest free tag, and its destinations are pending. If it need not be held it goes from now on; an atomic whose key
lies in no level inside its scope changes nothing else, another evicts the key there and then where all that it moves has room, and
else evicts it later. If it must be held (tainted operands or control, an overlapping entry, a release before it) it enters the hold
queue behind the loads in flight; where the queue has its 8 entries it loses the turn (here for an overlapping entry alone, which
shows only after the translation, log 31; for the others the wait comes first). The pc goes on. LD or LDRO into g0, where it runs,
ends as a no-operation if its address is misaligned, faults, or is tainted; a miss is noted and waits; otherwise the line is taken
into the L1 as a snapshot where it is not there, lies in device or peer memory, its home can be read, and no record of the die is on
its way to it, and nothing else happens but that an activate of HBM is counted at its stack, where the read makes one; at the stack's
limit nothing is read (R355, log 73). Of host memory nothing is kept. -/
def Obligations.LoadsAndPrefetchAtIssue : Prop := LoadsTakeATag ∧ PrefetchForm

/-- Each of LDS, LDSV, STS, STSV, LDD, STD and the four sync instructions that runs traps: with illegal operand for a destination g60, g61
or g62; else with misaligned access when its address is no multiple of its size; else, outside the block's allotment, with permission
denied, and for LDD and STD outside the window, the holding or a deep-scratch group with the deep-scratch cause. TRAPADDR holds the
address (where the access begins inside and runs out, its first byte's: the model's reading, log 65). Where its access falls at a
place: LDS writes the bytes there to gD, extended; LDSV writes 32 bytes to vD; LDD marks gD pending and its result arrives 3 rotations
later; all with the poison of the units read. STS, STSV and STD change exactly their bytes of the scratchpad or of the slab, with the
poison rule of R148, and nothing else. -/
def Obligations.SramAccesses : Prop := SramAccessTraps ∧ SramAccessResults

/-- Each instruction of spec/11 that names a tile, rings or a descriptor and runs traps with the tile cause for a tile that is not
allocated to its block, and otherwise with illegal operand for a ring or descriptor that is not below the block's count. Where they
run and their numbers are in the allotment: RINGSTAT writes the ring's counts to gD with the guard's taint, 0 for a ring that is not
configured. RINGDROP on an idle ring advances its head by the count, or by every committed slot for 0 or more than there are, and
gives up reservations and the open segment. TILECFG allocates and clears the first gA tiles, with its traps; TILEREL frees them; TZERO
clears a tile. TSTS of an unlocked tile puts its sixteen rows in the store queue, one a cycle, at a place of the scratchpad. RINGDROP
on a ring that is not idle, TILEREL with a locked tile, and TZERO and TSTS of a locked tile lose the turn, before any trap of their
own. (Where an access to the scratchpad that runs out of the allotment traps is the model's reading, log 65.) -/
def Obligations.RingTileAndDescriptorInstructions : Prop := MatrixNumbersOutsideTheAllotment ∧ RingAndTileInstructions

/-- MMA, where no register stops it, waits while the queue of four is full or another slot has waited longer; else, when the governor's
budget is used up, it counts a stall (only here: log 33) and loses the turn. These waits come before any trap of its own (R8, R380).
Then, its numbers in the allotment, it traps with illegal operand when a ring is not configured or the two descriptors differ in K,
Hadamard run or integer class; else it counts in `USED`, claims the next slot of each ring, locks its tile, and its operation enters
the queue with the captured descriptors and FPCR. TCVT, where no register stops it, waits for a queue entry; then its first segment
waits for a free slot of its configured ring behind earlier copies, and no longer for the queue. These waits come before any trap of
its own (R8, R380). Then, its numbers in the allotment, it traps with illegal operand when the ring is not configured or the
descriptor has an MX format or a 32-element Hadamard run; else it reserves a slot with its first segment, opens the next segment,
locks the tile, and enters the queue; under `rsr` it steps the slot's generator once and the engine's seed is the new state, bits
reversed, but for an `fp32` ring (the model's reading, log 32). -/
def Obligations.MmaAndTcvtIssue : Prop := MmaIssue ∧ TcvtIssue

/-- CPYSTAT, where it runs, traps with illegal operand for a command number above 7 and writes the word of the command, 0 for a free slot
or another block's command, to gD with the guard's taint. CPYRES traps with illegal operand unless its value has only a number and the
abandon bit and names a faulted command of the block; with the abandon bit the slot is freed, and either way what waits for a
translation in the command's name is forgotten; otherwise the command runs again from its unit, with its generator taken anew from its
slot where it draws from one (into an `fp32` ring none does: the model's reading, log 32). DSMODE, where no register and no taint
stops it: where it names a group, it loses the turn while the sequencer runs, a command or an LDD of the core reaches the slab, or a
named group is changing, before its checks (R8, R380). Else it traps with illegal operand for bits above 11 or for a group that the
context does not hold or that is fenced; ends at once when it names no group or every group has the mode; otherwise the groups of
another mode begin to change and it holds its slot. -/
def Obligations.CopyStatusAndDsmode : Prop := CopyStatusAndResume ∧ DsmodeChecksAndStart

/-- Each traps with illegal operand for a register beyond the block's. BARCFG also traps for reserved bits, an empty rectangle, one that
does not cover the core, or a register with arrivals; otherwise the register takes the rectangle, participants and context with phase
0 and no arrivals (done signals that had reached it for the same rectangle and context may stay: the model's choice, log 25), and the
block's captured phases of it are dropped. BARARR loses the turn while all have arrived; otherwise it counts one arrival and the slot
captures the phase. BARWAIT loses the turn while the captured phase is the register's. SEND loses the turn while the outbound queue
has its 8 messages, INPOP on an empty inbox, GQTAKE while no word of an earlier cycle is in the gateway queue, GQPUT while its 64
places are taken (those emptied in this cycle among them): before any trap of their own. Where they run: SEND traps for a misaligned
address or one whose words leave the allotment, then for a bad MDEST, and otherwise queues one message of its words with MDEST's
destination (which of two traps comes first, and where an access that runs out of the allotment traps, is the model's reading, logs 38
and 65); INPOP takes the head message and writes its header to gD; GQTAKE and GQPUT trap on a core that is no gateway; GQTAKE takes
the oldest word; GQPUT appends gA with `ORIG` 0xFF and bits 62 to 56 clear. -/
def Obligations.BarrierAndMessageInstructions : Prop := BarrierInstructions ∧ MessageInstructions

/-- A trap of a slot that is not in its handler and has one writes TRAPPC, TRAPADDR and TRAPCAUSE, sets the pc to TRAPVEC and changes
nothing else. A trap of a slot in its handler, or without one, ends its launch with the cause. A trap in boot state holds the die and
is reported by the root-of-trust core. After EndLaunch of launch n of queue q with a cause: on every core, each block of the launch
that was not being closed is being closed with that cause, and each of its slots is to stop; every other block and slot, one that was
being closed already among them, is as it was, and so is the rest of the core. The saved blocks of the launch are gone and the others
left; the launch's entry, if it had not ended, has ended with the cause, and no other launch or queue differs; everything else of the
machine is as before. -/
def Obligations.TrapsAndTheEndOfALaunch : Prop := TakingATrap ∧ EndOfALaunch

/-- TRAP and BRK, where they run in a slot that may enter its handler, enter it with their cause, the code in TRAPADDR and the address
after themselves in TRAPPC. BRK in a context with `DBG` and a fault queue instead suspends the slot after the instruction with a fault
record of kind 5. TRET in the handler clears `INTRAP` alone of TRAPCAUSE and goes to TRAPPC; outside it traps with illegal
instruction. EXIT, where it runs, moves the slot to exited with its inbox discarded, ends a stopped run of the sequencer that it owns,
and with its block's last slot gives up the block's faulted commands. HUBCALL marks gD pending and leaves the call with the slot's
hub, oldest first. CHKPT stores gA as the block's checkpoint value; with a yield request it clears the request and the slots of the
block are to stop at turns after this cycle, with those of every block that stops with it: of its context on the core where a slot of
it owns the sequencer, of its started whole launch (that the launch is saved as a whole is R290's and R318's, that its blocks stop
with the one that yields is the model's choice, log 86), and of the blocks that stop with those; otherwise nothing more. -/
def Obligations.SystemInstructions : Prop := TrapBrkAndTret ∧ ExitHubcallAndChkpt

/-- Each of the fourteen lane microinstructions, well formed, taken by a ready sequencer with every field within row 255: what the one
before it wrote is in its rows; in every lane of every compute-mode group of the context's holding the destination field is to get the
operation's value of the sources as they now are; its units are poisoned when a source unit of their block of lanes is, and clean
otherwise; no other unit of the slab is to change; `PC` goes up by 1, but at index 1,023, and the next microinstruction may run, with
those units written, after the operation's microcycles. A run whose microinstruction at index 1,023 is complete stops with cause 4 and
`PC` 1,023: the message is offered and a running owner is to trap with bit-serial stop. Nothing else changes. Microcycles are counted
from the end of the cycle (log 81); that a microinstruction reads its rows as it begins, and that its own hold what it writes only
when it is over, is the model's choice (log 88). Of a sequencer that is ready, the last microinstruction's units are first written. A
microinstruction that its operation does not allow stops it with cause 1, one of the fourteen with a field beyond row 255 with cause
2, MLOOP with its target above itself with cause 1, MLOOP inside another index's loop with cause 3: the stopped one has no effect, the
message is offered, and a running owner is to trap with bit-serial stop and `PC`. MLOOP with passes left goes to its target with one
fewer and `OFS` advanced by its step; without, it ends the loop, takes `OFS` back, and goes on (behind index 1,023 the run stops with
cause 4, when MLOOP's microcycle is over). MEND makes the sequencer idle and offers the message. A microinstruction of a sequencer
that is not ready changes nothing. -/
def Obligations.Microinstructions : Prop := MicroinstructionsOnLanes ∧ LoopEndAndStopsOfARun

/-- A long result that is due is written to its register, which is no longer pending. A load that goes and that no earlier load of its
slot blocks reads its next piece at an instant after its rotations: from the home when the core has no snapshot it may use and the
home can be read, with the die's records of the line all arrived (log 23), else from the snapshot (a `device` or `system` load then
waits for its validation). The line read becomes a snapshot, unless it is host memory's or an LDRO reads it while such a record is on
its way. The piece's value is the key words with the records of the core's three levels applied, all at this instant (log 24: DEDUCED;
LDRO: the base alone), its poison theirs; it looks up cog 0 and those levels whose filter answers present, where a pass may have the
cycle before it. An atomic whose step is done returns after its rotations. A load with every piece read writes its destinations and
performs, or waits for its validations. A returned LD of one element writes its register: the element, extended as its access says,
with the taint of its operands joined with its tag, and the poison read; an atomic's also has the poison of its data and compare
operands. Performing frees the tag and clears its bit in every mark and mask of the slot, and nothing else of a register; a load at
`device` or `system` scope with an answer from device or peer memory moves the read horizon up to the moment its read left, for itself
and for the loads issued after it. A returned load performs when the homes of its validated lines can be read, after their rotations
and any activates (R355, log 73); a snapshot that differs from its home is dropped. A load that waits 600,000 cycles for a peer, a
held die or a host that nothing reaches returns poison with a value that is free (log 5); a validation that gets no answer ends, and
the load performs with those of its other lines taken; what got no answer moves no horizon. A snapshot may be dropped at any time. -/
def Obligations.LoadsReturnAndPerform : Prop := LoadsReturn ∧ LoadsPerform

/-- The first entry of a slot's hold queue that waits for nothing, with no release before it, proceeds: a held load goes from this moment,
without snapshots where its scope reaches the device; a plain update leaves the queue with its records inserted into cog 0 in order.
Where only the first of them may be inserted the rest stays in its place, and a new key waits from this moment; the resumption of such
an update inserts them when there is room. A release update at the head of the hold queue with its loads performed, or a DRAIN or
FENCE that holds its slot with no load in flight and nothing held, takes the steps of its drain over its context at its scope one
after another. With the drain over, and the records of the slot's accesses and those it moved come home, the update inserts its
records and leaves the queue, DRAIN ends once the flags of its range are raised at the base (log 87), and FENCE drops the core's
snapshots where its scope reaches the device and, without `ENG`, ends; with `ENG` it ends when no record or command of the slot is on
its way (a faulted command is, log 36: DEDUCED), its snapshots dropped again, and holds its slot until then. -/
def Obligations.HoldQueueAndReleases : Prop := HeldAccessesProceed ∧ ReleasesComplete

/-- Inserting at a level: a new key is placed; a record of the key that combines is replaced by the combination, and where the two are a
SET race it is noted for the ring of their context; otherwise the old one goes one level out and the new one is placed. The oldest
race noted is written once the ring's pages can be walked: while the ring has room as an entry and, that applied, in `PROD`; where it
has none after `CONSR` is read again it counts as dropped; a write that fails disables the ring. A derailleur that works starts a pass
when its run is at the watermark, or holds records and has had no insertion for 2,048 cycles. A pass with its rate not used up (4
records a cycle at cog 2, 1 inside) moves the first record from its cursor up that it selects one level out, marked with those who
asked for the pass, where there is room; it goes on past that key, or ends above the highest key that it selects; with nothing left it
ends. In a cycle with a load's lookup at its level it yields, at most three times in a row. A record on its way, with no earlier one
of its key from its source and those that it must follow applied, is accepted: at a live home die, one in a cycle, the sources in turn
among those with a record waiting there; by a live host agent; or by a peer that a route reaches (which applies it later, log 17). One
that has to wait is noted as arrived (log 20). A die, also a held one (log 16), applies its oldest accepted record, and notes the
engine writes that this leaves half done, once no host copy of its line is left and the row can be opened (log 73), and otherwise
snoops the line once. The host's answer frees the line, with the SET records (log 13) of a dirty one ahead of the queue (log 51),
poisoned as a free value has it (log 100). The host agent applies its oldest record and awaits its observation, which ends the wait. A
record with no live home for 600,000 cycles is dropped, logged with its context if it is a die's own, and ends the launches that
issued it. -/
def Obligations.RecordsMoveAndReachTheBase : Prop := InsertionAndPasses ∧ RecordsReachTheBase

/-- A row-done enabled position that is not in the first column signals its western neighbour once in each phase; a row-done position of
the first column with the rows below it done, not in the first row, signals the one above. At the corner both together, or an arrived
release, release the register: its count is 0, its phase one higher, its marks clear; the release goes on east, and from the first
column down. A neighbour's register takes a signal of its own rectangle and context and drops another's. A message on its way, with no
earlier one from its slot to its destination, at a die that is not held, is accepted by a slot that takes it and has room for its
words, when none that arrived for the slot earlier, the core's sequencer's too, still waits; else it is noted as arrived (log 20). A
message that the slot does not take, or whose core does not exist, is dropped and logged. A sequencer's message reaches its owner
likewise, with tag 0xF0. A collective block of at most 256 bytes at an open Avbaug spoke goes to its homes as SET records, with its
poison; when they are applied it enters the gateway queue, the oldest first, with the cycle. A bank group's change puts it in its mode
(a fenced group stays in cache mode) with zero data and no poison, and ends the DSMODE that waits for its last group. -/
def Obligations.BarriersMessagesAndModes : Prop := BarriersComplete ∧ MessagesAndModeChanges

/-- At its turn a free slot with a pending trap, out of its handler, enters the handler with the cause and TRAPADDR kept, nothing pending
any more; one without a pending trap enters it for the engine fault or bit-serial stop that has waited longest, also out of a FENCE or
a CPY that waits for the engine (log 36: DEDUCED). A slot that is to stop stops at its turn, when its moment has come, and the
instruction that holds it ends without completing. The reply of the oldest HUBCALL of a slot is the argument for service 0, 0 with a
yield request for service 1, 0 with the word queued for the host (all ones where the host takes none) for service 2, and all ones for
any other. A yield request is set on a bound block that has none. A save request for a bound block at a page-aligned address of hub
working memory is kept, and every slot of the block is to stop, with those of every block that stops with it (of its started whole
launch, log 86: DEDUCED, the model's choice; of its context on the core where a slot of it owns the sequencer; and so on); nothing
else changes. The stop waits for each slot and its accesses, then pauses the commands that are between units; the owner of the
sequencer waits for the microinstruction that runs, whose rows are then written, and its run stops with cause 5, at the end of its
store with cause 4; and a barrier register waits for a release that a position of its rectangle has still to take. The step of a save
that is not over is the next step of the stop. When the stop is over (and, for the owner of the sequencer, its context's other blocks
have left; for a block of a started whole launch, every block of it has its request, log 86) the block's words stand at the address,
the save is known, and the block has left its core (the place of an unstarted matrix operation in them is in part the model's, log 26;
engine faults that wait stay with the block, log 46: DEDUCED). -/
def Obligations.TurnTrapsAndSaves : Prop := TrapsAndStopsAtATurn ∧ SavingABlock

/-- A kick at an open spoke whose source is the queue's, with a number above `TAKEN`, raises the queue's target to that number, or the
producer count where greater, once the hub has it, and wakes its die; one at or below it does nothing; a kick of another source, or
for no queue, is logged and does nothing else. The monitor reads the next record up to the target, with the cause for which it is
refused, the first of the six that holds, and writes `TAKEN`. The launch that is next in its queue completes: refused with status 3
and its cause; ended, with no block left, with status 2 and its cause; else, with all its blocks counted and their records applied,
with status 1. Its status word is written first (none at a misaligned address, log 47: DEDUCED), and `DONE` once that is applied. (A
flit that comes in ends its spoke's replays, log 59; a held die takes no kick, log 16: DEDUCED.) A bind record that a check of the
guard fails is logged with the code of the first that it fails, and does nothing else (the code 5 of a fenced bank group is that of a
deep window with bytes in it, log 52: DEDUCED). An accepted one of a launch that is not whole, without a save, starts: each slot of
its mask runs at the entry with its rank, its generation one higher, g1 the arguments, every other register 0, clean; its scratchpad
reads 0, the L1 is empty, every other slot is as before. One of a whole launch that is not the last is held with its slots taken, and
may be withdrawn; the last one starts every held block of the launch together, and the launch has started. A block whose slots have
exited, with its work done, drains step by step; with its records accepted it leaves its core and is counted; a closed one is stopped
first. -/
def Obligations.LaunchesAndBlocks : Prop := QueuesTakeAndFinishLaunches ∧ BlocksBindAndComplete

/-- CLAIM of an unclaimed ready device keeps the owner's key, its hash, a sequence number of 0, and measures the hash into register 4.
STATUS answers with the status as before its own reply (the model's choice, log 30), the bundle, the counters and the last sequence
number; ATTEST with the report over the nonce and the identity key's signature. Signed requests that pass: EXTEND extends register 5,
6 or 7; RAISE raises a counter to the version of the image that runs; DISABLE appends its entries where each die's enabled cores stay
connected; SET_WINDOW writes a window that was not valid. Each answers with status 0. A valid window waits for the accesses in flight,
no TLB of a core or cluster holding a translation any more and no walk under way; so does INVALIDATE for those of its context that
meet its addresses, which are all of them where the length is 0. A split is in order, beside active ones that lie within the twelve
groups, when its groups are among the twelve, no other active context holds one of them, and in every slab a group that no fence takes
is left to the cache (log 52: DEDUCED). Signed requests that pass their checks. CREATE_CONTEXT writes a free context's entry, with no
flags and no faults; END_CONTEXT makes an active one ending, with every block of it closing and its saved blocks gone, and goes on;
SET_SPLIT of an active context without blocks writes its split alone. CREATE_QUEUE makes a queue that is empty. FAULT_ANSWER answers a
written fault. REPAIR of lines of device memory goes on, with those whose storage fails again noted; of the logs' or the firmware's
lines it is refused with status 7. RACE_RING clears a die's ring, or sets it for an active context with its header cleared, where it
can be written, once the hub can walk the tables for it. All but END_CONTEXT and REPAIR answer with status 0. -/
def Obligations.SignedRequests : Prop := RequestsOnTheRoot ∧ RequestsOnContextsAndQueues

/-- A channel after a failed training or errors in more than 16 rows within a second, a bank group after 4 uncorrectable units within a
second, and a spoke after 64 replays or a failed retraining become fenced, with an event of class 0x08, 0x09 or 0x07; a bank group in
scratch or compute mode ends launches with cause 0x08 (log 52: DEDUCED). A replay is counted, below 64. A change of routes takes the
peer spokes that are not fenced: it begins, and is done once no record that a peer has accepted from the die is still to be applied
(log 80: DEDUCED). A patrol read of a line whose row can be opened (log 73) with a corrected error keeps the line's counter for a
write-back, and with an uncorrectable one poisons the line; a unit of a group in scratch mode, or in compute mode with an idle
sequencer, is read too; the write-back counts as a write only if the counter is unchanged. A row leaves the hot list 7 days after its
last error; a score loses 1 for each day. A row whose score has reached 128 takes one of the 8 spare rows of its bank (its score
starts again, log 55: DEDUCED) with an event of class 0x0A, and where none is left one of class 0x0B is written; its bytes and poison
stay. A power update gives each die that is not held its share: every core's next `BUDGET` is the share, halved while the compute die
is hot (a share of 0 counting as 46), and each stack its next ACTLIM; a stack's window brings it in and starts its count again. An
access that opens a row counts, and waits at the limit, once one has come (which ones open a row is free, log 73: DESIGN CHOICE).
Clocks stop only on a die without a block, a record in cog 0 or cog 1 or a command, and start again for a kick or bind. `THERM` is set
at 105 degrees with an event of class 0x11 and cleared at 100 with one of class 0x12. A compute die above 105 degrees halves every
core's next `BUDGET` until it falls to 100. At 115 degrees, or when coolant is lost, the die is held. -/
def Obligations.FencesPowerAndHeat : Prop := FencesScrubsAndRetirement ∧ PowerAndHeat
end

