-- ==== Sys2Proof/Laws/Encoding.lean ====
section
/-! SUPPORT. The decoder picks back every row of the encoding table, with every operand: one lemma for each fetched
instruction, and the lemmas on bit strings that they rest on. -/

set_option linter.unusedSimpArgs false
set_option Elab.async false

namespace Sys2Proof.Laws

theorem ext_lo {a b : Nat} (x : BitVec a) (y : BitVec b) : (x ++ y).extractLsb' 0 b = y := by
  apply BitVec.eq_of_getLsbD_eq; intro i hi
  simp [BitVec.getLsbD_append, hi]

theorem ext_skip {a b : Nat} (x : BitVec a) (y : BitVec b) (lo w : Nat) (h : b ≤ lo) :
    (x ++ y).extractLsb' lo w = x.extractLsb' (lo - b) w := by
  apply BitVec.eq_of_getLsbD_eq; intro i hi
  simp only [BitVec.getLsbD_extractLsb', hi, decide_true, Bool.true_and, BitVec.getLsbD_append]
  rw [if_neg (by omega)]; congr 1; omega

theorem ext_keep {a b : Nat} (x : BitVec a) (y : BitVec b) (lo w : Nat) (h : lo + w ≤ b) :
    (x ++ y).extractLsb' lo w = y.extractLsb' lo w := by
  apply BitVec.eq_of_getLsbD_eq; intro i hi
  simp only [BitVec.getLsbD_extractLsb', hi, decide_true, Bool.true_and, BitVec.getLsbD_append]
  rw [if_pos (by omega)]

theorem ext_all {a : Nat} (x : BitVec a) : x.extractLsb' 0 a = x := by
  apply BitVec.eq_of_getLsbD_eq; intro i hi
  simp [hi]

theorem bit_skip {a b : Nat} (x : BitVec a) (y : BitVec b) (i : Nat) (h : b ≤ i) :
    (x ++ y).getLsbD i = x.getLsbD (i - b) := by
  rw [BitVec.getLsbD_append, if_neg (by omega)]

theorem bit_keep {a b : Nat} (x : BitVec a) (y : BitVec b) (i : Nat) (h : i < b) :
    (x ++ y).getLsbD i = y.getLsbD i := by
  rw [BitVec.getLsbD_append, if_pos h]

theorem set_set {a b : Nat} (x : BitVec a) (h : a ≤ b) : (x.setWidth b).setWidth a = x := by
  simp [BitVec.setWidth_setWidth_of_le _ h]

theorem ofBool_bit (b : Bool) : (BitVec.ofBool b).getLsbD 0 = b := by cases b <;> rfl

theorem shape0_1 (x0 : BitVec 3) (x1 : BitVec 3) :
    BitVec.extractLsb' (n := 6) 0 3 (x0 ++ x1) = x1 := by
  show BitVec.extractLsb' (n := 3 + 3) 0 3 (x0 ++ x1) = _
  simp (disch := decide) only [ext_lo, ext_skip, ext_keep, ext_all, Nat.sub_self, Nat.reduceSub]

theorem shape0_0 (x0 : BitVec 3) (x1 : BitVec 3) :
    BitVec.extractLsb' (n := 6) 3 3 (x0 ++ x1) = x0 := by
  show BitVec.extractLsb' (n := 3 + 3) 3 3 (x0 ++ x1) = _
  simp (disch := decide) only [ext_lo, ext_skip, ext_keep, ext_all, Nat.sub_self, Nat.reduceSub]

theorem shape1_2 (x0 : BitVec 8) (x2 : BitVec 4) :
    BitVec.extractLsb' (n := 16) 0 4 (x0 ++ 0#4 ++ x2) = x2 := by
  show BitVec.extractLsb' (n := (8 + 4) + 4) 0 4 (x0 ++ 0#4 ++ x2) = _
  simp (disch := decide) only [ext_lo, ext_skip, ext_keep, ext_all, Nat.sub_self, Nat.reduceSub]

theorem shape1_0 (x0 : BitVec 8) (x2 : BitVec 4) :
    BitVec.extractLsb' (n := 16) 8 8 (x0 ++ 0#4 ++ x2) = x0 := by
  show BitVec.extractLsb' (n := (8 + 4) + 4) 8 8 (x0 ++ 0#4 ++ x2) = _
  simp (disch := decide) only [ext_lo, ext_skip, ext_keep, ext_all, Nat.sub_self, Nat.reduceSub]

theorem shape2_2 (x0 : Bool) (x1 : BitVec 2) (x2 : BitVec 3) :
    BitVec.extractLsb' (n := 6) 0 3 (BitVec.ofBool x0 ++ x1 ++ x2) = x2 := by
  show BitVec.extractLsb' (n := (1 + 2) + 3) 0 3 (BitVec.ofBool x0 ++ x1 ++ x2) = _
  simp (disch := decide) only [ext_lo, ext_skip, ext_keep, ext_all, Nat.sub_self, Nat.reduceSub]

theorem shape2_1 (x0 : Bool) (x1 : BitVec 2) (x2 : BitVec 3) :
    BitVec.extractLsb' (n := 6) 3 2 (BitVec.ofBool x0 ++ x1 ++ x2) = x1 := by
  show BitVec.extractLsb' (n := (1 + 2) + 3) 3 2 (BitVec.ofBool x0 ++ x1 ++ x2) = _
  simp (disch := decide) only [ext_lo, ext_skip, ext_keep, ext_all, Nat.sub_self, Nat.reduceSub]

theorem shape2_0 (x0 : Bool) (x1 : BitVec 2) (x2 : BitVec 3) :
    BitVec.getLsbD (w := 6) (BitVec.ofBool x0 ++ x1 ++ x2) 5 = x0 := by
  show BitVec.getLsbD (w := (1 + 2) + 3) (BitVec.ofBool x0 ++ x1 ++ x2) 5 = _
  simp (disch := decide) only [bit_skip, bit_keep, ofBool_bit, Nat.sub_self, Nat.reduceSub]

theorem shape3_1 (x1 : BitVec 3) :
    BitVec.extractLsb' (n := 6) 0 3 (0#3 ++ x1) = x1 := by
  show BitVec.extractLsb' (n := 3 + 3) 0 3 (0#3 ++ x1) = _
  simp (disch := decide) only [ext_lo, ext_skip, ext_keep, ext_all, Nat.sub_self, Nat.reduceSub]

theorem shape3_0 (x1 : BitVec 3) :
    BitVec.extractLsb' (n := 6) 3 3 (0#3 ++ x1) = 0#3 := by
  show BitVec.extractLsb' (n := 3 + 3) 3 3 (0#3 ++ x1) = _
  simp (disch := decide) only [ext_lo, ext_skip, ext_keep, ext_all, Nat.sub_self, Nat.reduceSub]

theorem shape4_1 (x1 : BitVec 3) :
    BitVec.extractLsb' (n := 6) 0 3 (1#3 ++ x1) = x1 := by
  show BitVec.extractLsb' (n := 3 + 3) 0 3 (1#3 ++ x1) = _
  simp (disch := decide) only [ext_lo, ext_skip, ext_keep, ext_all, Nat.sub_self, Nat.reduceSub]

theorem shape4_0 (x1 : BitVec 3) :
    BitVec.extractLsb' (n := 6) 3 3 (1#3 ++ x1) = 1#3 := by
  show BitVec.extractLsb' (n := 3 + 3) 3 3 (1#3 ++ x1) = _
  simp (disch := decide) only [ext_lo, ext_skip, ext_keep, ext_all, Nat.sub_self, Nat.reduceSub]

theorem shape5_1 (x1 : BitVec 3) :
    BitVec.extractLsb' (n := 6) 0 3 (2#3 ++ x1) = x1 := by
  show BitVec.extractLsb' (n := 3 + 3) 0 3 (2#3 ++ x1) = _
  simp (disch := decide) only [ext_lo, ext_skip, ext_keep, ext_all, Nat.sub_self, Nat.reduceSub]

theorem shape5_0 (x1 : BitVec 3) :
    BitVec.extractLsb' (n := 6) 3 3 (2#3 ++ x1) = 2#3 := by
  show BitVec.extractLsb' (n := 3 + 3) 3 3 (2#3 ++ x1) = _
  simp (disch := decide) only [ext_lo, ext_skip, ext_keep, ext_all, Nat.sub_self, Nat.reduceSub]

theorem shape6_0  :
    BitVec.extractLsb' (n := 6) 3 3 (3#3 ++ 0#3) = 3#3 := by
  show BitVec.extractLsb' (n := 3 + 3) 3 3 (3#3 ++ 0#3) = _
  simp (disch := decide) only [ext_lo, ext_skip, ext_keep, ext_all, Nat.sub_self, Nat.reduceSub]

theorem shape7_2 (x1 : BitVec 2) (x2 : BitVec 2) :
    BitVec.extractLsb' (n := 6) 0 2 (0#2 ++ x1 ++ x2) = x2 := by
  show BitVec.extractLsb' (n := (2 + 2) + 2) 0 2 (0#2 ++ x1 ++ x2) = _
  simp (disch := decide) only [ext_lo, ext_skip, ext_keep, ext_all, Nat.sub_self, Nat.reduceSub]

theorem shape7_1 (x1 : BitVec 2) (x2 : BitVec 2) :
    BitVec.extractLsb' (n := 6) 2 2 (0#2 ++ x1 ++ x2) = x1 := by
  show BitVec.extractLsb' (n := (2 + 2) + 2) 2 2 (0#2 ++ x1 ++ x2) = _
  simp (disch := decide) only [ext_lo, ext_skip, ext_keep, ext_all, Nat.sub_self, Nat.reduceSub]

theorem shape8_1 (x1 : BitVec 2) :
    BitVec.extractLsb' (n := 6) 2 2 (0#2 ++ x1 ++ 0#2) = x1 := by
  show BitVec.extractLsb' (n := (2 + 2) + 2) 2 2 (0#2 ++ x1 ++ 0#2) = _
  simp (disch := decide) only [ext_lo, ext_skip, ext_keep, ext_all, Nat.sub_self, Nat.reduceSub]

theorem shape9_2 (x1 : Bool) (x2 : BitVec 3) :
    BitVec.extractLsb' (n := 6) 0 3 (0#2 ++ BitVec.ofBool x1 ++ x2) = x2 := by
  show BitVec.extractLsb' (n := (2 + 1) + 3) 0 3 (0#2 ++ BitVec.ofBool x1 ++ x2) = _
  simp (disch := decide) only [ext_lo, ext_skip, ext_keep, ext_all, Nat.sub_self, Nat.reduceSub]

theorem shape9_1 (x1 : Bool) (x2 : BitVec 3) :
    BitVec.getLsbD (w := 6) (0#2 ++ BitVec.ofBool x1 ++ x2) 3 = x1 := by
  show BitVec.getLsbD (w := (2 + 1) + 3) (0#2 ++ BitVec.ofBool x1 ++ x2) 3 = _
  simp (disch := decide) only [bit_skip, bit_keep, ofBool_bit, Nat.sub_self, Nat.reduceSub]

theorem shape10_3 (x1 : BitVec 4) (x2 : BitVec 3) (x3 : BitVec 5) :
    BitVec.extractLsb' (n := 16) 0 5 (0#4 ++ x1 ++ x2 ++ x3) = x3 := by
  show BitVec.extractLsb' (n := ((4 + 4) + 3) + 5) 0 5 (0#4 ++ x1 ++ x2 ++ x3) = _
  simp (disch := decide) only [ext_lo, ext_skip, ext_keep, ext_all, Nat.sub_self, Nat.reduceSub]

theorem shape10_2 (x1 : BitVec 4) (x2 : BitVec 3) (x3 : BitVec 5) :
    BitVec.extractLsb' (n := 16) 5 3 (0#4 ++ x1 ++ x2 ++ x3) = x2 := by
  show BitVec.extractLsb' (n := ((4 + 4) + 3) + 5) 5 3 (0#4 ++ x1 ++ x2 ++ x3) = _
  simp (disch := decide) only [ext_lo, ext_skip, ext_keep, ext_all, Nat.sub_self, Nat.reduceSub]

theorem shape10_1 (x1 : BitVec 4) (x2 : BitVec 3) (x3 : BitVec 5) :
    BitVec.extractLsb' (n := 16) 8 4 (0#4 ++ x1 ++ x2 ++ x3) = x1 := by
  show BitVec.extractLsb' (n := ((4 + 4) + 3) + 5) 8 4 (0#4 ++ x1 ++ x2 ++ x3) = _
  simp (disch := decide) only [ext_lo, ext_skip, ext_keep, ext_all, Nat.sub_self, Nat.reduceSub]

theorem shape11_2 (x1 : BitVec 6) (x2 : BitVec 6) :
    BitVec.extractLsb' (n := 16) 0 6 (0#4 ++ x1 ++ x2) = x2 := by
  show BitVec.extractLsb' (n := (4 + 6) + 6) 0 6 (0#4 ++ x1 ++ x2) = _
  simp (disch := decide) only [ext_lo, ext_skip, ext_keep, ext_all, Nat.sub_self, Nat.reduceSub]

theorem shape11_1 (x1 : BitVec 6) (x2 : BitVec 6) :
    BitVec.extractLsb' (n := 16) 6 6 (0#4 ++ x1 ++ x2) = x1 := by
  show BitVec.extractLsb' (n := (4 + 6) + 6) 6 6 (0#4 ++ x1 ++ x2) = _
  simp (disch := decide) only [ext_lo, ext_skip, ext_keep, ext_all, Nat.sub_self, Nat.reduceSub]

theorem shape12_2 (x1 : BitVec 3) (x2 : BitVec 5) :
    BitVec.extractLsb' (n := 16) 0 5 (0#8 ++ x1 ++ x2) = x2 := by
  show BitVec.extractLsb' (n := (8 + 3) + 5) 0 5 (0#8 ++ x1 ++ x2) = _
  simp (disch := decide) only [ext_lo, ext_skip, ext_keep, ext_all, Nat.sub_self, Nat.reduceSub]

theorem shape12_1 (x1 : BitVec 3) (x2 : BitVec 5) :
    BitVec.extractLsb' (n := 16) 5 3 (0#8 ++ x1 ++ x2) = x1 := by
  show BitVec.extractLsb' (n := (8 + 3) + 5) 5 3 (0#8 ++ x1 ++ x2) = _
  simp (disch := decide) only [ext_lo, ext_skip, ext_keep, ext_all, Nat.sub_self, Nat.reduceSub]

theorem shape13_3 (x1 : BitVec 3) (x3 : BitVec 4) :
    BitVec.extractLsb' (n := 16) 0 4 (0#8 ++ x1 ++ 0#1 ++ x3) = x3 := by
  show BitVec.extractLsb' (n := ((8 + 3) + 1) + 4) 0 4 (0#8 ++ x1 ++ 0#1 ++ x3) = _
  simp (disch := decide) only [ext_lo, ext_skip, ext_keep, ext_all, Nat.sub_self, Nat.reduceSub]

theorem shape13_1 (x1 : BitVec 3) (x3 : BitVec 4) :
    BitVec.extractLsb' (n := 16) 5 3 (0#8 ++ x1 ++ 0#1 ++ x3) = x1 := by
  show BitVec.extractLsb' (n := ((8 + 3) + 1) + 4) 5 3 (0#8 ++ x1 ++ 0#1 ++ x3) = _
  simp (disch := decide) only [ext_lo, ext_skip, ext_keep, ext_all, Nat.sub_self, Nat.reduceSub]

theorem shape14_1 (x1 : BitVec 3) :
    BitVec.extractLsb' (n := 16) 5 3 (0#8 ++ x1 ++ 0#5) = x1 := by
  show BitVec.extractLsb' (n := (8 + 3) + 5) 5 3 (0#8 ++ x1 ++ 0#5) = _
  simp (disch := decide) only [ext_lo, ext_skip, ext_keep, ext_all, Nat.sub_self, Nat.reduceSub]

theorem shape15_1  :
    BitVec.extractLsb' (n := 16) 0 1 (0#15 ++ 0#1) = 0#1 := by
  show BitVec.extractLsb' (n := 15 + 1) 0 1 (0#15 ++ 0#1) = _
  simp (disch := decide) only [ext_lo, ext_skip, ext_keep, ext_all, Nat.sub_self, Nat.reduceSub]

theorem shape16_1  :
    BitVec.extractLsb' (n := 16) 0 1 (0#15 ++ 1#1) = 1#1 := by
  show BitVec.extractLsb' (n := 15 + 1) 0 1 (0#15 ++ 1#1) = _
  simp (disch := decide) only [ext_lo, ext_skip, ext_keep, ext_all, Nat.sub_self, Nat.reduceSub]

theorem fields_addReg (gd : Guard) (s : Bool) (d : GIx) (a : GIx) (b : GIx) :
    fieldsOf (.addReg gd s d a b) = some {len := 0, maj := 0x01, gd := gd, s := s, d := d, a := a, b := b} := rfl

theorem pick_addReg (gd : Guard) (s : Bool) (d : GIx) (a : GIx) (b : GIx) :
    (fieldsOf (.addReg gd s d a b)).bind pickRow = some (.addReg gd s d a b) := by
  simp only [fields_addReg, Option.bind_some]
  simp (disch := decide) [-BitVec.getLsbD_eq_getElem, pickRow, pickRow0, set_set, ofBool_bit]

theorem fields_addImm (gd : Guard) (s : Bool) (d : GIx) (a : GIx) (imm : BitVec 6) :
    fieldsOf (.addImm gd s d a imm) = some {len := 0, maj := 0x02, gd := gd, s := s, d := d, a := a, b := imm} := rfl

theorem pick_addImm (gd : Guard) (s : Bool) (d : GIx) (a : GIx) (imm : BitVec 6) :
    (fieldsOf (.addImm gd s d a imm)).bind pickRow = some (.addImm gd s d a imm) := by
  simp only [fields_addImm, Option.bind_some]
  simp (disch := decide) [-BitVec.getLsbD_eq_getElem, pickRow, pickRow0, set_set, ofBool_bit]

theorem fields_addLit (gd : Guard) (s : Bool) (d : GIx) (a : GIx) (w : Word) :
    fieldsOf (.addLit gd s d a w) = some {len := 1, maj := 0x01, gd := gd, s := s, d := d, a := a, lit := w} := rfl

theorem pick_addLit (gd : Guard) (s : Bool) (d : GIx) (a : GIx) (w : Word) :
    (fieldsOf (.addLit gd s d a w)).bind pickRow = some (.addLit gd s d a w) := by
  simp only [fields_addLit, Option.bind_some]
  simp (disch := decide) [-BitVec.getLsbD_eq_getElem, pickRow, pickRow0, set_set, ofBool_bit]

theorem fields_subReg (gd : Guard) (s : Bool) (d : GIx) (a : GIx) (b : GIx) :
    fieldsOf (.subReg gd s d a b) = some {len := 0, maj := 0x03, gd := gd, s := s, d := d, a := a, b := b} := rfl

theorem pick_subReg (gd : Guard) (s : Bool) (d : GIx) (a : GIx) (b : GIx) :
    (fieldsOf (.subReg gd s d a b)).bind pickRow = some (.subReg gd s d a b) := by
  simp only [fields_subReg, Option.bind_some]
  simp (disch := decide) [-BitVec.getLsbD_eq_getElem, pickRow, pickRow0, set_set, ofBool_bit]

theorem fields_subImm (gd : Guard) (s : Bool) (d : GIx) (a : GIx) (imm : BitVec 6) :
    fieldsOf (.subImm gd s d a imm) = some {len := 0, maj := 0x04, gd := gd, s := s, d := d, a := a, b := imm} := rfl

theorem pick_subImm (gd : Guard) (s : Bool) (d : GIx) (a : GIx) (imm : BitVec 6) :
    (fieldsOf (.subImm gd s d a imm)).bind pickRow = some (.subImm gd s d a imm) := by
  simp only [fields_subImm, Option.bind_some]
  simp (disch := decide) [-BitVec.getLsbD_eq_getElem, pickRow, pickRow0, set_set, ofBool_bit]

theorem fields_subLit (gd : Guard) (s : Bool) (d : GIx) (a : GIx) (w : Word) :
    fieldsOf (.subLit gd s d a w) = some {len := 1, maj := 0x03, gd := gd, s := s, d := d, a := a, lit := w} := rfl

theorem pick_subLit (gd : Guard) (s : Bool) (d : GIx) (a : GIx) (w : Word) :
    (fieldsOf (.subLit gd s d a w)).bind pickRow = some (.subLit gd s d a w) := by
  simp only [fields_subLit, Option.bind_some]
  simp (disch := decide) [-BitVec.getLsbD_eq_getElem, pickRow, pickRow0, set_set, ofBool_bit]

theorem fields_mulReg (gd : Guard) (s : Bool) (d : GIx) (a : GIx) (b : GIx) :
    fieldsOf (.mulReg gd s d a b) = some {len := 0, maj := 0x05, gd := gd, s := s, d := d, a := a, b := b} := rfl

theorem pick_mulReg (gd : Guard) (s : Bool) (d : GIx) (a : GIx) (b : GIx) :
    (fieldsOf (.mulReg gd s d a b)).bind pickRow = some (.mulReg gd s d a b) := by
  simp only [fields_mulReg, Option.bind_some]
  simp (disch := decide) [-BitVec.getLsbD_eq_getElem, pickRow, pickRow0, set_set, ofBool_bit]

theorem fields_mulImm (gd : Guard) (s : Bool) (d : GIx) (a : GIx) (imm : BitVec 6) :
    fieldsOf (.mulImm gd s d a imm) = some {len := 0, maj := 0x06, gd := gd, s := s, d := d, a := a, b := imm} := rfl

theorem pick_mulImm (gd : Guard) (s : Bool) (d : GIx) (a : GIx) (imm : BitVec 6) :
    (fieldsOf (.mulImm gd s d a imm)).bind pickRow = some (.mulImm gd s d a imm) := by
  simp only [fields_mulImm, Option.bind_some]
  simp (disch := decide) [-BitVec.getLsbD_eq_getElem, pickRow, pickRow0, set_set, ofBool_bit]

theorem fields_mulLit (gd : Guard) (s : Bool) (d : GIx) (a : GIx) (w : Word) :
    fieldsOf (.mulLit gd s d a w) = some {len := 1, maj := 0x05, gd := gd, s := s, d := d, a := a, lit := w} := rfl

theorem pick_mulLit (gd : Guard) (s : Bool) (d : GIx) (a : GIx) (w : Word) :
    (fieldsOf (.mulLit gd s d a w)).bind pickRow = some (.mulLit gd s d a w) := by
  simp only [fields_mulLit, Option.bind_some]
  simp (disch := decide) [-BitVec.getLsbD_eq_getElem, pickRow, pickRow0, set_set, ofBool_bit]

theorem fields_andReg (gd : Guard) (s : Bool) (d : GIx) (a : GIx) (b : GIx) :
    fieldsOf (.andReg gd s d a b) = some {len := 0, maj := 0x07, gd := gd, s := s, d := d, a := a, b := b} := rfl

theorem pick_andReg (gd : Guard) (s : Bool) (d : GIx) (a : GIx) (b : GIx) :
    (fieldsOf (.andReg gd s d a b)).bind pickRow = some (.andReg gd s d a b) := by
  simp only [fields_andReg, Option.bind_some]
  simp (disch := decide) [-BitVec.getLsbD_eq_getElem, pickRow, pickRow0, set_set, ofBool_bit]

theorem fields_andImm (gd : Guard) (s : Bool) (d : GIx) (a : GIx) (imm : BitVec 6) :
    fieldsOf (.andImm gd s d a imm) = some {len := 0, maj := 0x08, gd := gd, s := s, d := d, a := a, b := imm} := rfl

theorem pick_andImm (gd : Guard) (s : Bool) (d : GIx) (a : GIx) (imm : BitVec 6) :
    (fieldsOf (.andImm gd s d a imm)).bind pickRow = some (.andImm gd s d a imm) := by
  simp only [fields_andImm, Option.bind_some]
  simp (disch := decide) [-BitVec.getLsbD_eq_getElem, pickRow, pickRow1, set_set, ofBool_bit]

theorem fields_andLit (gd : Guard) (s : Bool) (d : GIx) (a : GIx) (w : Word) :
    fieldsOf (.andLit gd s d a w) = some {len := 1, maj := 0x07, gd := gd, s := s, d := d, a := a, lit := w} := rfl

theorem pick_andLit (gd : Guard) (s : Bool) (d : GIx) (a : GIx) (w : Word) :
    (fieldsOf (.andLit gd s d a w)).bind pickRow = some (.andLit gd s d a w) := by
  simp only [fields_andLit, Option.bind_some]
  simp (disch := decide) [-BitVec.getLsbD_eq_getElem, pickRow, pickRow0, set_set, ofBool_bit]

theorem fields_orReg (gd : Guard) (s : Bool) (d : GIx) (a : GIx) (b : GIx) :
    fieldsOf (.orReg gd s d a b) = some {len := 0, maj := 0x09, gd := gd, s := s, d := d, a := a, b := b} := rfl

theorem pick_orReg (gd : Guard) (s : Bool) (d : GIx) (a : GIx) (b : GIx) :
    (fieldsOf (.orReg gd s d a b)).bind pickRow = some (.orReg gd s d a b) := by
  simp only [fields_orReg, Option.bind_some]
  simp (disch := decide) [-BitVec.getLsbD_eq_getElem, pickRow, pickRow1, set_set, ofBool_bit]

theorem fields_orImm (gd : Guard) (s : Bool) (d : GIx) (a : GIx) (imm : BitVec 6) :
    fieldsOf (.orImm gd s d a imm) = some {len := 0, maj := 0x0A, gd := gd, s := s, d := d, a := a, b := imm} := rfl

theorem pick_orImm (gd : Guard) (s : Bool) (d : GIx) (a : GIx) (imm : BitVec 6) :
    (fieldsOf (.orImm gd s d a imm)).bind pickRow = some (.orImm gd s d a imm) := by
  simp only [fields_orImm, Option.bind_some]
  simp (disch := decide) [-BitVec.getLsbD_eq_getElem, pickRow, pickRow1, set_set, ofBool_bit]

theorem fields_orLit (gd : Guard) (s : Bool) (d : GIx) (a : GIx) (w : Word) :
    fieldsOf (.orLit gd s d a w) = some {len := 1, maj := 0x09, gd := gd, s := s, d := d, a := a, lit := w} := rfl

theorem pick_orLit (gd : Guard) (s : Bool) (d : GIx) (a : GIx) (w : Word) :
    (fieldsOf (.orLit gd s d a w)).bind pickRow = some (.orLit gd s d a w) := by
  simp only [fields_orLit, Option.bind_some]
  simp (disch := decide) [-BitVec.getLsbD_eq_getElem, pickRow, pickRow1, set_set, ofBool_bit]

theorem fields_xorReg (gd : Guard) (s : Bool) (d : GIx) (a : GIx) (b : GIx) :
    fieldsOf (.xorReg gd s d a b) = some {len := 0, maj := 0x0B, gd := gd, s := s, d := d, a := a, b := b} := rfl

theorem pick_xorReg (gd : Guard) (s : Bool) (d : GIx) (a : GIx) (b : GIx) :
    (fieldsOf (.xorReg gd s d a b)).bind pickRow = some (.xorReg gd s d a b) := by
  simp only [fields_xorReg, Option.bind_some]
  simp (disch := decide) [-BitVec.getLsbD_eq_getElem, pickRow, pickRow1, set_set, ofBool_bit]

theorem fields_xorImm (gd : Guard) (s : Bool) (d : GIx) (a : GIx) (imm : BitVec 6) :
    fieldsOf (.xorImm gd s d a imm) = some {len := 0, maj := 0x0C, gd := gd, s := s, d := d, a := a, b := imm} := rfl

theorem pick_xorImm (gd : Guard) (s : Bool) (d : GIx) (a : GIx) (imm : BitVec 6) :
    (fieldsOf (.xorImm gd s d a imm)).bind pickRow = some (.xorImm gd s d a imm) := by
  simp only [fields_xorImm, Option.bind_some]
  simp (disch := decide) [-BitVec.getLsbD_eq_getElem, pickRow, pickRow1, set_set, ofBool_bit]

theorem fields_xorLit (gd : Guard) (s : Bool) (d : GIx) (a : GIx) (w : Word) :
    fieldsOf (.xorLit gd s d a w) = some {len := 1, maj := 0x0B, gd := gd, s := s, d := d, a := a, lit := w} := rfl

theorem pick_xorLit (gd : Guard) (s : Bool) (d : GIx) (a : GIx) (w : Word) :
    (fieldsOf (.xorLit gd s d a w)).bind pickRow = some (.xorLit gd s d a w) := by
  simp only [fields_xorLit, Option.bind_some]
  simp (disch := decide) [-BitVec.getLsbD_eq_getElem, pickRow, pickRow1, set_set, ofBool_bit]

theorem fields_shlReg (gd : Guard) (s : Bool) (d : GIx) (a : GIx) (b : GIx) :
    fieldsOf (.shlReg gd s d a b) = some {len := 0, maj := 0x0D, gd := gd, s := s, d := d, a := a, b := b} := rfl

theorem pick_shlReg (gd : Guard) (s : Bool) (d : GIx) (a : GIx) (b : GIx) :
    (fieldsOf (.shlReg gd s d a b)).bind pickRow = some (.shlReg gd s d a b) := by
  simp only [fields_shlReg, Option.bind_some]
  simp (disch := decide) [-BitVec.getLsbD_eq_getElem, pickRow, pickRow1, set_set, ofBool_bit]

theorem fields_shlImm (gd : Guard) (s : Bool) (d : GIx) (a : GIx) (imm : BitVec 6) :
    fieldsOf (.shlImm gd s d a imm) = some {len := 0, maj := 0x0E, gd := gd, s := s, d := d, a := a, b := imm} := rfl

theorem pick_shlImm (gd : Guard) (s : Bool) (d : GIx) (a : GIx) (imm : BitVec 6) :
    (fieldsOf (.shlImm gd s d a imm)).bind pickRow = some (.shlImm gd s d a imm) := by
  simp only [fields_shlImm, Option.bind_some]
  simp (disch := decide) [-BitVec.getLsbD_eq_getElem, pickRow, pickRow1, set_set, ofBool_bit]

theorem fields_shlLit (gd : Guard) (s : Bool) (d : GIx) (a : GIx) (w : Word) :
    fieldsOf (.shlLit gd s d a w) = some {len := 1, maj := 0x0D, gd := gd, s := s, d := d, a := a, lit := w} := rfl

theorem pick_shlLit (gd : Guard) (s : Bool) (d : GIx) (a : GIx) (w : Word) :
    (fieldsOf (.shlLit gd s d a w)).bind pickRow = some (.shlLit gd s d a w) := by
  simp only [fields_shlLit, Option.bind_some]
  simp (disch := decide) [-BitVec.getLsbD_eq_getElem, pickRow, pickRow1, set_set, ofBool_bit]

theorem fields_shrReg (gd : Guard) (s : Bool) (d : GIx) (a : GIx) (b : GIx) :
    fieldsOf (.shrReg gd s d a b) = some {len := 0, maj := 0x0F, gd := gd, s := s, d := d, a := a, b := b} := rfl

theorem pick_shrReg (gd : Guard) (s : Bool) (d : GIx) (a : GIx) (b : GIx) :
    (fieldsOf (.shrReg gd s d a b)).bind pickRow = some (.shrReg gd s d a b) := by
  simp only [fields_shrReg, Option.bind_some]
  simp (disch := decide) [-BitVec.getLsbD_eq_getElem, pickRow, pickRow1, set_set, ofBool_bit]

theorem fields_shrImm (gd : Guard) (s : Bool) (d : GIx) (a : GIx) (imm : BitVec 6) :
    fieldsOf (.shrImm gd s d a imm) = some {len := 0, maj := 0x10, gd := gd, s := s, d := d, a := a, b := imm} := rfl

theorem pick_shrImm (gd : Guard) (s : Bool) (d : GIx) (a : GIx) (imm : BitVec 6) :
    (fieldsOf (.shrImm gd s d a imm)).bind pickRow = some (.shrImm gd s d a imm) := by
  simp only [fields_shrImm, Option.bind_some]
  simp (disch := decide) [-BitVec.getLsbD_eq_getElem, pickRow, pickRow2, set_set, ofBool_bit]

theorem fields_shrLit (gd : Guard) (s : Bool) (d : GIx) (a : GIx) (w : Word) :
    fieldsOf (.shrLit gd s d a w) = some {len := 1, maj := 0x0F, gd := gd, s := s, d := d, a := a, lit := w} := rfl

theorem pick_shrLit (gd : Guard) (s : Bool) (d : GIx) (a : GIx) (w : Word) :
    (fieldsOf (.shrLit gd s d a w)).bind pickRow = some (.shrLit gd s d a w) := by
  simp only [fields_shrLit, Option.bind_some]
  simp (disch := decide) [-BitVec.getLsbD_eq_getElem, pickRow, pickRow1, set_set, ofBool_bit]

theorem fields_sraReg (gd : Guard) (s : Bool) (d : GIx) (a : GIx) (b : GIx) :
    fieldsOf (.sraReg gd s d a b) = some {len := 0, maj := 0x11, gd := gd, s := s, d := d, a := a, b := b} := rfl

theorem pick_sraReg (gd : Guard) (s : Bool) (d : GIx) (a : GIx) (b : GIx) :
    (fieldsOf (.sraReg gd s d a b)).bind pickRow = some (.sraReg gd s d a b) := by
  simp only [fields_sraReg, Option.bind_some]
  simp (disch := decide) [-BitVec.getLsbD_eq_getElem, pickRow, pickRow2, set_set, ofBool_bit]

theorem fields_sraImm (gd : Guard) (s : Bool) (d : GIx) (a : GIx) (imm : BitVec 6) :
    fieldsOf (.sraImm gd s d a imm) = some {len := 0, maj := 0x12, gd := gd, s := s, d := d, a := a, b := imm} := rfl

theorem pick_sraImm (gd : Guard) (s : Bool) (d : GIx) (a : GIx) (imm : BitVec 6) :
    (fieldsOf (.sraImm gd s d a imm)).bind pickRow = some (.sraImm gd s d a imm) := by
  simp only [fields_sraImm, Option.bind_some]
  simp (disch := decide) [-BitVec.getLsbD_eq_getElem, pickRow, pickRow2, set_set, ofBool_bit]

theorem fields_sraLit (gd : Guard) (s : Bool) (d : GIx) (a : GIx) (w : Word) :
    fieldsOf (.sraLit gd s d a w) = some {len := 1, maj := 0x11, gd := gd, s := s, d := d, a := a, lit := w} := rfl

theorem pick_sraLit (gd : Guard) (s : Bool) (d : GIx) (a : GIx) (w : Word) :
    (fieldsOf (.sraLit gd s d a w)).bind pickRow = some (.sraLit gd s d a w) := by
  simp only [fields_sraLit, Option.bind_some]
  simp (disch := decide) [-BitVec.getLsbD_eq_getElem, pickRow, pickRow2, set_set, ofBool_bit]

theorem fields_rolReg (gd : Guard) (s : Bool) (d : GIx) (a : GIx) (b : GIx) :
    fieldsOf (.rolReg gd s d a b) = some {len := 0, maj := 0x13, gd := gd, s := s, d := d, a := a, b := b} := rfl

theorem pick_rolReg (gd : Guard) (s : Bool) (d : GIx) (a : GIx) (b : GIx) :
    (fieldsOf (.rolReg gd s d a b)).bind pickRow = some (.rolReg gd s d a b) := by
  simp only [fields_rolReg, Option.bind_some]
  simp (disch := decide) [-BitVec.getLsbD_eq_getElem, pickRow, pickRow2, set_set, ofBool_bit]

theorem fields_rolImm (gd : Guard) (s : Bool) (d : GIx) (a : GIx) (imm : BitVec 6) :
    fieldsOf (.rolImm gd s d a imm) = some {len := 0, maj := 0x14, gd := gd, s := s, d := d, a := a, b := imm} := rfl

theorem pick_rolImm (gd : Guard) (s : Bool) (d : GIx) (a : GIx) (imm : BitVec 6) :
    (fieldsOf (.rolImm gd s d a imm)).bind pickRow = some (.rolImm gd s d a imm) := by
  simp only [fields_rolImm, Option.bind_some]
  simp (disch := decide) [-BitVec.getLsbD_eq_getElem, pickRow, pickRow2, set_set, ofBool_bit]

theorem fields_rolLit (gd : Guard) (s : Bool) (d : GIx) (a : GIx) (w : Word) :
    fieldsOf (.rolLit gd s d a w) = some {len := 1, maj := 0x13, gd := gd, s := s, d := d, a := a, lit := w} := rfl

theorem pick_rolLit (gd : Guard) (s : Bool) (d : GIx) (a : GIx) (w : Word) :
    (fieldsOf (.rolLit gd s d a w)).bind pickRow = some (.rolLit gd s d a w) := by
  simp only [fields_rolLit, Option.bind_some]
  simp (disch := decide) [-BitVec.getLsbD_eq_getElem, pickRow, pickRow2, set_set, ofBool_bit]

theorem fields_minReg (gd : Guard) (s : Bool) (d : GIx) (a : GIx) (b : GIx) :
    fieldsOf (.minReg gd s d a b) = some {len := 0, maj := 0x15, gd := gd, s := s, d := d, a := a, b := b} := rfl

theorem pick_minReg (gd : Guard) (s : Bool) (d : GIx) (a : GIx) (b : GIx) :
    (fieldsOf (.minReg gd s d a b)).bind pickRow = some (.minReg gd s d a b) := by
  simp only [fields_minReg, Option.bind_some]
  simp (disch := decide) [-BitVec.getLsbD_eq_getElem, pickRow, pickRow2, set_set, ofBool_bit]

theorem fields_minImm (gd : Guard) (s : Bool) (d : GIx) (a : GIx) (imm : BitVec 6) :
    fieldsOf (.minImm gd s d a imm) = some {len := 0, maj := 0x16, gd := gd, s := s, d := d, a := a, b := imm} := rfl

theorem pick_minImm (gd : Guard) (s : Bool) (d : GIx) (a : GIx) (imm : BitVec 6) :
    (fieldsOf (.minImm gd s d a imm)).bind pickRow = some (.minImm gd s d a imm) := by
  simp only [fields_minImm, Option.bind_some]
  simp (disch := decide) [-BitVec.getLsbD_eq_getElem, pickRow, pickRow2, set_set, ofBool_bit]

theorem fields_minLit (gd : Guard) (s : Bool) (d : GIx) (a : GIx) (w : Word) :
    fieldsOf (.minLit gd s d a w) = some {len := 1, maj := 0x15, gd := gd, s := s, d := d, a := a, lit := w} := rfl

theorem pick_minLit (gd : Guard) (s : Bool) (d : GIx) (a : GIx) (w : Word) :
    (fieldsOf (.minLit gd s d a w)).bind pickRow = some (.minLit gd s d a w) := by
  simp only [fields_minLit, Option.bind_some]
  simp (disch := decide) [-BitVec.getLsbD_eq_getElem, pickRow, pickRow2, set_set, ofBool_bit]

theorem fields_maxReg (gd : Guard) (s : Bool) (d : GIx) (a : GIx) (b : GIx) :
    fieldsOf (.maxReg gd s d a b) = some {len := 0, maj := 0x17, gd := gd, s := s, d := d, a := a, b := b} := rfl

theorem pick_maxReg (gd : Guard) (s : Bool) (d : GIx) (a : GIx) (b : GIx) :
    (fieldsOf (.maxReg gd s d a b)).bind pickRow = some (.maxReg gd s d a b) := by
  simp only [fields_maxReg, Option.bind_some]
  simp (disch := decide) [-BitVec.getLsbD_eq_getElem, pickRow, pickRow2, set_set, ofBool_bit]

theorem fields_maxImm (gd : Guard) (s : Bool) (d : GIx) (a : GIx) (imm : BitVec 6) :
    fieldsOf (.maxImm gd s d a imm) = some {len := 0, maj := 0x18, gd := gd, s := s, d := d, a := a, b := imm} := rfl

theorem pick_maxImm (gd : Guard) (s : Bool) (d : GIx) (a : GIx) (imm : BitVec 6) :
    (fieldsOf (.maxImm gd s d a imm)).bind pickRow = some (.maxImm gd s d a imm) := by
  simp only [fields_maxImm, Option.bind_some]
  simp (disch := decide) [-BitVec.getLsbD_eq_getElem, pickRow, pickRow3, set_set, ofBool_bit]

theorem fields_maxLit (gd : Guard) (s : Bool) (d : GIx) (a : GIx) (w : Word) :
    fieldsOf (.maxLit gd s d a w) = some {len := 1, maj := 0x17, gd := gd, s := s, d := d, a := a, lit := w} := rfl

theorem pick_maxLit (gd : Guard) (s : Bool) (d : GIx) (a : GIx) (w : Word) :
    (fieldsOf (.maxLit gd s d a w)).bind pickRow = some (.maxLit gd s d a w) := by
  simp only [fields_maxLit, Option.bind_some]
  simp (disch := decide) [-BitVec.getLsbD_eq_getElem, pickRow, pickRow2, set_set, ofBool_bit]

theorem fields_minnReg (gd : Guard) (s : Bool) (d : GIx) (a : GIx) (b : GIx) :
    fieldsOf (.minnReg gd s d a b) = some {len := 0, maj := 0x19, gd := gd, s := s, d := d, a := a, b := b} := rfl

theorem pick_minnReg (gd : Guard) (s : Bool) (d : GIx) (a : GIx) (b : GIx) :
    (fieldsOf (.minnReg gd s d a b)).bind pickRow = some (.minnReg gd s d a b) := by
  simp only [fields_minnReg, Option.bind_some]
  simp (disch := decide) [-BitVec.getLsbD_eq_getElem, pickRow, pickRow3, set_set, ofBool_bit]

theorem fields_minnLit (gd : Guard) (s : Bool) (d : GIx) (a : GIx) (w : Word) :
    fieldsOf (.minnLit gd s d a w) = some {len := 1, maj := 0x19, gd := gd, s := s, d := d, a := a, lit := w} := rfl

theorem pick_minnLit (gd : Guard) (s : Bool) (d : GIx) (a : GIx) (w : Word) :
    (fieldsOf (.minnLit gd s d a w)).bind pickRow = some (.minnLit gd s d a w) := by
  simp only [fields_minnLit, Option.bind_some]
  simp (disch := decide) [-BitVec.getLsbD_eq_getElem, pickRow, pickRow3, set_set, ofBool_bit]

theorem fields_maxnReg (gd : Guard) (s : Bool) (d : GIx) (a : GIx) (b : GIx) :
    fieldsOf (.maxnReg gd s d a b) = some {len := 0, maj := 0x1A, gd := gd, s := s, d := d, a := a, b := b} := rfl

theorem pick_maxnReg (gd : Guard) (s : Bool) (d : GIx) (a : GIx) (b : GIx) :
    (fieldsOf (.maxnReg gd s d a b)).bind pickRow = some (.maxnReg gd s d a b) := by
  simp only [fields_maxnReg, Option.bind_some]
  simp (disch := decide) [-BitVec.getLsbD_eq_getElem, pickRow, pickRow3, set_set, ofBool_bit]

theorem fields_maxnLit (gd : Guard) (s : Bool) (d : GIx) (a : GIx) (w : Word) :
    fieldsOf (.maxnLit gd s d a w) = some {len := 1, maj := 0x1A, gd := gd, s := s, d := d, a := a, lit := w} := rfl

theorem pick_maxnLit (gd : Guard) (s : Bool) (d : GIx) (a : GIx) (w : Word) :
    (fieldsOf (.maxnLit gd s d a w)).bind pickRow = some (.maxnLit gd s d a w) := by
  simp only [fields_maxnLit, Option.bind_some]
  simp (disch := decide) [-BitVec.getLsbD_eq_getElem, pickRow, pickRow3, set_set, ofBool_bit]

theorem fields_andnReg (gd : Guard) (s : Bool) (d : GIx) (a : GIx) (b : GIx) :
    fieldsOf (.andnReg gd s d a b) = some {len := 0, maj := 0x1B, gd := gd, s := s, d := d, a := a, b := b} := rfl

theorem pick_andnReg (gd : Guard) (s : Bool) (d : GIx) (a : GIx) (b : GIx) :
    (fieldsOf (.andnReg gd s d a b)).bind pickRow = some (.andnReg gd s d a b) := by
  simp only [fields_andnReg, Option.bind_some]
  simp (disch := decide) [-BitVec.getLsbD_eq_getElem, pickRow, pickRow3, set_set, ofBool_bit]

theorem fields_andnLit (gd : Guard) (s : Bool) (d : GIx) (a : GIx) (w : Word) :
    fieldsOf (.andnLit gd s d a w) = some {len := 1, maj := 0x1B, gd := gd, s := s, d := d, a := a, lit := w} := rfl

theorem pick_andnLit (gd : Guard) (s : Bool) (d : GIx) (a : GIx) (w : Word) :
    (fieldsOf (.andnLit gd s d a w)).bind pickRow = some (.andnLit gd s d a w) := by
  simp only [fields_andnLit, Option.bind_some]
  simp (disch := decide) [-BitVec.getLsbD_eq_getElem, pickRow, pickRow3, set_set, ofBool_bit]

theorem fields_ornReg (gd : Guard) (s : Bool) (d : GIx) (a : GIx) (b : GIx) :
    fieldsOf (.ornReg gd s d a b) = some {len := 0, maj := 0x1C, gd := gd, s := s, d := d, a := a, b := b} := rfl

theorem pick_ornReg (gd : Guard) (s : Bool) (d : GIx) (a : GIx) (b : GIx) :
    (fieldsOf (.ornReg gd s d a b)).bind pickRow = some (.ornReg gd s d a b) := by
  simp only [fields_ornReg, Option.bind_some]
  simp (disch := decide) [-BitVec.getLsbD_eq_getElem, pickRow, pickRow3, set_set, ofBool_bit]

theorem fields_ornLit (gd : Guard) (s : Bool) (d : GIx) (a : GIx) (w : Word) :
    fieldsOf (.ornLit gd s d a w) = some {len := 1, maj := 0x1C, gd := gd, s := s, d := d, a := a, lit := w} := rfl

theorem pick_ornLit (gd : Guard) (s : Bool) (d : GIx) (a : GIx) (w : Word) :
    (fieldsOf (.ornLit gd s d a w)).bind pickRow = some (.ornLit gd s d a w) := by
  simp only [fields_ornLit, Option.bind_some]
  simp (disch := decide) [-BitVec.getLsbD_eq_getElem, pickRow, pickRow3, set_set, ofBool_bit]

theorem fields_mulh (gd : Guard) (s : Bool) (d : GIx) (a : GIx) (b : OpB) :
    fieldsOf (.mulh gd s d a b) = some {len := b.len, maj := 0x1D, gd := gd, s := s, d := d, a := a, min := 0#4, b := b.fld, lit := b.litw} := rfl

theorem pick_mulh (gd : Guard) (s : Bool) (d : GIx) (a : GIx) (b : OpB) :
    (fieldsOf (.mulh gd s d a b)).bind pickRow = some (.mulh gd s d a b) := by
  simp only [fields_mulh, Option.bind_some]
  cases b <;>
  simp (disch := decide) [-BitVec.getLsbD_eq_getElem, pickRow, pickRow3, OpB.len, OpB.fld, OpB.litw, Fields.opB, Fields.opA, set_set, ofBool_bit]

theorem fields_mulhn (gd : Guard) (s : Bool) (d : GIx) (a : GIx) (b : OpB) :
    fieldsOf (.mulhn gd s d a b) = some {len := b.len, maj := 0x1D, gd := gd, s := s, d := d, a := a, min := 1#4, b := b.fld, lit := b.litw} := rfl

theorem pick_mulhn (gd : Guard) (s : Bool) (d : GIx) (a : GIx) (b : OpB) :
    (fieldsOf (.mulhn gd s d a b)).bind pickRow = some (.mulhn gd s d a b) := by
  simp only [fields_mulhn, Option.bind_some]
  cases b <;>
  simp (disch := decide) [-BitVec.getLsbD_eq_getElem, pickRow, pickRow3, OpB.len, OpB.fld, OpB.litw, Fields.opB, Fields.opA, set_set, ofBool_bit]

theorem fields_div (gd : Guard) (s : Bool) (d : GIx) (a : GIx) (b : OpB) :
    fieldsOf (.div gd s d a b) = some {len := b.len, maj := 0x1D, gd := gd, s := s, d := d, a := a, min := 2#4, b := b.fld, lit := b.litw} := rfl

theorem pick_div (gd : Guard) (s : Bool) (d : GIx) (a : GIx) (b : OpB) :
    (fieldsOf (.div gd s d a b)).bind pickRow = some (.div gd s d a b) := by
  simp only [fields_div, Option.bind_some]
  cases b <;>
  simp (disch := decide) [-BitVec.getLsbD_eq_getElem, pickRow, pickRow3, OpB.len, OpB.fld, OpB.litw, Fields.opB, Fields.opA, set_set, ofBool_bit]

theorem fields_divn (gd : Guard) (s : Bool) (d : GIx) (a : GIx) (b : OpB) :
    fieldsOf (.divn gd s d a b) = some {len := b.len, maj := 0x1D, gd := gd, s := s, d := d, a := a, min := 3#4, b := b.fld, lit := b.litw} := rfl

theorem pick_divn (gd : Guard) (s : Bool) (d : GIx) (a : GIx) (b : OpB) :
    (fieldsOf (.divn gd s d a b)).bind pickRow = some (.divn gd s d a b) := by
  simp only [fields_divn, Option.bind_some]
  cases b <;>
  simp (disch := decide) [-BitVec.getLsbD_eq_getElem, pickRow, pickRow3, OpB.len, OpB.fld, OpB.litw, Fields.opB, Fields.opA, set_set, ofBool_bit]

theorem fields_rem (gd : Guard) (s : Bool) (d : GIx) (a : GIx) (b : OpB) :
    fieldsOf (.rem gd s d a b) = some {len := b.len, maj := 0x1D, gd := gd, s := s, d := d, a := a, min := 4#4, b := b.fld, lit := b.litw} := rfl

theorem pick_rem (gd : Guard) (s : Bool) (d : GIx) (a : GIx) (b : OpB) :
    (fieldsOf (.rem gd s d a b)).bind pickRow = some (.rem gd s d a b) := by
  simp only [fields_rem, Option.bind_some]
  cases b <;>
  simp (disch := decide) [-BitVec.getLsbD_eq_getElem, pickRow, pickRow3, OpB.len, OpB.fld, OpB.litw, Fields.opB, Fields.opA, set_set, ofBool_bit]

theorem fields_remn (gd : Guard) (s : Bool) (d : GIx) (a : GIx) (b : OpB) :
    fieldsOf (.remn gd s d a b) = some {len := b.len, maj := 0x1D, gd := gd, s := s, d := d, a := a, min := 5#4, b := b.fld, lit := b.litw} := rfl

theorem pick_remn (gd : Guard) (s : Bool) (d : GIx) (a : GIx) (b : OpB) :
    (fieldsOf (.remn gd s d a b)).bind pickRow = some (.remn gd s d a b) := by
  simp only [fields_remn, Option.bind_some]
  cases b <;>
  simp (disch := decide) [-BitVec.getLsbD_eq_getElem, pickRow, pickRow3, OpB.len, OpB.fld, OpB.litw, Fields.opB, Fields.opA, set_set, ofBool_bit]

theorem fields_mad (gd : Guard) (s : Bool) (d : GIx) (a : GIx) (b : OpB) (c : GIx) :
    fieldsOf (.mad gd s d a b c) = some {len := b.len, maj := 0x1D, gd := gd, s := s, d := d, a := a, c := c, min := 6#4, b := b.fld, lit := b.litw} := rfl

theorem pick_mad (gd : Guard) (s : Bool) (d : GIx) (a : GIx) (b : OpB) (c : GIx) :
    (fieldsOf (.mad gd s d a b c)).bind pickRow = some (.mad gd s d a b c) := by
  simp only [fields_mad, Option.bind_some]
  cases b <;>
  simp (disch := decide) [-BitVec.getLsbD_eq_getElem, pickRow, pickRow3, OpB.len, OpB.fld, OpB.litw, Fields.opB, Fields.opA, set_set, ofBool_bit]

theorem fields_clz (gd : Guard) (s : Bool) (d : GIx) (a : GIx) :
    fieldsOf (.clz gd s d a) = some {len := 0, maj := 0x1E, gd := gd, s := s, d := d, a := a, b := 0#6} := rfl

theorem pick_clz (gd : Guard) (s : Bool) (d : GIx) (a : GIx) :
    (fieldsOf (.clz gd s d a)).bind pickRow = some (.clz gd s d a) := by
  simp only [fields_clz, Option.bind_some]
  simp (disch := decide) [-BitVec.getLsbD_eq_getElem, pickRow, pickRow3, set_set, ofBool_bit]

theorem fields_ctz (gd : Guard) (s : Bool) (d : GIx) (a : GIx) :
    fieldsOf (.ctz gd s d a) = some {len := 0, maj := 0x1E, gd := gd, s := s, d := d, a := a, b := 1#6} := rfl

theorem pick_ctz (gd : Guard) (s : Bool) (d : GIx) (a : GIx) :
    (fieldsOf (.ctz gd s d a)).bind pickRow = some (.ctz gd s d a) := by
  simp only [fields_ctz, Option.bind_some]
  simp (disch := decide) [-BitVec.getLsbD_eq_getElem, pickRow, pickRow3, set_set, ofBool_bit]

theorem fields_popc (gd : Guard) (s : Bool) (d : GIx) (a : GIx) :
    fieldsOf (.popc gd s d a) = some {len := 0, maj := 0x1E, gd := gd, s := s, d := d, a := a, b := 2#6} := rfl

theorem pick_popc (gd : Guard) (s : Bool) (d : GIx) (a : GIx) :
    (fieldsOf (.popc gd s d a)).bind pickRow = some (.popc gd s d a) := by
  simp only [fields_popc, Option.bind_some]
  simp (disch := decide) [-BitVec.getLsbD_eq_getElem, pickRow, pickRow3, set_set, ofBool_bit]

theorem fields_brev (gd : Guard) (s : Bool) (d : GIx) (a : GIx) :
    fieldsOf (.brev gd s d a) = some {len := 0, maj := 0x1E, gd := gd, s := s, d := d, a := a, b := 3#6} := rfl

theorem pick_brev (gd : Guard) (s : Bool) (d : GIx) (a : GIx) :
    (fieldsOf (.brev gd s d a)).bind pickRow = some (.brev gd s d a) := by
  simp only [fields_brev, Option.bind_some]
  simp (disch := decide) [-BitVec.getLsbD_eq_getElem, pickRow, pickRow3, set_set, ofBool_bit]

theorem fields_bswap (gd : Guard) (s : Bool) (d : GIx) (a : GIx) :
    fieldsOf (.bswap gd s d a) = some {len := 0, maj := 0x1E, gd := gd, s := s, d := d, a := a, b := 4#6} := rfl

theorem pick_bswap (gd : Guard) (s : Bool) (d : GIx) (a : GIx) :
    (fieldsOf (.bswap gd s d a)).bind pickRow = some (.bswap gd s d a) := by
  simp only [fields_bswap, Option.bind_some]
  simp (disch := decide) [-BitVec.getLsbD_eq_getElem, pickRow, pickRow3, set_set, ofBool_bit]

theorem fields_abs (gd : Guard) (s : Bool) (d : GIx) (a : GIx) :
    fieldsOf (.abs gd s d a) = some {len := 0, maj := 0x1E, gd := gd, s := s, d := d, a := a, b := 5#6} := rfl

theorem pick_abs (gd : Guard) (s : Bool) (d : GIx) (a : GIx) :
    (fieldsOf (.abs gd s d a)).bind pickRow = some (.abs gd s d a) := by
  simp only [fields_abs, Option.bind_some]
  simp (disch := decide) [-BitVec.getLsbD_eq_getElem, pickRow, pickRow3, set_set, ofBool_bit]

theorem fields_bfx (gd : Guard) (s : Bool) (d : GIx) (a : GIx) (pos : BitVec 6) (wm : BitVec 6) :
    fieldsOf (.bfx gd s d a pos wm) = some {len := 2, maj := 0x1F, gd := gd, s := s, d := d, a := a, min := 0#4, imm16 := 0#4 ++ wm ++ pos} := rfl

theorem pick_bfx (gd : Guard) (s : Bool) (d : GIx) (a : GIx) (pos : BitVec 6) (wm : BitVec 6) :
    (fieldsOf (.bfx gd s d a pos wm)).bind pickRow = some (.bfx gd s d a pos wm) := by
  simp only [fields_bfx, Option.bind_some]
  simp (disch := decide) [-BitVec.getLsbD_eq_getElem, pickRow, pickRow3, set_set, ofBool_bit, shape0_1, shape0_0, shape1_2, shape1_0, shape2_2, shape2_1, shape2_0, shape3_1, shape3_0, shape4_1, shape4_0, shape5_1, shape5_0, shape6_0, shape7_2, shape7_1, shape8_1, shape9_2, shape9_1, shape10_3, shape10_2, shape10_1, shape11_2, shape11_1, shape12_2, shape12_1, shape13_3, shape13_1, shape14_1, shape15_1, shape16_1]

theorem fields_bfxs (gd : Guard) (s : Bool) (d : GIx) (a : GIx) (pos : BitVec 6) (wm : BitVec 6) :
    fieldsOf (.bfxs gd s d a pos wm) = some {len := 2, maj := 0x1F, gd := gd, s := s, d := d, a := a, min := 1#4, imm16 := 0#4 ++ wm ++ pos} := rfl

theorem pick_bfxs (gd : Guard) (s : Bool) (d : GIx) (a : GIx) (pos : BitVec 6) (wm : BitVec 6) :
    (fieldsOf (.bfxs gd s d a pos wm)).bind pickRow = some (.bfxs gd s d a pos wm) := by
  simp only [fields_bfxs, Option.bind_some]
  simp (disch := decide) [-BitVec.getLsbD_eq_getElem, pickRow, pickRow3, set_set, ofBool_bit, shape0_1, shape0_0, shape1_2, shape1_0, shape2_2, shape2_1, shape2_0, shape3_1, shape3_0, shape4_1, shape4_0, shape5_1, shape5_0, shape6_0, shape7_2, shape7_1, shape8_1, shape9_2, shape9_1, shape10_3, shape10_2, shape10_1, shape11_2, shape11_1, shape12_2, shape12_1, shape13_3, shape13_1, shape14_1, shape15_1, shape16_1]

theorem fields_bfi (gd : Guard) (s : Bool) (d : GIx) (a : GIx) (pos : BitVec 6) (wm : BitVec 6) :
    fieldsOf (.bfi gd s d a pos wm) = some {len := 2, maj := 0x1F, gd := gd, s := s, d := d, a := a, min := 2#4, imm16 := 0#4 ++ wm ++ pos} := rfl

theorem pick_bfi (gd : Guard) (s : Bool) (d : GIx) (a : GIx) (pos : BitVec 6) (wm : BitVec 6) :
    (fieldsOf (.bfi gd s d a pos wm)).bind pickRow = some (.bfi gd s d a pos wm) := by
  simp only [fields_bfi, Option.bind_some]
  simp (disch := decide) [-BitVec.getLsbD_eq_getElem, pickRow, pickRow3, set_set, ofBool_bit, shape0_1, shape0_0, shape1_2, shape1_0, shape2_2, shape2_1, shape2_0, shape3_1, shape3_0, shape4_1, shape4_0, shape5_1, shape5_0, shape6_0, shape7_2, shape7_1, shape8_1, shape9_2, shape9_1, shape10_3, shape10_2, shape10_1, shape11_2, shape11_1, shape12_2, shape12_1, shape13_3, shape13_1, shape14_1, shape15_1, shape16_1]

theorem fields_sel (gd : Guard) (s : Bool) (d : GIx) (q : PIx) (a : GIx) (b : OpB) :
    fieldsOf (.sel gd s d q a b) = some {len := b.len, maj := 0x1F, gd := gd, s := s, d := d, a := a, c := q.setWidth 6, min := 3#4, b := b.fld, lit := b.litw} := rfl

theorem pick_sel (gd : Guard) (s : Bool) (d : GIx) (q : PIx) (a : GIx) (b : OpB) :
    (fieldsOf (.sel gd s d q a b)).bind pickRow = some (.sel gd s d q a b) := by
  simp only [fields_sel, Option.bind_some]
  cases b <;>
  simp (disch := decide) [-BitVec.getLsbD_eq_getElem, pickRow, pickRow3, OpB.len, OpB.fld, OpB.litw, Fields.opB, Fields.opA, set_set, ofBool_bit, shape0_1, shape0_0, shape1_2, shape1_0, shape2_2, shape2_1, shape2_0, shape3_1, shape3_0, shape4_1, shape4_0, shape5_1, shape5_0, shape6_0, shape7_2, shape7_1, shape8_1, shape9_2, shape9_1, shape10_3, shape10_2, shape10_1, shape11_2, shape11_1, shape12_2, shape12_1, shape13_3, shape13_1, shape14_1, shape15_1, shape16_1]

theorem fields_lea (gd : Guard) (s : Bool) (d : GIx) (a : GIx) (b : OpB) (off : BitVec 32) :
    fieldsOf (.lea gd s d a b off) = some {len := b.len, maj := 0x1F, gd := gd, s := s, d := d, a := a, min := 4#4, imm16 := 0#15 ++ 0#1, imm32 := off, b := b.fld, lit := b.litw} := rfl

theorem pick_lea (gd : Guard) (s : Bool) (d : GIx) (a : GIx) (b : OpB) (off : BitVec 32) :
    (fieldsOf (.lea gd s d a b off)).bind pickRow = some (.lea gd s d a b off) := by
  simp only [fields_lea, Option.bind_some]
  cases b <;>
  simp (disch := decide) [-BitVec.getLsbD_eq_getElem, pickRow, pickRow3, OpB.len, OpB.fld, OpB.litw, Fields.opB, Fields.opA, set_set, ofBool_bit, shape0_1, shape0_0, shape1_2, shape1_0, shape2_2, shape2_1, shape2_0, shape3_1, shape3_0, shape4_1, shape4_0, shape5_1, shape5_0, shape6_0, shape7_2, shape7_1, shape8_1, shape9_2, shape9_1, shape10_3, shape10_2, shape10_1, shape11_2, shape11_1, shape12_2, shape12_1, shape13_3, shape13_1, shape14_1, shape15_1, shape16_1]

theorem fields_leaPcr (gd : Guard) (s : Bool) (d : GIx) (b : OpB) (off : BitVec 32) :
    fieldsOf (.leaPcr gd s d b off) = some {len := b.len, maj := 0x1F, gd := gd, s := s, d := d, min := 4#4, imm16 := 0#15 ++ 1#1, imm32 := off, b := b.fld, lit := b.litw} := rfl

theorem pick_leaPcr (gd : Guard) (s : Bool) (d : GIx) (b : OpB) (off : BitVec 32) :
    (fieldsOf (.leaPcr gd s d b off)).bind pickRow = some (.leaPcr gd s d b off) := by
  simp only [fields_leaPcr, Option.bind_some]
  cases b <;>
  simp (disch := decide) [-BitVec.getLsbD_eq_getElem, pickRow, pickRow3, OpB.len, OpB.fld, OpB.litw, Fields.opB, Fields.opA, set_set, ofBool_bit, shape0_1, shape0_0, shape1_2, shape1_0, shape2_2, shape2_1, shape2_0, shape3_1, shape3_0, shape4_1, shape4_0, shape5_1, shape5_0, shape6_0, shape7_2, shape7_1, shape8_1, shape9_2, shape9_1, shape10_3, shape10_2, shape10_1, shape11_2, shape11_1, shape12_2, shape12_1, shape13_3, shape13_1, shape14_1, shape15_1, shape16_1]

theorem fields_cmpSignedReg (gd : Guard) (s : Bool) (cc : BitVec 3) (q : PIx) (a : GIx) (b : GIx) :
    fieldsOf (.cmpSignedReg gd s cc q a b) = some {len := 0, maj := 0x20, gd := gd, s := s, d := cc ++ q, a := a, b := b} := rfl

theorem pick_cmpSignedReg (gd : Guard) (s : Bool) (cc : BitVec 3) (q : PIx) (a : GIx) (b : GIx) :
    (fieldsOf (.cmpSignedReg gd s cc q a b)).bind pickRow = some (.cmpSignedReg gd s cc q a b) := by
  simp only [fields_cmpSignedReg, Option.bind_some]
  simp (disch := decide) [-BitVec.getLsbD_eq_getElem, pickRow, pickRow4, set_set, ofBool_bit, shape0_1, shape0_0, shape1_2, shape1_0, shape2_2, shape2_1, shape2_0, shape3_1, shape3_0, shape4_1, shape4_0, shape5_1, shape5_0, shape6_0, shape7_2, shape7_1, shape8_1, shape9_2, shape9_1, shape10_3, shape10_2, shape10_1, shape11_2, shape11_1, shape12_2, shape12_1, shape13_3, shape13_1, shape14_1, shape15_1, shape16_1]

theorem fields_cmpSignedImm (gd : Guard) (s : Bool) (cc : BitVec 3) (q : PIx) (a : GIx) (imm : BitVec 6) :
    fieldsOf (.cmpSignedImm gd s cc q a imm) = some {len := 0, maj := 0x21, gd := gd, s := s, d := cc ++ q, a := a, b := imm} := rfl

theorem pick_cmpSignedImm (gd : Guard) (s : Bool) (cc : BitVec 3) (q : PIx) (a : GIx) (imm : BitVec 6) :
    (fieldsOf (.cmpSignedImm gd s cc q a imm)).bind pickRow = some (.cmpSignedImm gd s cc q a imm) := by
  simp only [fields_cmpSignedImm, Option.bind_some]
  simp (disch := decide) [-BitVec.getLsbD_eq_getElem, pickRow, pickRow4, set_set, ofBool_bit, shape0_1, shape0_0, shape1_2, shape1_0, shape2_2, shape2_1, shape2_0, shape3_1, shape3_0, shape4_1, shape4_0, shape5_1, shape5_0, shape6_0, shape7_2, shape7_1, shape8_1, shape9_2, shape9_1, shape10_3, shape10_2, shape10_1, shape11_2, shape11_1, shape12_2, shape12_1, shape13_3, shape13_1, shape14_1, shape15_1, shape16_1]

theorem fields_cmpSignedLit (gd : Guard) (s : Bool) (cc : BitVec 3) (q : PIx) (a : GIx) (w : Word) :
    fieldsOf (.cmpSignedLit gd s cc q a w) = some {len := 1, maj := 0x20, gd := gd, s := s, d := cc ++ q, a := a, lit := w} := rfl

theorem pick_cmpSignedLit (gd : Guard) (s : Bool) (cc : BitVec 3) (q : PIx) (a : GIx) (w : Word) :
    (fieldsOf (.cmpSignedLit gd s cc q a w)).bind pickRow = some (.cmpSignedLit gd s cc q a w) := by
  simp only [fields_cmpSignedLit, Option.bind_some]
  simp (disch := decide) [-BitVec.getLsbD_eq_getElem, pickRow, pickRow4, set_set, ofBool_bit, shape0_1, shape0_0, shape1_2, shape1_0, shape2_2, shape2_1, shape2_0, shape3_1, shape3_0, shape4_1, shape4_0, shape5_1, shape5_0, shape6_0, shape7_2, shape7_1, shape8_1, shape9_2, shape9_1, shape10_3, shape10_2, shape10_1, shape11_2, shape11_1, shape12_2, shape12_1, shape13_3, shape13_1, shape14_1, shape15_1, shape16_1]

theorem fields_cmpNaturalReg (gd : Guard) (s : Bool) (cc : BitVec 3) (q : PIx) (a : GIx) (b : GIx) :
    fieldsOf (.cmpNaturalReg gd s cc q a b) = some {len := 0, maj := 0x22, gd := gd, s := s, d := cc ++ q, a := a, b := b} := rfl

theorem pick_cmpNaturalReg (gd : Guard) (s : Bool) (cc : BitVec 3) (q : PIx) (a : GIx) (b : GIx) :
    (fieldsOf (.cmpNaturalReg gd s cc q a b)).bind pickRow = some (.cmpNaturalReg gd s cc q a b) := by
  simp only [fields_cmpNaturalReg, Option.bind_some]
  simp (disch := decide) [-BitVec.getLsbD_eq_getElem, pickRow, pickRow4, set_set, ofBool_bit, shape0_1, shape0_0, shape1_2, shape1_0, shape2_2, shape2_1, shape2_0, shape3_1, shape3_0, shape4_1, shape4_0, shape5_1, shape5_0, shape6_0, shape7_2, shape7_1, shape8_1, shape9_2, shape9_1, shape10_3, shape10_2, shape10_1, shape11_2, shape11_1, shape12_2, shape12_1, shape13_3, shape13_1, shape14_1, shape15_1, shape16_1]

theorem fields_cmpNaturalImm (gd : Guard) (s : Bool) (cc : BitVec 3) (q : PIx) (a : GIx) (imm : BitVec 6) :
    fieldsOf (.cmpNaturalImm gd s cc q a imm) = some {len := 0, maj := 0x23, gd := gd, s := s, d := cc ++ q, a := a, b := imm} := rfl

theorem pick_cmpNaturalImm (gd : Guard) (s : Bool) (cc : BitVec 3) (q : PIx) (a : GIx) (imm : BitVec 6) :
    (fieldsOf (.cmpNaturalImm gd s cc q a imm)).bind pickRow = some (.cmpNaturalImm gd s cc q a imm) := by
  simp only [fields_cmpNaturalImm, Option.bind_some]
  simp (disch := decide) [-BitVec.getLsbD_eq_getElem, pickRow, pickRow4, set_set, ofBool_bit, shape0_1, shape0_0, shape1_2, shape1_0, shape2_2, shape2_1, shape2_0, shape3_1, shape3_0, shape4_1, shape4_0, shape5_1, shape5_0, shape6_0, shape7_2, shape7_1, shape8_1, shape9_2, shape9_1, shape10_3, shape10_2, shape10_1, shape11_2, shape11_1, shape12_2, shape12_1, shape13_3, shape13_1, shape14_1, shape15_1, shape16_1]

theorem fields_cmpNaturalLit (gd : Guard) (s : Bool) (cc : BitVec 3) (q : PIx) (a : GIx) (w : Word) :
    fieldsOf (.cmpNaturalLit gd s cc q a w) = some {len := 1, maj := 0x22, gd := gd, s := s, d := cc ++ q, a := a, lit := w} := rfl

theorem pick_cmpNaturalLit (gd : Guard) (s : Bool) (cc : BitVec 3) (q : PIx) (a : GIx) (w : Word) :
    (fieldsOf (.cmpNaturalLit gd s cc q a w)).bind pickRow = some (.cmpNaturalLit gd s cc q a w) := by
  simp only [fields_cmpNaturalLit, Option.bind_some]
  simp (disch := decide) [-BitVec.getLsbD_eq_getElem, pickRow, pickRow4, set_set, ofBool_bit, shape0_1, shape0_0, shape1_2, shape1_0, shape2_2, shape2_1, shape2_0, shape3_1, shape3_0, shape4_1, shape4_0, shape5_1, shape5_0, shape6_0, shape7_2, shape7_1, shape8_1, shape9_2, shape9_1, shape10_3, shape10_2, shape10_1, shape11_2, shape11_1, shape12_2, shape12_1, shape13_3, shape13_1, shape14_1, shape15_1, shape16_1]

theorem fields_pand (gd : Guard) (s : Bool) (d : PIx) (a : PIx) (b : PIx) :
    fieldsOf (.pand gd s d a b) = some {len := 0, maj := 0x24, gd := gd, s := s, d := d.setWidth 6, a := a.setWidth 6, b := 0#3 ++ b} := rfl

theorem pick_pand (gd : Guard) (s : Bool) (d : PIx) (a : PIx) (b : PIx) :
    (fieldsOf (.pand gd s d a b)).bind pickRow = some (.pand gd s d a b) := by
  simp only [fields_pand, Option.bind_some]
  simp (disch := decide) [-BitVec.getLsbD_eq_getElem, pickRow, pickRow4, set_set, ofBool_bit, shape0_1, shape0_0, shape1_2, shape1_0, shape2_2, shape2_1, shape2_0, shape3_1, shape3_0, shape4_1, shape4_0, shape5_1, shape5_0, shape6_0, shape7_2, shape7_1, shape8_1, shape9_2, shape9_1, shape10_3, shape10_2, shape10_1, shape11_2, shape11_1, shape12_2, shape12_1, shape13_3, shape13_1, shape14_1, shape15_1, shape16_1]

theorem fields_por (gd : Guard) (s : Bool) (d : PIx) (a : PIx) (b : PIx) :
    fieldsOf (.por gd s d a b) = some {len := 0, maj := 0x24, gd := gd, s := s, d := d.setWidth 6, a := a.setWidth 6, b := 1#3 ++ b} := rfl

theorem pick_por (gd : Guard) (s : Bool) (d : PIx) (a : PIx) (b : PIx) :
    (fieldsOf (.por gd s d a b)).bind pickRow = some (.por gd s d a b) := by
  simp only [fields_por, Option.bind_some]
  simp (disch := decide) [-BitVec.getLsbD_eq_getElem, pickRow, pickRow4, set_set, ofBool_bit, shape0_1, shape0_0, shape1_2, shape1_0, shape2_2, shape2_1, shape2_0, shape3_1, shape3_0, shape4_1, shape4_0, shape5_1, shape5_0, shape6_0, shape7_2, shape7_1, shape8_1, shape9_2, shape9_1, shape10_3, shape10_2, shape10_1, shape11_2, shape11_1, shape12_2, shape12_1, shape13_3, shape13_1, shape14_1, shape15_1, shape16_1]

theorem fields_pxor (gd : Guard) (s : Bool) (d : PIx) (a : PIx) (b : PIx) :
    fieldsOf (.pxor gd s d a b) = some {len := 0, maj := 0x24, gd := gd, s := s, d := d.setWidth 6, a := a.setWidth 6, b := 2#3 ++ b} := rfl

theorem pick_pxor (gd : Guard) (s : Bool) (d : PIx) (a : PIx) (b : PIx) :
    (fieldsOf (.pxor gd s d a b)).bind pickRow = some (.pxor gd s d a b) := by
  simp only [fields_pxor, Option.bind_some]
  simp (disch := decide) [-BitVec.getLsbD_eq_getElem, pickRow, pickRow4, set_set, ofBool_bit, shape0_1, shape0_0, shape1_2, shape1_0, shape2_2, shape2_1, shape2_0, shape3_1, shape3_0, shape4_1, shape4_0, shape5_1, shape5_0, shape6_0, shape7_2, shape7_1, shape8_1, shape9_2, shape9_1, shape10_3, shape10_2, shape10_1, shape11_2, shape11_1, shape12_2, shape12_1, shape13_3, shape13_1, shape14_1, shape15_1, shape16_1]

theorem fields_pmov (gd : Guard) (s : Bool) (d : PIx) (a : PIx) :
    fieldsOf (.pmov gd s d a) = some {len := 0, maj := 0x24, gd := gd, s := s, d := d.setWidth 6, a := a.setWidth 6, b := 3#3 ++ 0#3} := rfl

theorem pick_pmov (gd : Guard) (s : Bool) (d : PIx) (a : PIx) :
    (fieldsOf (.pmov gd s d a)).bind pickRow = some (.pmov gd s d a) := by
  simp only [fields_pmov, Option.bind_some]
  simp (disch := decide) [-BitVec.getLsbD_eq_getElem, pickRow, pickRow4, set_set, ofBool_bit, shape0_1, shape0_0, shape1_2, shape1_0, shape2_2, shape2_1, shape2_0, shape3_1, shape3_0, shape4_1, shape4_0, shape5_1, shape5_0, shape6_0, shape7_2, shape7_1, shape8_1, shape9_2, shape9_1, shape10_3, shape10_2, shape10_1, shape11_2, shape11_1, shape12_2, shape12_1, shape13_3, shape13_1, shape14_1, shape15_1, shape16_1]

theorem fields_bra (gd : Guard) (ob : BitVec 6) (oa : BitVec 6) (od : BitVec 6) :
    fieldsOf (.bra gd ob oa od) = some {len := 0, maj := 0x28, gd := gd, d := od, a := oa, b := ob} := rfl

theorem pick_bra (gd : Guard) (ob : BitVec 6) (oa : BitVec 6) (od : BitVec 6) :
    (fieldsOf (.bra gd ob oa od)).bind pickRow = some (.bra gd ob oa od) := by
  simp only [fields_bra, Option.bind_some]
  simp (disch := decide) [-BitVec.getLsbD_eq_getElem, pickRow, pickRow5, set_set, ofBool_bit]

theorem fields_call (gd : Guard) (ob : BitVec 6) (oa : BitVec 6) (od : BitVec 6) :
    fieldsOf (.call gd ob oa od) = some {len := 0, maj := 0x29, gd := gd, d := od, a := oa, b := ob} := rfl

theorem pick_call (gd : Guard) (ob : BitVec 6) (oa : BitVec 6) (od : BitVec 6) :
    (fieldsOf (.call gd ob oa od)).bind pickRow = some (.call gd ob oa od) := by
  simp only [fields_call, Option.bind_some]
  simp (disch := decide) [-BitVec.getLsbD_eq_getElem, pickRow, pickRow5, set_set, ofBool_bit]

theorem fields_brx (gd : Guard) (a : GIx) :
    fieldsOf (.brx gd a) = some {len := 0, maj := 0x2A, gd := gd, a := a, b := 0#6} := rfl

theorem pick_brx (gd : Guard) (a : GIx) :
    (fieldsOf (.brx gd a)).bind pickRow = some (.brx gd a) := by
  simp only [fields_brx, Option.bind_some]
  simp (disch := decide) [-BitVec.getLsbD_eq_getElem, pickRow, pickRow5, set_set, ofBool_bit]

theorem fields_callx (gd : Guard) (a : GIx) :
    fieldsOf (.callx gd a) = some {len := 0, maj := 0x2A, gd := gd, a := a, b := 1#6} := rfl

theorem pick_callx (gd : Guard) (a : GIx) :
    (fieldsOf (.callx gd a)).bind pickRow = some (.callx gd a) := by
  simp only [fields_callx, Option.bind_some]
  simp (disch := decide) [-BitVec.getLsbD_eq_getElem, pickRow, pickRow5, set_set, ofBool_bit]

theorem fields_ret (gd : Guard) :
    fieldsOf (.ret gd) = some {len := 0, maj := 0x2A, gd := gd, b := 2#6} := rfl

theorem pick_ret (gd : Guard) :
    (fieldsOf (.ret gd)).bind pickRow = some (.ret gd) := by
  simp only [fields_ret, Option.bind_some]
  simp (disch := decide) [-BitVec.getLsbD_eq_getElem, pickRow, pickRow5, set_set, ofBool_bit]

theorem fields_btag (gd : Guard) (tag : Byte) (off : BitVec 32) :
    fieldsOf (.btag gd tag off) = some {len := 2, maj := 0x2B, gd := gd, imm16 := tag.setWidth 16, imm32 := off} := rfl

theorem pick_btag (gd : Guard) (tag : Byte) (off : BitVec 32) :
    (fieldsOf (.btag gd tag off)).bind pickRow = some (.btag gd tag off) := by
  simp only [fields_btag, Option.bind_some]
  simp (disch := decide) [-BitVec.getLsbD_eq_getElem, pickRow, pickRow5, set_set, ofBool_bit, shape0_1, shape0_0, shape1_2, shape1_0, shape2_2, shape2_1, shape2_0, shape3_1, shape3_0, shape4_1, shape4_0, shape5_1, shape5_0, shape6_0, shape7_2, shape7_1, shape8_1, shape9_2, shape9_1, shape10_3, shape10_2, shape10_1, shape11_2, shape11_1, shape12_2, shape12_1, shape13_3, shape13_1, shape14_1, shape15_1, shape16_1]

theorem fields_loopImm (gd : Guard) (n : BitVec 32) (endo : BitVec 16) :
    fieldsOf (.loopImm gd n endo) = some {len := 2, maj := 0x2C, gd := gd, s := true, imm16 := endo, imm32 := n} := rfl

theorem pick_loopImm (gd : Guard) (n : BitVec 32) (endo : BitVec 16) :
    (fieldsOf (.loopImm gd n endo)).bind pickRow = some (.loopImm gd n endo) := by
  simp only [fields_loopImm, Option.bind_some]
  simp (disch := decide) [-BitVec.getLsbD_eq_getElem, pickRow, pickRow5, set_set, ofBool_bit]

theorem fields_loopReg (gd : Guard) (a : GIx) (endo : BitVec 16) :
    fieldsOf (.loopReg gd a endo) = some {len := 2, maj := 0x2C, gd := gd, a := a, imm16 := endo} := rfl

theorem pick_loopReg (gd : Guard) (a : GIx) (endo : BitVec 16) :
    (fieldsOf (.loopReg gd a endo)).bind pickRow = some (.loopReg gd a endo) := by
  simp only [fields_loopReg, Option.bind_some]
  simp (disch := decide) [-BitVec.getLsbD_eq_getElem, pickRow, pickRow5, set_set, ofBool_bit]

theorem fields_lexit (gd : Guard) :
    fieldsOf (.lexit gd) = some {len := 0, maj := 0x2D, gd := gd} := rfl

theorem pick_lexit (gd : Guard) :
    (fieldsOf (.lexit gd)).bind pickRow = some (.lexit gd) := by
  simp only [fields_lexit, Option.bind_some]
  simp (disch := decide) [-BitVec.getLsbD_eq_getElem, pickRow, pickRow5, set_set, ofBool_bit]

theorem fields_tclr (gd : Guard) (dc : BitVec 2) (d : BitVec 6) (mask : Byte) :
    fieldsOf (.tclr gd dc d mask) = some {len := 2, maj := 0x2E, gd := gd, d := d, min := 0#4, attr := dc.setWidth 6, imm16 := mask.setWidth 16} := rfl

theorem pick_tclr (gd : Guard) (dc : BitVec 2) (d : BitVec 6) (mask : Byte) :
    (fieldsOf (.tclr gd dc d mask)).bind pickRow = some (.tclr gd dc d mask) := by
  simp only [fields_tclr, Option.bind_some]
  simp (disch := decide) [-BitVec.getLsbD_eq_getElem, pickRow, pickRow5, set_set, ofBool_bit, shape0_1, shape0_0, shape1_2, shape1_0, shape2_2, shape2_1, shape2_0, shape3_1, shape3_0, shape4_1, shape4_0, shape5_1, shape5_0, shape6_0, shape7_2, shape7_1, shape8_1, shape9_2, shape9_1, shape10_3, shape10_2, shape10_1, shape11_2, shape11_1, shape12_2, shape12_1, shape13_3, shape13_1, shape14_1, shape15_1, shape16_1]

theorem fields_tdep (gd : Guard) (dc : BitVec 2) (d : BitVec 6) (ac : BitVec 2) (a : BitVec 6) :
    fieldsOf (.tdep gd dc d ac a) = some {len := 2, maj := 0x2E, gd := gd, d := d, a := a, min := 1#4, attr := 0#2 ++ ac ++ dc} := rfl

theorem pick_tdep (gd : Guard) (dc : BitVec 2) (d : BitVec 6) (ac : BitVec 2) (a : BitVec 6) :
    (fieldsOf (.tdep gd dc d ac a)).bind pickRow = some (.tdep gd dc d ac a) := by
  simp only [fields_tdep, Option.bind_some]
  simp (disch := decide) [-BitVec.getLsbD_eq_getElem, pickRow, pickRow5, set_set, ofBool_bit, shape0_1, shape0_0, shape1_2, shape1_0, shape2_2, shape2_1, shape2_0, shape3_1, shape3_0, shape4_1, shape4_0, shape5_1, shape5_0, shape6_0, shape7_2, shape7_1, shape8_1, shape9_2, shape9_1, shape10_3, shape10_2, shape10_1, shape11_2, shape11_1, shape12_2, shape12_1, shape13_3, shape13_1, shape14_1, shape15_1, shape16_1]

theorem fields_twait (gd : Guard) (mask : Byte) :
    fieldsOf (.twait gd mask) = some {len := 2, maj := 0x2E, gd := gd, min := 2#4, imm16 := mask.setWidth 16} := rfl

theorem pick_twait (gd : Guard) (mask : Byte) :
    (fieldsOf (.twait gd mask)).bind pickRow = some (.twait gd mask) := by
  simp only [fields_twait, Option.bind_some]
  simp (disch := decide) [-BitVec.getLsbD_eq_getElem, pickRow, pickRow5, set_set, ofBool_bit, shape0_1, shape0_0, shape1_2, shape1_0, shape2_2, shape2_1, shape2_0, shape3_1, shape3_0, shape4_1, shape4_0, shape5_1, shape5_0, shape6_0, shape7_2, shape7_1, shape8_1, shape9_2, shape9_1, shape10_3, shape10_2, shape10_1, shape11_2, shape11_1, shape12_2, shape12_1, shape13_3, shape13_1, shape14_1, shape15_1, shape16_1]

theorem fields_tget (gd : Guard) (d : GIx) (ac : BitVec 2) (a : BitVec 6) :
    fieldsOf (.tget gd d ac a) = some {len := 2, maj := 0x2E, gd := gd, d := d, a := a, min := 3#4, attr := 0#2 ++ ac ++ 0#2} := rfl

theorem pick_tget (gd : Guard) (d : GIx) (ac : BitVec 2) (a : BitVec 6) :
    (fieldsOf (.tget gd d ac a)).bind pickRow = some (.tget gd d ac a) := by
  simp only [fields_tget, Option.bind_some]
  simp (disch := decide) [-BitVec.getLsbD_eq_getElem, pickRow, pickRow5, set_set, ofBool_bit, shape0_1, shape0_0, shape1_2, shape1_0, shape2_2, shape2_1, shape2_0, shape3_1, shape3_0, shape4_1, shape4_0, shape5_1, shape5_0, shape6_0, shape7_2, shape7_1, shape8_1, shape9_2, shape9_1, shape10_3, shape10_2, shape10_1, shape11_2, shape11_1, shape12_2, shape12_1, shape13_3, shape13_1, shape14_1, shape15_1, shape16_1]

theorem fields_fadd (gd : Guard) (s : Bool) (d : GIx) (a : GIx) (b : GIx) :
    fieldsOf (.fadd gd s d a b) = some {len := 0, maj := 0x30, gd := gd, s := s, d := d, a := a, b := b} := rfl

theorem pick_fadd (gd : Guard) (s : Bool) (d : GIx) (a : GIx) (b : GIx) :
    (fieldsOf (.fadd gd s d a b)).bind pickRow = some (.fadd gd s d a b) := by
  simp only [fields_fadd, Option.bind_some]
  simp (disch := decide) [-BitVec.getLsbD_eq_getElem, pickRow, pickRow6, set_set, ofBool_bit]

theorem fields_faddLit (gd : Guard) (s : Bool) (d : GIx) (a : GIx) (w : Word) :
    fieldsOf (.faddLit gd s d a w) = some {len := 1, maj := 0x30, gd := gd, s := s, d := d, a := a, lit := w} := rfl

theorem pick_faddLit (gd : Guard) (s : Bool) (d : GIx) (a : GIx) (w : Word) :
    (fieldsOf (.faddLit gd s d a w)).bind pickRow = some (.faddLit gd s d a w) := by
  simp only [fields_faddLit, Option.bind_some]
  simp (disch := decide) [-BitVec.getLsbD_eq_getElem, pickRow, pickRow6, set_set, ofBool_bit]

theorem fields_faddExt (gd : Guard) (ft : BitVec 2) (rmo : BitVec 3) (d : GIx) (a : GIx) (b : OpB) :
    fieldsOf (.faddExt gd ft rmo d a b) = some {len := b.len, maj := 0x30, gd := gd, d := d, a := a, attr := ft.setWidth 6, imm16 := 0#8 ++ rmo ++ 0#5, b := b.fld, lit := b.litw} := rfl

theorem pick_faddExt (gd : Guard) (ft : BitVec 2) (rmo : BitVec 3) (d : GIx) (a : GIx) (b : OpB) :
    (fieldsOf (.faddExt gd ft rmo d a b)).bind pickRow = some (.faddExt gd ft rmo d a b) := by
  simp only [fields_faddExt, Option.bind_some]
  cases b <;>
  simp (disch := decide) [-BitVec.getLsbD_eq_getElem, pickRow, pickRow6, OpB.len, OpB.fld, OpB.litw, Fields.opB, Fields.opA, set_set, ofBool_bit, shape0_1, shape0_0, shape1_2, shape1_0, shape2_2, shape2_1, shape2_0, shape3_1, shape3_0, shape4_1, shape4_0, shape5_1, shape5_0, shape6_0, shape7_2, shape7_1, shape8_1, shape9_2, shape9_1, shape10_3, shape10_2, shape10_1, shape11_2, shape11_1, shape12_2, shape12_1, shape13_3, shape13_1, shape14_1, shape15_1, shape16_1]

theorem fields_fsub (gd : Guard) (s : Bool) (d : GIx) (a : GIx) (b : GIx) :
    fieldsOf (.fsub gd s d a b) = some {len := 0, maj := 0x31, gd := gd, s := s, d := d, a := a, b := b} := rfl

theorem pick_fsub (gd : Guard) (s : Bool) (d : GIx) (a : GIx) (b : GIx) :
    (fieldsOf (.fsub gd s d a b)).bind pickRow = some (.fsub gd s d a b) := by
  simp only [fields_fsub, Option.bind_some]
  simp (disch := decide) [-BitVec.getLsbD_eq_getElem, pickRow, pickRow6, set_set, ofBool_bit]

theorem fields_fsubLit (gd : Guard) (s : Bool) (d : GIx) (a : GIx) (w : Word) :
    fieldsOf (.fsubLit gd s d a w) = some {len := 1, maj := 0x31, gd := gd, s := s, d := d, a := a, lit := w} := rfl

theorem pick_fsubLit (gd : Guard) (s : Bool) (d : GIx) (a : GIx) (w : Word) :
    (fieldsOf (.fsubLit gd s d a w)).bind pickRow = some (.fsubLit gd s d a w) := by
  simp only [fields_fsubLit, Option.bind_some]
  simp (disch := decide) [-BitVec.getLsbD_eq_getElem, pickRow, pickRow6, set_set, ofBool_bit]

theorem fields_fsubExt (gd : Guard) (ft : BitVec 2) (rmo : BitVec 3) (d : GIx) (a : GIx) (b : OpB) :
    fieldsOf (.fsubExt gd ft rmo d a b) = some {len := b.len, maj := 0x31, gd := gd, d := d, a := a, attr := ft.setWidth 6, imm16 := 0#8 ++ rmo ++ 0#5, b := b.fld, lit := b.litw} := rfl

theorem pick_fsubExt (gd : Guard) (ft : BitVec 2) (rmo : BitVec 3) (d : GIx) (a : GIx) (b : OpB) :
    (fieldsOf (.fsubExt gd ft rmo d a b)).bind pickRow = some (.fsubExt gd ft rmo d a b) := by
  simp only [fields_fsubExt, Option.bind_some]
  cases b <;>
  simp (disch := decide) [-BitVec.getLsbD_eq_getElem, pickRow, pickRow6, OpB.len, OpB.fld, OpB.litw, Fields.opB, Fields.opA, set_set, ofBool_bit, shape0_1, shape0_0, shape1_2, shape1_0, shape2_2, shape2_1, shape2_0, shape3_1, shape3_0, shape4_1, shape4_0, shape5_1, shape5_0, shape6_0, shape7_2, shape7_1, shape8_1, shape9_2, shape9_1, shape10_3, shape10_2, shape10_1, shape11_2, shape11_1, shape12_2, shape12_1, shape13_3, shape13_1, shape14_1, shape15_1, shape16_1]

theorem fields_fmul (gd : Guard) (s : Bool) (d : GIx) (a : GIx) (b : GIx) :
    fieldsOf (.fmul gd s d a b) = some {len := 0, maj := 0x32, gd := gd, s := s, d := d, a := a, b := b} := rfl

theorem pick_fmul (gd : Guard) (s : Bool) (d : GIx) (a : GIx) (b : GIx) :
    (fieldsOf (.fmul gd s d a b)).bind pickRow = some (.fmul gd s d a b) := by
  simp only [fields_fmul, Option.bind_some]
  simp (disch := decide) [-BitVec.getLsbD_eq_getElem, pickRow, pickRow6, set_set, ofBool_bit]

theorem fields_fmulLit (gd : Guard) (s : Bool) (d : GIx) (a : GIx) (w : Word) :
    fieldsOf (.fmulLit gd s d a w) = some {len := 1, maj := 0x32, gd := gd, s := s, d := d, a := a, lit := w} := rfl

theorem pick_fmulLit (gd : Guard) (s : Bool) (d : GIx) (a : GIx) (w : Word) :
    (fieldsOf (.fmulLit gd s d a w)).bind pickRow = some (.fmulLit gd s d a w) := by
  simp only [fields_fmulLit, Option.bind_some]
  simp (disch := decide) [-BitVec.getLsbD_eq_getElem, pickRow, pickRow6, set_set, ofBool_bit]

theorem fields_fmulExt (gd : Guard) (ft : BitVec 2) (rmo : BitVec 3) (d : GIx) (a : GIx) (b : OpB) :
    fieldsOf (.fmulExt gd ft rmo d a b) = some {len := b.len, maj := 0x32, gd := gd, d := d, a := a, attr := ft.setWidth 6, imm16 := 0#8 ++ rmo ++ 0#5, b := b.fld, lit := b.litw} := rfl

theorem pick_fmulExt (gd : Guard) (ft : BitVec 2) (rmo : BitVec 3) (d : GIx) (a : GIx) (b : OpB) :
    (fieldsOf (.fmulExt gd ft rmo d a b)).bind pickRow = some (.fmulExt gd ft rmo d a b) := by
  simp only [fields_fmulExt, Option.bind_some]
  cases b <;>
  simp (disch := decide) [-BitVec.getLsbD_eq_getElem, pickRow, pickRow6, OpB.len, OpB.fld, OpB.litw, Fields.opB, Fields.opA, set_set, ofBool_bit, shape0_1, shape0_0, shape1_2, shape1_0, shape2_2, shape2_1, shape2_0, shape3_1, shape3_0, shape4_1, shape4_0, shape5_1, shape5_0, shape6_0, shape7_2, shape7_1, shape8_1, shape9_2, shape9_1, shape10_3, shape10_2, shape10_1, shape11_2, shape11_1, shape12_2, shape12_1, shape13_3, shape13_1, shape14_1, shape15_1, shape16_1]

theorem fields_fdiv (gd : Guard) (s : Bool) (d : GIx) (a : GIx) (b : GIx) :
    fieldsOf (.fdiv gd s d a b) = some {len := 0, maj := 0x35, gd := gd, s := s, d := d, a := a, b := b} := rfl

theorem pick_fdiv (gd : Guard) (s : Bool) (d : GIx) (a : GIx) (b : GIx) :
    (fieldsOf (.fdiv gd s d a b)).bind pickRow = some (.fdiv gd s d a b) := by
  simp only [fields_fdiv, Option.bind_some]
  simp (disch := decide) [-BitVec.getLsbD_eq_getElem, pickRow, pickRow6, set_set, ofBool_bit]

theorem fields_fdivLit (gd : Guard) (s : Bool) (d : GIx) (a : GIx) (w : Word) :
    fieldsOf (.fdivLit gd s d a w) = some {len := 1, maj := 0x35, gd := gd, s := s, d := d, a := a, lit := w} := rfl

theorem pick_fdivLit (gd : Guard) (s : Bool) (d : GIx) (a : GIx) (w : Word) :
    (fieldsOf (.fdivLit gd s d a w)).bind pickRow = some (.fdivLit gd s d a w) := by
  simp only [fields_fdivLit, Option.bind_some]
  simp (disch := decide) [-BitVec.getLsbD_eq_getElem, pickRow, pickRow6, set_set, ofBool_bit]

theorem fields_fdivExt (gd : Guard) (ft : BitVec 2) (rmo : BitVec 3) (d : GIx) (a : GIx) (b : OpB) :
    fieldsOf (.fdivExt gd ft rmo d a b) = some {len := b.len, maj := 0x35, gd := gd, d := d, a := a, attr := ft.setWidth 6, imm16 := 0#8 ++ rmo ++ 0#5, b := b.fld, lit := b.litw} := rfl

theorem pick_fdivExt (gd : Guard) (ft : BitVec 2) (rmo : BitVec 3) (d : GIx) (a : GIx) (b : OpB) :
    (fieldsOf (.fdivExt gd ft rmo d a b)).bind pickRow = some (.fdivExt gd ft rmo d a b) := by
  simp only [fields_fdivExt, Option.bind_some]
  cases b <;>
  simp (disch := decide) [-BitVec.getLsbD_eq_getElem, pickRow, pickRow6, OpB.len, OpB.fld, OpB.litw, Fields.opB, Fields.opA, set_set, ofBool_bit, shape0_1, shape0_0, shape1_2, shape1_0, shape2_2, shape2_1, shape2_0, shape3_1, shape3_0, shape4_1, shape4_0, shape5_1, shape5_0, shape6_0, shape7_2, shape7_1, shape8_1, shape9_2, shape9_1, shape10_3, shape10_2, shape10_1, shape11_2, shape11_1, shape12_2, shape12_1, shape13_3, shape13_1, shape14_1, shape15_1, shape16_1]

theorem fields_ffma (gd : Guard) (ft : BitVec 2) (rmo : BitVec 3) (d : GIx) (a : GIx) (b : OpB) (c : GIx) :
    fieldsOf (.ffma gd ft rmo d a b c) = some {len := b.len, maj := 0x34, gd := gd, d := d, a := a, c := c, attr := ft.setWidth 6, imm16 := 0#8 ++ rmo ++ 0#5, b := b.fld, lit := b.litw} := rfl

theorem pick_ffma (gd : Guard) (ft : BitVec 2) (rmo : BitVec 3) (d : GIx) (a : GIx) (b : OpB) (c : GIx) :
    (fieldsOf (.ffma gd ft rmo d a b c)).bind pickRow = some (.ffma gd ft rmo d a b c) := by
  simp only [fields_ffma, Option.bind_some]
  cases b <;>
  simp (disch := decide) [-BitVec.getLsbD_eq_getElem, pickRow, pickRow6, OpB.len, OpB.fld, OpB.litw, Fields.opB, Fields.opA, set_set, ofBool_bit, shape0_1, shape0_0, shape1_2, shape1_0, shape2_2, shape2_1, shape2_0, shape3_1, shape3_0, shape4_1, shape4_0, shape5_1, shape5_0, shape6_0, shape7_2, shape7_1, shape8_1, shape9_2, shape9_1, shape10_3, shape10_2, shape10_1, shape11_2, shape11_1, shape12_2, shape12_1, shape13_3, shape13_1, shape14_1, shape15_1, shape16_1]

theorem fields_fsqrt (gd : Guard) (ft : BitVec 2) (rmo : BitVec 3) (d : GIx) (a : OpB) :
    fieldsOf (.fsqrt gd ft rmo d a) = some {len := a.len, maj := 0x37, gd := gd, d := d, min := 0#4, attr := ft.setWidth 6, imm16 := 0#8 ++ rmo ++ 0#5, a := a.fld, lit := a.litw} := rfl

theorem pick_fsqrt (gd : Guard) (ft : BitVec 2) (rmo : BitVec 3) (d : GIx) (a : OpB) :
    (fieldsOf (.fsqrt gd ft rmo d a)).bind pickRow = some (.fsqrt gd ft rmo d a) := by
  simp only [fields_fsqrt, Option.bind_some]
  cases a <;>
  simp (disch := decide) [-BitVec.getLsbD_eq_getElem, pickRow, pickRow6, OpB.len, OpB.fld, OpB.litw, Fields.opB, Fields.opA, set_set, ofBool_bit, shape0_1, shape0_0, shape1_2, shape1_0, shape2_2, shape2_1, shape2_0, shape3_1, shape3_0, shape4_1, shape4_0, shape5_1, shape5_0, shape6_0, shape7_2, shape7_1, shape8_1, shape9_2, shape9_1, shape10_3, shape10_2, shape10_1, shape11_2, shape11_1, shape12_2, shape12_1, shape13_3, shape13_1, shape14_1, shape15_1, shape16_1]

theorem fields_fmin (gd : Guard) (s : Bool) (d : GIx) (a : GIx) (b : GIx) :
    fieldsOf (.fmin gd s d a b) = some {len := 0, maj := 0x33, gd := gd, s := s, d := d, a := a, b := b} := rfl

theorem pick_fmin (gd : Guard) (s : Bool) (d : GIx) (a : GIx) (b : GIx) :
    (fieldsOf (.fmin gd s d a b)).bind pickRow = some (.fmin gd s d a b) := by
  simp only [fields_fmin, Option.bind_some]
  simp (disch := decide) [-BitVec.getLsbD_eq_getElem, pickRow, pickRow6, set_set, ofBool_bit]

theorem fields_fminLit (gd : Guard) (s : Bool) (d : GIx) (a : GIx) (w : Word) :
    fieldsOf (.fminLit gd s d a w) = some {len := 1, maj := 0x33, gd := gd, s := s, d := d, a := a, lit := w} := rfl

theorem pick_fminLit (gd : Guard) (s : Bool) (d : GIx) (a : GIx) (w : Word) :
    (fieldsOf (.fminLit gd s d a w)).bind pickRow = some (.fminLit gd s d a w) := by
  simp only [fields_fminLit, Option.bind_some]
  simp (disch := decide) [-BitVec.getLsbD_eq_getElem, pickRow, pickRow6, set_set, ofBool_bit]

theorem fields_fminExt (gd : Guard) (ft : BitVec 2) (rmo : BitVec 3) (d : GIx) (a : GIx) (b : OpB) :
    fieldsOf (.fminExt gd ft rmo d a b) = some {len := b.len, maj := 0x33, gd := gd, d := d, a := a, c := 0#6, attr := ft.setWidth 6, imm16 := 0#8 ++ rmo ++ 0#5, b := b.fld, lit := b.litw} := rfl

theorem pick_fminExt (gd : Guard) (ft : BitVec 2) (rmo : BitVec 3) (d : GIx) (a : GIx) (b : OpB) :
    (fieldsOf (.fminExt gd ft rmo d a b)).bind pickRow = some (.fminExt gd ft rmo d a b) := by
  simp only [fields_fminExt, Option.bind_some]
  cases b <;>
  simp (disch := decide) [-BitVec.getLsbD_eq_getElem, pickRow, pickRow6, OpB.len, OpB.fld, OpB.litw, Fields.opB, Fields.opA, set_set, ofBool_bit, shape0_1, shape0_0, shape1_2, shape1_0, shape2_2, shape2_1, shape2_0, shape3_1, shape3_0, shape4_1, shape4_0, shape5_1, shape5_0, shape6_0, shape7_2, shape7_1, shape8_1, shape9_2, shape9_1, shape10_3, shape10_2, shape10_1, shape11_2, shape11_1, shape12_2, shape12_1, shape13_3, shape13_1, shape14_1, shape15_1, shape16_1]

theorem fields_fmax (gd : Guard) (ft : BitVec 2) (rmo : BitVec 3) (d : GIx) (a : GIx) (b : OpB) :
    fieldsOf (.fmax gd ft rmo d a b) = some {len := b.len, maj := 0x33, gd := gd, d := d, a := a, c := 1#6, attr := ft.setWidth 6, imm16 := 0#8 ++ rmo ++ 0#5, b := b.fld, lit := b.litw} := rfl

theorem pick_fmax (gd : Guard) (ft : BitVec 2) (rmo : BitVec 3) (d : GIx) (a : GIx) (b : OpB) :
    (fieldsOf (.fmax gd ft rmo d a b)).bind pickRow = some (.fmax gd ft rmo d a b) := by
  simp only [fields_fmax, Option.bind_some]
  cases b <;>
  simp (disch := decide) [-BitVec.getLsbD_eq_getElem, pickRow, pickRow6, OpB.len, OpB.fld, OpB.litw, Fields.opB, Fields.opA, set_set, ofBool_bit, shape0_1, shape0_0, shape1_2, shape1_0, shape2_2, shape2_1, shape2_0, shape3_1, shape3_0, shape4_1, shape4_0, shape5_1, shape5_0, shape6_0, shape7_2, shape7_1, shape8_1, shape9_2, shape9_1, shape10_3, shape10_2, shape10_1, shape11_2, shape11_1, shape12_2, shape12_1, shape13_3, shape13_1, shape14_1, shape15_1, shape16_1]

theorem fields_fcmp (gd : Guard) (s : Bool) (cc : BitVec 3) (q : PIx) (a : GIx) (b : GIx) :
    fieldsOf (.fcmp gd s cc q a b) = some {len := 0, maj := 0x36, gd := gd, s := s, d := cc ++ q, a := a, b := b} := rfl

theorem pick_fcmp (gd : Guard) (s : Bool) (cc : BitVec 3) (q : PIx) (a : GIx) (b : GIx) :
    (fieldsOf (.fcmp gd s cc q a b)).bind pickRow = some (.fcmp gd s cc q a b) := by
  simp only [fields_fcmp, Option.bind_some]
  simp (disch := decide) [-BitVec.getLsbD_eq_getElem, pickRow, pickRow6, set_set, ofBool_bit, shape0_1, shape0_0, shape1_2, shape1_0, shape2_2, shape2_1, shape2_0, shape3_1, shape3_0, shape4_1, shape4_0, shape5_1, shape5_0, shape6_0, shape7_2, shape7_1, shape8_1, shape9_2, shape9_1, shape10_3, shape10_2, shape10_1, shape11_2, shape11_1, shape12_2, shape12_1, shape13_3, shape13_1, shape14_1, shape15_1, shape16_1]

theorem fields_fcmpLit (gd : Guard) (s : Bool) (cc : BitVec 3) (q : PIx) (a : GIx) (w : Word) :
    fieldsOf (.fcmpLit gd s cc q a w) = some {len := 1, maj := 0x36, gd := gd, s := s, d := cc ++ q, a := a, lit := w} := rfl

theorem pick_fcmpLit (gd : Guard) (s : Bool) (cc : BitVec 3) (q : PIx) (a : GIx) (w : Word) :
    (fieldsOf (.fcmpLit gd s cc q a w)).bind pickRow = some (.fcmpLit gd s cc q a w) := by
  simp only [fields_fcmpLit, Option.bind_some]
  simp (disch := decide) [-BitVec.getLsbD_eq_getElem, pickRow, pickRow6, set_set, ofBool_bit, shape0_1, shape0_0, shape1_2, shape1_0, shape2_2, shape2_1, shape2_0, shape3_1, shape3_0, shape4_1, shape4_0, shape5_1, shape5_0, shape6_0, shape7_2, shape7_1, shape8_1, shape9_2, shape9_1, shape10_3, shape10_2, shape10_1, shape11_2, shape11_1, shape12_2, shape12_1, shape13_3, shape13_1, shape14_1, shape15_1, shape16_1]

theorem fields_fcmpExt (gd : Guard) (ft : BitVec 2) (rmo : BitVec 3) (cc : BitVec 3) (q : PIx) (a : GIx) (b : OpB) :
    fieldsOf (.fcmpExt gd ft rmo cc q a b) = some {len := b.len, maj := 0x36, gd := gd, d := cc ++ q, a := a, attr := ft.setWidth 6, imm16 := 0#8 ++ rmo ++ 0#5, b := b.fld, lit := b.litw} := rfl

theorem pick_fcmpExt (gd : Guard) (ft : BitVec 2) (rmo : BitVec 3) (cc : BitVec 3) (q : PIx) (a : GIx) (b : OpB) :
    (fieldsOf (.fcmpExt gd ft rmo cc q a b)).bind pickRow = some (.fcmpExt gd ft rmo cc q a b) := by
  simp only [fields_fcmpExt, Option.bind_some]
  cases b <;>
  simp (disch := decide) [-BitVec.getLsbD_eq_getElem, pickRow, pickRow6, OpB.len, OpB.fld, OpB.litw, Fields.opB, Fields.opA, set_set, ofBool_bit, shape0_1, shape0_0, shape1_2, shape1_0, shape2_2, shape2_1, shape2_0, shape3_1, shape3_0, shape4_1, shape4_0, shape5_1, shape5_0, shape6_0, shape7_2, shape7_1, shape8_1, shape9_2, shape9_1, shape10_3, shape10_2, shape10_1, shape11_2, shape11_1, shape12_2, shape12_1, shape13_3, shape13_1, shape14_1, shape15_1, shape16_1]

theorem fields_fcvt (gd : Guard) (rmo : BitVec 3) (dst : BitVec 5) (src : BitVec 5) (d : GIx) (a : GIx) :
    fieldsOf (.fcvt gd rmo dst src d a) = some {len := 2, maj := 0x37, gd := gd, d := d, a := a, c := src.setWidth 6, min := 1#4, imm16 := 0#8 ++ rmo ++ dst} := rfl

theorem pick_fcvt (gd : Guard) (rmo : BitVec 3) (dst : BitVec 5) (src : BitVec 5) (d : GIx) (a : GIx) :
    (fieldsOf (.fcvt gd rmo dst src d a)).bind pickRow = some (.fcvt gd rmo dst src d a) := by
  simp only [fields_fcvt, Option.bind_some]
  simp (disch := decide) [-BitVec.getLsbD_eq_getElem, pickRow, pickRow6, set_set, ofBool_bit, shape0_1, shape0_0, shape1_2, shape1_0, shape2_2, shape2_1, shape2_0, shape3_1, shape3_0, shape4_1, shape4_0, shape5_1, shape5_0, shape6_0, shape7_2, shape7_1, shape8_1, shape9_2, shape9_1, shape10_3, shape10_2, shape10_1, shape11_2, shape11_1, shape12_2, shape12_1, shape13_3, shape13_1, shape14_1, shape15_1, shape16_1]

theorem fields_fclass (gd : Guard) (ty : BitVec 5) (d : GIx) (a : GIx) :
    fieldsOf (.fclass gd ty d a) = some {len := 2, maj := 0x37, gd := gd, d := d, a := a, c := ty.setWidth 6, min := 2#4} := rfl

theorem pick_fclass (gd : Guard) (ty : BitVec 5) (d : GIx) (a : GIx) :
    (fieldsOf (.fclass gd ty d a)).bind pickRow = some (.fclass gd ty d a) := by
  simp only [fields_fclass, Option.bind_some]
  simp (disch := decide) [-BitVec.getLsbD_eq_getElem, pickRow, pickRow6, set_set, ofBool_bit, shape0_1, shape0_0, shape1_2, shape1_0, shape2_2, shape2_1, shape2_0, shape3_1, shape3_0, shape4_1, shape4_0, shape5_1, shape5_0, shape6_0, shape7_2, shape7_1, shape8_1, shape9_2, shape9_1, shape10_3, shape10_2, shape10_1, shape11_2, shape11_1, shape12_2, shape12_1, shape13_3, shape13_1, shape14_1, shape15_1, shape16_1]

theorem fields_rds (gd : Guard) (d : GIx) (h : BitVec 4) (l : BitVec 6) :
    fieldsOf (.rds gd d h l) = some {len := 0, maj := 0x38, gd := gd, d := d, a := l, b := h.setWidth 6} := rfl

theorem pick_rds (gd : Guard) (d : GIx) (h : BitVec 4) (l : BitVec 6) :
    (fieldsOf (.rds gd d h l)).bind pickRow = some (.rds gd d h l) := by
  simp only [fields_rds, Option.bind_some]
  simp (disch := decide) [-BitVec.getLsbD_eq_getElem, pickRow, pickRow7, set_set, ofBool_bit, shape0_1, shape0_0, shape1_2, shape1_0, shape2_2, shape2_1, shape2_0, shape3_1, shape3_0, shape4_1, shape4_0, shape5_1, shape5_0, shape6_0, shape7_2, shape7_1, shape8_1, shape9_2, shape9_1, shape10_3, shape10_2, shape10_1, shape11_2, shape11_1, shape12_2, shape12_1, shape13_3, shape13_1, shape14_1, shape15_1, shape16_1]

theorem fields_wrs (gd : Guard) (h : BitVec 4) (l : BitVec 6) (a : GIx) :
    fieldsOf (.wrs gd h l a) = some {len := 0, maj := 0x39, gd := gd, d := l, a := a, b := h.setWidth 6} := rfl

theorem pick_wrs (gd : Guard) (h : BitVec 4) (l : BitVec 6) (a : GIx) :
    (fieldsOf (.wrs gd h l a)).bind pickRow = some (.wrs gd h l a) := by
  simp only [fields_wrs, Option.bind_some]
  simp (disch := decide) [-BitVec.getLsbD_eq_getElem, pickRow, pickRow7, set_set, ofBool_bit, shape0_1, shape0_0, shape1_2, shape1_0, shape2_2, shape2_1, shape2_0, shape3_1, shape3_0, shape4_1, shape4_0, shape5_1, shape5_0, shape6_0, shape7_2, shape7_1, shape8_1, shape9_2, shape9_1, shape10_3, shape10_2, shape10_1, shape11_2, shape11_1, shape12_2, shape12_1, shape13_3, shape13_1, shape14_1, shape15_1, shape16_1]

theorem fields_vadd (gd : Guard) (d : VIx) (a : VIx) (b : VIx) :
    fieldsOf (.vadd gd d a b) = some {len := 0, maj := 0x40, gd := gd, d := d.setWidth 6, a := a.setWidth 6, b := b.setWidth 6} := rfl

theorem pick_vadd (gd : Guard) (d : VIx) (a : VIx) (b : VIx) :
    (fieldsOf (.vadd gd d a b)).bind pickRow = some (.vadd gd d a b) := by
  simp only [fields_vadd, Option.bind_some]
  simp (disch := decide) [-BitVec.getLsbD_eq_getElem, pickRow, pickRow8, set_set, ofBool_bit, shape0_1, shape0_0, shape1_2, shape1_0, shape2_2, shape2_1, shape2_0, shape3_1, shape3_0, shape4_1, shape4_0, shape5_1, shape5_0, shape6_0, shape7_2, shape7_1, shape8_1, shape9_2, shape9_1, shape10_3, shape10_2, shape10_1, shape11_2, shape11_1, shape12_2, shape12_1, shape13_3, shape13_1, shape14_1, shape15_1, shape16_1]

theorem fields_vaddExt (gd : Guard) (x : VMask) (rmo : BitVec 3) (d : VIx) (a : VIx) (b : VIx) :
    fieldsOf (.vaddExt gd x rmo d a b) = some {len := 2, maj := 0x40, gd := gd, d := d.setWidth 6, a := a.setWidth 6, b := b.setWidth 6, attr := 0#2 ++ BitVec.ofBool x.vz ++ x.vm, imm16 := 0#8 ++ rmo ++ 0#5} := rfl

theorem pick_vaddExt (gd : Guard) (x : VMask) (rmo : BitVec 3) (d : VIx) (a : VIx) (b : VIx) :
    (fieldsOf (.vaddExt gd x rmo d a b)).bind pickRow = some (.vaddExt gd x rmo d a b) := by
  simp only [fields_vaddExt, Option.bind_some]
  simp (disch := decide) [-BitVec.getLsbD_eq_getElem, pickRow, pickRow8, set_set, ofBool_bit, shape0_1, shape0_0, shape1_2, shape1_0, shape2_2, shape2_1, shape2_0, shape3_1, shape3_0, shape4_1, shape4_0, shape5_1, shape5_0, shape6_0, shape7_2, shape7_1, shape8_1, shape9_2, shape9_1, shape10_3, shape10_2, shape10_1, shape11_2, shape11_1, shape12_2, shape12_1, shape13_3, shape13_1, shape14_1, shape15_1, shape16_1]

theorem fields_vsub (gd : Guard) (d : VIx) (a : VIx) (b : VIx) :
    fieldsOf (.vsub gd d a b) = some {len := 0, maj := 0x41, gd := gd, d := d.setWidth 6, a := a.setWidth 6, b := b.setWidth 6} := rfl

theorem pick_vsub (gd : Guard) (d : VIx) (a : VIx) (b : VIx) :
    (fieldsOf (.vsub gd d a b)).bind pickRow = some (.vsub gd d a b) := by
  simp only [fields_vsub, Option.bind_some]
  simp (disch := decide) [-BitVec.getLsbD_eq_getElem, pickRow, pickRow8, set_set, ofBool_bit, shape0_1, shape0_0, shape1_2, shape1_0, shape2_2, shape2_1, shape2_0, shape3_1, shape3_0, shape4_1, shape4_0, shape5_1, shape5_0, shape6_0, shape7_2, shape7_1, shape8_1, shape9_2, shape9_1, shape10_3, shape10_2, shape10_1, shape11_2, shape11_1, shape12_2, shape12_1, shape13_3, shape13_1, shape14_1, shape15_1, shape16_1]

theorem fields_vsubExt (gd : Guard) (x : VMask) (rmo : BitVec 3) (d : VIx) (a : VIx) (b : VIx) :
    fieldsOf (.vsubExt gd x rmo d a b) = some {len := 2, maj := 0x41, gd := gd, d := d.setWidth 6, a := a.setWidth 6, b := b.setWidth 6, attr := 0#2 ++ BitVec.ofBool x.vz ++ x.vm, imm16 := 0#8 ++ rmo ++ 0#5} := rfl

theorem pick_vsubExt (gd : Guard) (x : VMask) (rmo : BitVec 3) (d : VIx) (a : VIx) (b : VIx) :
    (fieldsOf (.vsubExt gd x rmo d a b)).bind pickRow = some (.vsubExt gd x rmo d a b) := by
  simp only [fields_vsubExt, Option.bind_some]
  simp (disch := decide) [-BitVec.getLsbD_eq_getElem, pickRow, pickRow8, set_set, ofBool_bit, shape0_1, shape0_0, shape1_2, shape1_0, shape2_2, shape2_1, shape2_0, shape3_1, shape3_0, shape4_1, shape4_0, shape5_1, shape5_0, shape6_0, shape7_2, shape7_1, shape8_1, shape9_2, shape9_1, shape10_3, shape10_2, shape10_1, shape11_2, shape11_1, shape12_2, shape12_1, shape13_3, shape13_1, shape14_1, shape15_1, shape16_1]

theorem fields_vmul (gd : Guard) (d : VIx) (a : VIx) (b : VIx) :
    fieldsOf (.vmul gd d a b) = some {len := 0, maj := 0x42, gd := gd, d := d.setWidth 6, a := a.setWidth 6, b := b.setWidth 6} := rfl

theorem pick_vmul (gd : Guard) (d : VIx) (a : VIx) (b : VIx) :
    (fieldsOf (.vmul gd d a b)).bind pickRow = some (.vmul gd d a b) := by
  simp only [fields_vmul, Option.bind_some]
  simp (disch := decide) [-BitVec.getLsbD_eq_getElem, pickRow, pickRow8, set_set, ofBool_bit, shape0_1, shape0_0, shape1_2, shape1_0, shape2_2, shape2_1, shape2_0, shape3_1, shape3_0, shape4_1, shape4_0, shape5_1, shape5_0, shape6_0, shape7_2, shape7_1, shape8_1, shape9_2, shape9_1, shape10_3, shape10_2, shape10_1, shape11_2, shape11_1, shape12_2, shape12_1, shape13_3, shape13_1, shape14_1, shape15_1, shape16_1]

theorem fields_vmulExt (gd : Guard) (x : VMask) (rmo : BitVec 3) (d : VIx) (a : VIx) (b : VIx) :
    fieldsOf (.vmulExt gd x rmo d a b) = some {len := 2, maj := 0x42, gd := gd, d := d.setWidth 6, a := a.setWidth 6, b := b.setWidth 6, attr := 0#2 ++ BitVec.ofBool x.vz ++ x.vm, imm16 := 0#8 ++ rmo ++ 0#5} := rfl

theorem pick_vmulExt (gd : Guard) (x : VMask) (rmo : BitVec 3) (d : VIx) (a : VIx) (b : VIx) :
    (fieldsOf (.vmulExt gd x rmo d a b)).bind pickRow = some (.vmulExt gd x rmo d a b) := by
  simp only [fields_vmulExt, Option.bind_some]
  simp (disch := decide) [-BitVec.getLsbD_eq_getElem, pickRow, pickRow8, set_set, ofBool_bit, shape0_1, shape0_0, shape1_2, shape1_0, shape2_2, shape2_1, shape2_0, shape3_1, shape3_0, shape4_1, shape4_0, shape5_1, shape5_0, shape6_0, shape7_2, shape7_1, shape8_1, shape9_2, shape9_1, shape10_3, shape10_2, shape10_1, shape11_2, shape11_1, shape12_2, shape12_1, shape13_3, shape13_1, shape14_1, shape15_1, shape16_1]

theorem fields_vmin (gd : Guard) (d : VIx) (a : VIx) (b : VIx) :
    fieldsOf (.vmin gd d a b) = some {len := 0, maj := 0x43, gd := gd, d := d.setWidth 6, a := a.setWidth 6, b := b.setWidth 6} := rfl

theorem pick_vmin (gd : Guard) (d : VIx) (a : VIx) (b : VIx) :
    (fieldsOf (.vmin gd d a b)).bind pickRow = some (.vmin gd d a b) := by
  simp only [fields_vmin, Option.bind_some]
  simp (disch := decide) [-BitVec.getLsbD_eq_getElem, pickRow, pickRow8, set_set, ofBool_bit, shape0_1, shape0_0, shape1_2, shape1_0, shape2_2, shape2_1, shape2_0, shape3_1, shape3_0, shape4_1, shape4_0, shape5_1, shape5_0, shape6_0, shape7_2, shape7_1, shape8_1, shape9_2, shape9_1, shape10_3, shape10_2, shape10_1, shape11_2, shape11_1, shape12_2, shape12_1, shape13_3, shape13_1, shape14_1, shape15_1, shape16_1]

theorem fields_vminExt (gd : Guard) (x : VMask) (rmo : BitVec 3) (d : VIx) (a : VIx) (b : VIx) :
    fieldsOf (.vminExt gd x rmo d a b) = some {len := 2, maj := 0x43, gd := gd, d := d.setWidth 6, a := a.setWidth 6, b := b.setWidth 6, attr := 0#2 ++ BitVec.ofBool x.vz ++ x.vm, imm16 := 0#8 ++ rmo ++ 0#5} := rfl

theorem pick_vminExt (gd : Guard) (x : VMask) (rmo : BitVec 3) (d : VIx) (a : VIx) (b : VIx) :
    (fieldsOf (.vminExt gd x rmo d a b)).bind pickRow = some (.vminExt gd x rmo d a b) := by
  simp only [fields_vminExt, Option.bind_some]
  simp (disch := decide) [-BitVec.getLsbD_eq_getElem, pickRow, pickRow8, set_set, ofBool_bit, shape0_1, shape0_0, shape1_2, shape1_0, shape2_2, shape2_1, shape2_0, shape3_1, shape3_0, shape4_1, shape4_0, shape5_1, shape5_0, shape6_0, shape7_2, shape7_1, shape8_1, shape9_2, shape9_1, shape10_3, shape10_2, shape10_1, shape11_2, shape11_1, shape12_2, shape12_1, shape13_3, shape13_1, shape14_1, shape15_1, shape16_1]

theorem fields_vmax (gd : Guard) (d : VIx) (a : VIx) (b : VIx) :
    fieldsOf (.vmax gd d a b) = some {len := 0, maj := 0x44, gd := gd, d := d.setWidth 6, a := a.setWidth 6, b := b.setWidth 6} := rfl

theorem pick_vmax (gd : Guard) (d : VIx) (a : VIx) (b : VIx) :
    (fieldsOf (.vmax gd d a b)).bind pickRow = some (.vmax gd d a b) := by
  simp only [fields_vmax, Option.bind_some]
  simp (disch := decide) [-BitVec.getLsbD_eq_getElem, pickRow, pickRow8, set_set, ofBool_bit, shape0_1, shape0_0, shape1_2, shape1_0, shape2_2, shape2_1, shape2_0, shape3_1, shape3_0, shape4_1, shape4_0, shape5_1, shape5_0, shape6_0, shape7_2, shape7_1, shape8_1, shape9_2, shape9_1, shape10_3, shape10_2, shape10_1, shape11_2, shape11_1, shape12_2, shape12_1, shape13_3, shape13_1, shape14_1, shape15_1, shape16_1]

theorem fields_vmaxExt (gd : Guard) (x : VMask) (rmo : BitVec 3) (d : VIx) (a : VIx) (b : VIx) :
    fieldsOf (.vmaxExt gd x rmo d a b) = some {len := 2, maj := 0x44, gd := gd, d := d.setWidth 6, a := a.setWidth 6, b := b.setWidth 6, attr := 0#2 ++ BitVec.ofBool x.vz ++ x.vm, imm16 := 0#8 ++ rmo ++ 0#5} := rfl

theorem pick_vmaxExt (gd : Guard) (x : VMask) (rmo : BitVec 3) (d : VIx) (a : VIx) (b : VIx) :
    (fieldsOf (.vmaxExt gd x rmo d a b)).bind pickRow = some (.vmaxExt gd x rmo d a b) := by
  simp only [fields_vmaxExt, Option.bind_some]
  simp (disch := decide) [-BitVec.getLsbD_eq_getElem, pickRow, pickRow8, set_set, ofBool_bit, shape0_1, shape0_0, shape1_2, shape1_0, shape2_2, shape2_1, shape2_0, shape3_1, shape3_0, shape4_1, shape4_0, shape5_1, shape5_0, shape6_0, shape7_2, shape7_1, shape8_1, shape9_2, shape9_1, shape10_3, shape10_2, shape10_1, shape11_2, shape11_1, shape12_2, shape12_1, shape13_3, shape13_1, shape14_1, shape15_1, shape16_1]

theorem fields_vfma (gd : Guard) (x : VMask) (rmo : BitVec 3) (d : VIx) (a : VIx) (b : VIx) (c : VIx) :
    fieldsOf (.vfma gd x rmo d a b c) = some {len := 2, maj := 0x4B, gd := gd, d := d.setWidth 6, a := a.setWidth 6, b := b.setWidth 6, c := c.setWidth 6, attr := 0#2 ++ BitVec.ofBool x.vz ++ x.vm, imm16 := 0#8 ++ rmo ++ 0#5} := rfl

theorem pick_vfma (gd : Guard) (x : VMask) (rmo : BitVec 3) (d : VIx) (a : VIx) (b : VIx) (c : VIx) :
    (fieldsOf (.vfma gd x rmo d a b c)).bind pickRow = some (.vfma gd x rmo d a b c) := by
  simp only [fields_vfma, Option.bind_some]
  simp (disch := decide) [-BitVec.getLsbD_eq_getElem, pickRow, pickRow9, set_set, ofBool_bit, shape0_1, shape0_0, shape1_2, shape1_0, shape2_2, shape2_1, shape2_0, shape3_1, shape3_0, shape4_1, shape4_0, shape5_1, shape5_0, shape6_0, shape7_2, shape7_1, shape8_1, shape9_2, shape9_1, shape10_3, shape10_2, shape10_1, shape11_2, shape11_1, shape12_2, shape12_1, shape13_3, shape13_1, shape14_1, shape15_1, shape16_1]

theorem fields_vabs (gd : Guard) (d : VIx) (a : VIx) :
    fieldsOf (.vabs gd d a) = some {len := 0, maj := 0x4C, gd := gd, d := d.setWidth 6, a := a.setWidth 6, b := 0#6} := rfl

theorem pick_vabs (gd : Guard) (d : VIx) (a : VIx) :
    (fieldsOf (.vabs gd d a)).bind pickRow = some (.vabs gd d a) := by
  simp only [fields_vabs, Option.bind_some]
  simp (disch := decide) [-BitVec.getLsbD_eq_getElem, pickRow, pickRow9, set_set, ofBool_bit, shape0_1, shape0_0, shape1_2, shape1_0, shape2_2, shape2_1, shape2_0, shape3_1, shape3_0, shape4_1, shape4_0, shape5_1, shape5_0, shape6_0, shape7_2, shape7_1, shape8_1, shape9_2, shape9_1, shape10_3, shape10_2, shape10_1, shape11_2, shape11_1, shape12_2, shape12_1, shape13_3, shape13_1, shape14_1, shape15_1, shape16_1]

theorem fields_vabsExt (gd : Guard) (x : VMask) (d : VIx) (a : VIx) :
    fieldsOf (.vabsExt gd x d a) = some {len := 2, maj := 0x4C, gd := gd, d := d.setWidth 6, a := a.setWidth 6, b := 0#6, attr := 0#2 ++ BitVec.ofBool x.vz ++ x.vm} := rfl

theorem pick_vabsExt (gd : Guard) (x : VMask) (d : VIx) (a : VIx) :
    (fieldsOf (.vabsExt gd x d a)).bind pickRow = some (.vabsExt gd x d a) := by
  simp only [fields_vabsExt, Option.bind_some]
  simp (disch := decide) [-BitVec.getLsbD_eq_getElem, pickRow, pickRow9, set_set, ofBool_bit, shape0_1, shape0_0, shape1_2, shape1_0, shape2_2, shape2_1, shape2_0, shape3_1, shape3_0, shape4_1, shape4_0, shape5_1, shape5_0, shape6_0, shape7_2, shape7_1, shape8_1, shape9_2, shape9_1, shape10_3, shape10_2, shape10_1, shape11_2, shape11_1, shape12_2, shape12_1, shape13_3, shape13_1, shape14_1, shape15_1, shape16_1]

theorem fields_vmov (gd : Guard) (d : VIx) (a : VIx) :
    fieldsOf (.vmov gd d a) = some {len := 0, maj := 0x4C, gd := gd, d := d.setWidth 6, a := a.setWidth 6, b := 1#6} := rfl

theorem pick_vmov (gd : Guard) (d : VIx) (a : VIx) :
    (fieldsOf (.vmov gd d a)).bind pickRow = some (.vmov gd d a) := by
  simp only [fields_vmov, Option.bind_some]
  simp (disch := decide) [-BitVec.getLsbD_eq_getElem, pickRow, pickRow9, set_set, ofBool_bit, shape0_1, shape0_0, shape1_2, shape1_0, shape2_2, shape2_1, shape2_0, shape3_1, shape3_0, shape4_1, shape4_0, shape5_1, shape5_0, shape6_0, shape7_2, shape7_1, shape8_1, shape9_2, shape9_1, shape10_3, shape10_2, shape10_1, shape11_2, shape11_1, shape12_2, shape12_1, shape13_3, shape13_1, shape14_1, shape15_1, shape16_1]

theorem fields_vmovExt (gd : Guard) (x : VMask) (d : VIx) (a : VIx) :
    fieldsOf (.vmovExt gd x d a) = some {len := 2, maj := 0x4C, gd := gd, d := d.setWidth 6, a := a.setWidth 6, b := 1#6, attr := 0#2 ++ BitVec.ofBool x.vz ++ x.vm} := rfl

theorem pick_vmovExt (gd : Guard) (x : VMask) (d : VIx) (a : VIx) :
    (fieldsOf (.vmovExt gd x d a)).bind pickRow = some (.vmovExt gd x d a) := by
  simp only [fields_vmovExt, Option.bind_some]
  simp (disch := decide) [-BitVec.getLsbD_eq_getElem, pickRow, pickRow9, set_set, ofBool_bit, shape0_1, shape0_0, shape1_2, shape1_0, shape2_2, shape2_1, shape2_0, shape3_1, shape3_0, shape4_1, shape4_0, shape5_1, shape5_0, shape6_0, shape7_2, shape7_1, shape8_1, shape9_2, shape9_1, shape10_3, shape10_2, shape10_1, shape11_2, shape11_1, shape12_2, shape12_1, shape13_3, shape13_1, shape14_1, shape15_1, shape16_1]

theorem fields_vand (gd : Guard) (d : VIx) (a : VIx) (b : VIx) :
    fieldsOf (.vand gd d a b) = some {len := 0, maj := 0x45, gd := gd, d := d.setWidth 6, a := a.setWidth 6, b := b.setWidth 6} := rfl

theorem pick_vand (gd : Guard) (d : VIx) (a : VIx) (b : VIx) :
    (fieldsOf (.vand gd d a b)).bind pickRow = some (.vand gd d a b) := by
  simp only [fields_vand, Option.bind_some]
  simp (disch := decide) [-BitVec.getLsbD_eq_getElem, pickRow, pickRow8, set_set, ofBool_bit, shape0_1, shape0_0, shape1_2, shape1_0, shape2_2, shape2_1, shape2_0, shape3_1, shape3_0, shape4_1, shape4_0, shape5_1, shape5_0, shape6_0, shape7_2, shape7_1, shape8_1, shape9_2, shape9_1, shape10_3, shape10_2, shape10_1, shape11_2, shape11_1, shape12_2, shape12_1, shape13_3, shape13_1, shape14_1, shape15_1, shape16_1]

theorem fields_vandExt (gd : Guard) (x : VMask) (d : VIx) (a : VIx) (b : VIx) :
    fieldsOf (.vandExt gd x d a b) = some {len := 2, maj := 0x45, gd := gd, d := d.setWidth 6, a := a.setWidth 6, b := b.setWidth 6, attr := 0#2 ++ BitVec.ofBool x.vz ++ x.vm} := rfl

theorem pick_vandExt (gd : Guard) (x : VMask) (d : VIx) (a : VIx) (b : VIx) :
    (fieldsOf (.vandExt gd x d a b)).bind pickRow = some (.vandExt gd x d a b) := by
  simp only [fields_vandExt, Option.bind_some]
  simp (disch := decide) [-BitVec.getLsbD_eq_getElem, pickRow, pickRow8, set_set, ofBool_bit, shape0_1, shape0_0, shape1_2, shape1_0, shape2_2, shape2_1, shape2_0, shape3_1, shape3_0, shape4_1, shape4_0, shape5_1, shape5_0, shape6_0, shape7_2, shape7_1, shape8_1, shape9_2, shape9_1, shape10_3, shape10_2, shape10_1, shape11_2, shape11_1, shape12_2, shape12_1, shape13_3, shape13_1, shape14_1, shape15_1, shape16_1]

theorem fields_vor (gd : Guard) (d : VIx) (a : VIx) (b : VIx) :
    fieldsOf (.vor gd d a b) = some {len := 0, maj := 0x46, gd := gd, d := d.setWidth 6, a := a.setWidth 6, b := b.setWidth 6} := rfl

theorem pick_vor (gd : Guard) (d : VIx) (a : VIx) (b : VIx) :
    (fieldsOf (.vor gd d a b)).bind pickRow = some (.vor gd d a b) := by
  simp only [fields_vor, Option.bind_some]
  simp (disch := decide) [-BitVec.getLsbD_eq_getElem, pickRow, pickRow8, set_set, ofBool_bit, shape0_1, shape0_0, shape1_2, shape1_0, shape2_2, shape2_1, shape2_0, shape3_1, shape3_0, shape4_1, shape4_0, shape5_1, shape5_0, shape6_0, shape7_2, shape7_1, shape8_1, shape9_2, shape9_1, shape10_3, shape10_2, shape10_1, shape11_2, shape11_1, shape12_2, shape12_1, shape13_3, shape13_1, shape14_1, shape15_1, shape16_1]

theorem fields_vorExt (gd : Guard) (x : VMask) (d : VIx) (a : VIx) (b : VIx) :
    fieldsOf (.vorExt gd x d a b) = some {len := 2, maj := 0x46, gd := gd, d := d.setWidth 6, a := a.setWidth 6, b := b.setWidth 6, attr := 0#2 ++ BitVec.ofBool x.vz ++ x.vm} := rfl

theorem pick_vorExt (gd : Guard) (x : VMask) (d : VIx) (a : VIx) (b : VIx) :
    (fieldsOf (.vorExt gd x d a b)).bind pickRow = some (.vorExt gd x d a b) := by
  simp only [fields_vorExt, Option.bind_some]
  simp (disch := decide) [-BitVec.getLsbD_eq_getElem, pickRow, pickRow8, set_set, ofBool_bit, shape0_1, shape0_0, shape1_2, shape1_0, shape2_2, shape2_1, shape2_0, shape3_1, shape3_0, shape4_1, shape4_0, shape5_1, shape5_0, shape6_0, shape7_2, shape7_1, shape8_1, shape9_2, shape9_1, shape10_3, shape10_2, shape10_1, shape11_2, shape11_1, shape12_2, shape12_1, shape13_3, shape13_1, shape14_1, shape15_1, shape16_1]

theorem fields_vxor (gd : Guard) (d : VIx) (a : VIx) (b : VIx) :
    fieldsOf (.vxor gd d a b) = some {len := 0, maj := 0x47, gd := gd, d := d.setWidth 6, a := a.setWidth 6, b := b.setWidth 6} := rfl

theorem pick_vxor (gd : Guard) (d : VIx) (a : VIx) (b : VIx) :
    (fieldsOf (.vxor gd d a b)).bind pickRow = some (.vxor gd d a b) := by
  simp only [fields_vxor, Option.bind_some]
  simp (disch := decide) [-BitVec.getLsbD_eq_getElem, pickRow, pickRow8, set_set, ofBool_bit, shape0_1, shape0_0, shape1_2, shape1_0, shape2_2, shape2_1, shape2_0, shape3_1, shape3_0, shape4_1, shape4_0, shape5_1, shape5_0, shape6_0, shape7_2, shape7_1, shape8_1, shape9_2, shape9_1, shape10_3, shape10_2, shape10_1, shape11_2, shape11_1, shape12_2, shape12_1, shape13_3, shape13_1, shape14_1, shape15_1, shape16_1]

theorem fields_vxorExt (gd : Guard) (x : VMask) (d : VIx) (a : VIx) (b : VIx) :
    fieldsOf (.vxorExt gd x d a b) = some {len := 2, maj := 0x47, gd := gd, d := d.setWidth 6, a := a.setWidth 6, b := b.setWidth 6, attr := 0#2 ++ BitVec.ofBool x.vz ++ x.vm} := rfl

theorem pick_vxorExt (gd : Guard) (x : VMask) (d : VIx) (a : VIx) (b : VIx) :
    (fieldsOf (.vxorExt gd x d a b)).bind pickRow = some (.vxorExt gd x d a b) := by
  simp only [fields_vxorExt, Option.bind_some]
  simp (disch := decide) [-BitVec.getLsbD_eq_getElem, pickRow, pickRow8, set_set, ofBool_bit, shape0_1, shape0_0, shape1_2, shape1_0, shape2_2, shape2_1, shape2_0, shape3_1, shape3_0, shape4_1, shape4_0, shape5_1, shape5_0, shape6_0, shape7_2, shape7_1, shape8_1, shape9_2, shape9_1, shape10_3, shape10_2, shape10_1, shape11_2, shape11_1, shape12_2, shape12_1, shape13_3, shape13_1, shape14_1, shape15_1, shape16_1]

theorem fields_vshlReg (gd : Guard) (d : VIx) (a : VIx) (b : VIx) :
    fieldsOf (.vshlReg gd d a b) = some {len := 0, maj := 0x48, gd := gd, d := d.setWidth 6, a := a.setWidth 6, b := b.setWidth 6} := rfl

theorem pick_vshlReg (gd : Guard) (d : VIx) (a : VIx) (b : VIx) :
    (fieldsOf (.vshlReg gd d a b)).bind pickRow = some (.vshlReg gd d a b) := by
  simp only [fields_vshlReg, Option.bind_some]
  simp (disch := decide) [-BitVec.getLsbD_eq_getElem, pickRow, pickRow9, set_set, ofBool_bit, shape0_1, shape0_0, shape1_2, shape1_0, shape2_2, shape2_1, shape2_0, shape3_1, shape3_0, shape4_1, shape4_0, shape5_1, shape5_0, shape6_0, shape7_2, shape7_1, shape8_1, shape9_2, shape9_1, shape10_3, shape10_2, shape10_1, shape11_2, shape11_1, shape12_2, shape12_1, shape13_3, shape13_1, shape14_1, shape15_1, shape16_1]

theorem fields_vshlImm (gd : Guard) (d : VIx) (a : VIx) (imm : BitVec 6) :
    fieldsOf (.vshlImm gd d a imm) = some {len := 0, maj := 0x48, gd := gd, s := true, d := d.setWidth 6, a := a.setWidth 6, b := imm} := rfl

theorem pick_vshlImm (gd : Guard) (d : VIx) (a : VIx) (imm : BitVec 6) :
    (fieldsOf (.vshlImm gd d a imm)).bind pickRow = some (.vshlImm gd d a imm) := by
  simp only [fields_vshlImm, Option.bind_some]
  simp (disch := decide) [-BitVec.getLsbD_eq_getElem, pickRow, pickRow9, set_set, ofBool_bit, shape0_1, shape0_0, shape1_2, shape1_0, shape2_2, shape2_1, shape2_0, shape3_1, shape3_0, shape4_1, shape4_0, shape5_1, shape5_0, shape6_0, shape7_2, shape7_1, shape8_1, shape9_2, shape9_1, shape10_3, shape10_2, shape10_1, shape11_2, shape11_1, shape12_2, shape12_1, shape13_3, shape13_1, shape14_1, shape15_1, shape16_1]

theorem fields_vshlExt (gd : Guard) (x : VMask) (s : Bool) (d : VIx) (a : VIx) (b : BitVec 6) :
    fieldsOf (.vshlExt gd x s d a b) = some {len := 2, maj := 0x48, gd := gd, s := s, d := d.setWidth 6, a := a.setWidth 6, b := b, attr := 0#2 ++ BitVec.ofBool x.vz ++ x.vm} := rfl

theorem pick_vshlExt (gd : Guard) (x : VMask) (s : Bool) (d : VIx) (a : VIx) (b : BitVec 6) :
    (fieldsOf (.vshlExt gd x s d a b)).bind pickRow = some (.vshlExt gd x s d a b) := by
  simp only [fields_vshlExt, Option.bind_some]
  simp (disch := decide) [-BitVec.getLsbD_eq_getElem, pickRow, pickRow9, set_set, ofBool_bit, shape0_1, shape0_0, shape1_2, shape1_0, shape2_2, shape2_1, shape2_0, shape3_1, shape3_0, shape4_1, shape4_0, shape5_1, shape5_0, shape6_0, shape7_2, shape7_1, shape8_1, shape9_2, shape9_1, shape10_3, shape10_2, shape10_1, shape11_2, shape11_1, shape12_2, shape12_1, shape13_3, shape13_1, shape14_1, shape15_1, shape16_1]

theorem fields_vshrReg (gd : Guard) (d : VIx) (a : VIx) (b : VIx) :
    fieldsOf (.vshrReg gd d a b) = some {len := 0, maj := 0x49, gd := gd, d := d.setWidth 6, a := a.setWidth 6, b := b.setWidth 6} := rfl

theorem pick_vshrReg (gd : Guard) (d : VIx) (a : VIx) (b : VIx) :
    (fieldsOf (.vshrReg gd d a b)).bind pickRow = some (.vshrReg gd d a b) := by
  simp only [fields_vshrReg, Option.bind_some]
  simp (disch := decide) [-BitVec.getLsbD_eq_getElem, pickRow, pickRow9, set_set, ofBool_bit, shape0_1, shape0_0, shape1_2, shape1_0, shape2_2, shape2_1, shape2_0, shape3_1, shape3_0, shape4_1, shape4_0, shape5_1, shape5_0, shape6_0, shape7_2, shape7_1, shape8_1, shape9_2, shape9_1, shape10_3, shape10_2, shape10_1, shape11_2, shape11_1, shape12_2, shape12_1, shape13_3, shape13_1, shape14_1, shape15_1, shape16_1]

theorem fields_vshrImm (gd : Guard) (d : VIx) (a : VIx) (imm : BitVec 6) :
    fieldsOf (.vshrImm gd d a imm) = some {len := 0, maj := 0x49, gd := gd, s := true, d := d.setWidth 6, a := a.setWidth 6, b := imm} := rfl

theorem pick_vshrImm (gd : Guard) (d : VIx) (a : VIx) (imm : BitVec 6) :
    (fieldsOf (.vshrImm gd d a imm)).bind pickRow = some (.vshrImm gd d a imm) := by
  simp only [fields_vshrImm, Option.bind_some]
  simp (disch := decide) [-BitVec.getLsbD_eq_getElem, pickRow, pickRow9, set_set, ofBool_bit, shape0_1, shape0_0, shape1_2, shape1_0, shape2_2, shape2_1, shape2_0, shape3_1, shape3_0, shape4_1, shape4_0, shape5_1, shape5_0, shape6_0, shape7_2, shape7_1, shape8_1, shape9_2, shape9_1, shape10_3, shape10_2, shape10_1, shape11_2, shape11_1, shape12_2, shape12_1, shape13_3, shape13_1, shape14_1, shape15_1, shape16_1]

theorem fields_vshrExt (gd : Guard) (x : VMask) (s : Bool) (d : VIx) (a : VIx) (b : BitVec 6) :
    fieldsOf (.vshrExt gd x s d a b) = some {len := 2, maj := 0x49, gd := gd, s := s, d := d.setWidth 6, a := a.setWidth 6, b := b, attr := 0#2 ++ BitVec.ofBool x.vz ++ x.vm} := rfl

theorem pick_vshrExt (gd : Guard) (x : VMask) (s : Bool) (d : VIx) (a : VIx) (b : BitVec 6) :
    (fieldsOf (.vshrExt gd x s d a b)).bind pickRow = some (.vshrExt gd x s d a b) := by
  simp only [fields_vshrExt, Option.bind_some]
  simp (disch := decide) [-BitVec.getLsbD_eq_getElem, pickRow, pickRow9, set_set, ofBool_bit, shape0_1, shape0_0, shape1_2, shape1_0, shape2_2, shape2_1, shape2_0, shape3_1, shape3_0, shape4_1, shape4_0, shape5_1, shape5_0, shape6_0, shape7_2, shape7_1, shape8_1, shape9_2, shape9_1, shape10_3, shape10_2, shape10_1, shape11_2, shape11_1, shape12_2, shape12_1, shape13_3, shape13_1, shape14_1, shape15_1, shape16_1]

theorem fields_vsraReg (gd : Guard) (d : VIx) (a : VIx) (b : VIx) :
    fieldsOf (.vsraReg gd d a b) = some {len := 0, maj := 0x4A, gd := gd, d := d.setWidth 6, a := a.setWidth 6, b := b.setWidth 6} := rfl

theorem pick_vsraReg (gd : Guard) (d : VIx) (a : VIx) (b : VIx) :
    (fieldsOf (.vsraReg gd d a b)).bind pickRow = some (.vsraReg gd d a b) := by
  simp only [fields_vsraReg, Option.bind_some]
  simp (disch := decide) [-BitVec.getLsbD_eq_getElem, pickRow, pickRow9, set_set, ofBool_bit, shape0_1, shape0_0, shape1_2, shape1_0, shape2_2, shape2_1, shape2_0, shape3_1, shape3_0, shape4_1, shape4_0, shape5_1, shape5_0, shape6_0, shape7_2, shape7_1, shape8_1, shape9_2, shape9_1, shape10_3, shape10_2, shape10_1, shape11_2, shape11_1, shape12_2, shape12_1, shape13_3, shape13_1, shape14_1, shape15_1, shape16_1]

theorem fields_vsraImm (gd : Guard) (d : VIx) (a : VIx) (imm : BitVec 6) :
    fieldsOf (.vsraImm gd d a imm) = some {len := 0, maj := 0x4A, gd := gd, s := true, d := d.setWidth 6, a := a.setWidth 6, b := imm} := rfl

theorem pick_vsraImm (gd : Guard) (d : VIx) (a : VIx) (imm : BitVec 6) :
    (fieldsOf (.vsraImm gd d a imm)).bind pickRow = some (.vsraImm gd d a imm) := by
  simp only [fields_vsraImm, Option.bind_some]
  simp (disch := decide) [-BitVec.getLsbD_eq_getElem, pickRow, pickRow9, set_set, ofBool_bit, shape0_1, shape0_0, shape1_2, shape1_0, shape2_2, shape2_1, shape2_0, shape3_1, shape3_0, shape4_1, shape4_0, shape5_1, shape5_0, shape6_0, shape7_2, shape7_1, shape8_1, shape9_2, shape9_1, shape10_3, shape10_2, shape10_1, shape11_2, shape11_1, shape12_2, shape12_1, shape13_3, shape13_1, shape14_1, shape15_1, shape16_1]

theorem fields_vsraExt (gd : Guard) (x : VMask) (s : Bool) (d : VIx) (a : VIx) (b : BitVec 6) :
    fieldsOf (.vsraExt gd x s d a b) = some {len := 2, maj := 0x4A, gd := gd, s := s, d := d.setWidth 6, a := a.setWidth 6, b := b, attr := 0#2 ++ BitVec.ofBool x.vz ++ x.vm} := rfl

theorem pick_vsraExt (gd : Guard) (x : VMask) (s : Bool) (d : VIx) (a : VIx) (b : BitVec 6) :
    (fieldsOf (.vsraExt gd x s d a b)).bind pickRow = some (.vsraExt gd x s d a b) := by
  simp only [fields_vsraExt, Option.bind_some]
  simp (disch := decide) [-BitVec.getLsbD_eq_getElem, pickRow, pickRow9, set_set, ofBool_bit, shape0_1, shape0_0, shape1_2, shape1_0, shape2_2, shape2_1, shape2_0, shape3_1, shape3_0, shape4_1, shape4_0, shape5_1, shape5_0, shape6_0, shape7_2, shape7_1, shape8_1, shape9_2, shape9_1, shape10_3, shape10_2, shape10_1, shape11_2, shape11_1, shape12_2, shape12_1, shape13_3, shape13_1, shape14_1, shape15_1, shape16_1]

theorem fields_vcmp (gd : Guard) (cc : BitVec 3) (q : MIx) (a : VIx) (b : VIx) :
    fieldsOf (.vcmp gd cc q a b) = some {len := 0, maj := 0x4D, gd := gd, d := cc ++ q, a := a.setWidth 6, b := b.setWidth 6} := rfl

theorem pick_vcmp (gd : Guard) (cc : BitVec 3) (q : MIx) (a : VIx) (b : VIx) :
    (fieldsOf (.vcmp gd cc q a b)).bind pickRow = some (.vcmp gd cc q a b) := by
  simp only [fields_vcmp, Option.bind_some]
  simp (disch := decide) [-BitVec.getLsbD_eq_getElem, pickRow, pickRow9, set_set, ofBool_bit, shape0_1, shape0_0, shape1_2, shape1_0, shape2_2, shape2_1, shape2_0, shape3_1, shape3_0, shape4_1, shape4_0, shape5_1, shape5_0, shape6_0, shape7_2, shape7_1, shape8_1, shape9_2, shape9_1, shape10_3, shape10_2, shape10_1, shape11_2, shape11_1, shape12_2, shape12_1, shape13_3, shape13_1, shape14_1, shape15_1, shape16_1]

theorem fields_vcmpExt (gd : Guard) (x : VMask) (cc : BitVec 3) (q : MIx) (a : VIx) (b : VIx) :
    fieldsOf (.vcmpExt gd x cc q a b) = some {len := 2, maj := 0x4D, gd := gd, d := cc ++ q, a := a.setWidth 6, b := b.setWidth 6, attr := 0#2 ++ BitVec.ofBool x.vz ++ x.vm} := rfl

theorem pick_vcmpExt (gd : Guard) (x : VMask) (cc : BitVec 3) (q : MIx) (a : VIx) (b : VIx) :
    (fieldsOf (.vcmpExt gd x cc q a b)).bind pickRow = some (.vcmpExt gd x cc q a b) := by
  simp only [fields_vcmpExt, Option.bind_some]
  simp (disch := decide) [-BitVec.getLsbD_eq_getElem, pickRow, pickRow9, set_set, ofBool_bit, shape0_1, shape0_0, shape1_2, shape1_0, shape2_2, shape2_1, shape2_0, shape3_1, shape3_0, shape4_1, shape4_0, shape5_1, shape5_0, shape6_0, shape7_2, shape7_1, shape8_1, shape9_2, shape9_1, shape10_3, shape10_2, shape10_1, shape11_2, shape11_1, shape12_2, shape12_1, shape13_3, shape13_1, shape14_1, shape15_1, shape16_1]

theorem fields_vsel (gd : Guard) (x : VMask) (d : VIx) (q : MIx) (a : VIx) (b : VIx) :
    fieldsOf (.vsel gd x d q a b) = some {len := 2, maj := 0x4E, gd := gd, d := d.setWidth 6, a := a.setWidth 6, b := b.setWidth 6, c := q.setWidth 6, attr := 0#2 ++ BitVec.ofBool x.vz ++ x.vm} := rfl

theorem pick_vsel (gd : Guard) (x : VMask) (d : VIx) (q : MIx) (a : VIx) (b : VIx) :
    (fieldsOf (.vsel gd x d q a b)).bind pickRow = some (.vsel gd x d q a b) := by
  simp only [fields_vsel, Option.bind_some]
  simp (disch := decide) [-BitVec.getLsbD_eq_getElem, pickRow, pickRow9, set_set, ofBool_bit, shape0_1, shape0_0, shape1_2, shape1_0, shape2_2, shape2_1, shape2_0, shape3_1, shape3_0, shape4_1, shape4_0, shape5_1, shape5_0, shape6_0, shape7_2, shape7_1, shape8_1, shape9_2, shape9_1, shape10_3, shape10_2, shape10_1, shape11_2, shape11_1, shape12_2, shape12_1, shape13_3, shape13_1, shape14_1, shape15_1, shape16_1]

theorem fields_vbcast (gd : Guard) (d : VIx) (a : GIx) :
    fieldsOf (.vbcast gd d a) = some {len := 0, maj := 0x4F, gd := gd, d := d.setWidth 6, a := a} := rfl

theorem pick_vbcast (gd : Guard) (d : VIx) (a : GIx) :
    (fieldsOf (.vbcast gd d a)).bind pickRow = some (.vbcast gd d a) := by
  simp only [fields_vbcast, Option.bind_some]
  simp (disch := decide) [-BitVec.getLsbD_eq_getElem, pickRow, pickRow9, set_set, ofBool_bit, shape0_1, shape0_0, shape1_2, shape1_0, shape2_2, shape2_1, shape2_0, shape3_1, shape3_0, shape4_1, shape4_0, shape5_1, shape5_0, shape6_0, shape7_2, shape7_1, shape8_1, shape9_2, shape9_1, shape10_3, shape10_2, shape10_1, shape11_2, shape11_1, shape12_2, shape12_1, shape13_3, shape13_1, shape14_1, shape15_1, shape16_1]

theorem fields_vbcastExt (gd : Guard) (x : VMask) (d : VIx) (a : GIx) :
    fieldsOf (.vbcastExt gd x d a) = some {len := 2, maj := 0x4F, gd := gd, d := d.setWidth 6, a := a, attr := 0#2 ++ BitVec.ofBool x.vz ++ x.vm} := rfl

theorem pick_vbcastExt (gd : Guard) (x : VMask) (d : VIx) (a : GIx) :
    (fieldsOf (.vbcastExt gd x d a)).bind pickRow = some (.vbcastExt gd x d a) := by
  simp only [fields_vbcastExt, Option.bind_some]
  simp (disch := decide) [-BitVec.getLsbD_eq_getElem, pickRow, pickRow9, set_set, ofBool_bit, shape0_1, shape0_0, shape1_2, shape1_0, shape2_2, shape2_1, shape2_0, shape3_1, shape3_0, shape4_1, shape4_0, shape5_1, shape5_0, shape6_0, shape7_2, shape7_1, shape8_1, shape9_2, shape9_1, shape10_3, shape10_2, shape10_1, shape11_2, shape11_1, shape12_2, shape12_1, shape13_3, shape13_1, shape14_1, shape15_1, shape16_1]

theorem fields_vins (gd : Guard) (d : VIx) (a : GIx) (lane : BitVec 6) :
    fieldsOf (.vins gd d a lane) = some {len := 0, maj := 0x50, gd := gd, d := d.setWidth 6, a := a, b := lane} := rfl

theorem pick_vins (gd : Guard) (d : VIx) (a : GIx) (lane : BitVec 6) :
    (fieldsOf (.vins gd d a lane)).bind pickRow = some (.vins gd d a lane) := by
  simp only [fields_vins, Option.bind_some]
  simp (disch := decide) [-BitVec.getLsbD_eq_getElem, pickRow, pickRow10, set_set, ofBool_bit, shape0_1, shape0_0, shape1_2, shape1_0, shape2_2, shape2_1, shape2_0, shape3_1, shape3_0, shape4_1, shape4_0, shape5_1, shape5_0, shape6_0, shape7_2, shape7_1, shape8_1, shape9_2, shape9_1, shape10_3, shape10_2, shape10_1, shape11_2, shape11_1, shape12_2, shape12_1, shape13_3, shape13_1, shape14_1, shape15_1, shape16_1]

theorem fields_vinsExt (gd : Guard) (d : VIx) (a : GIx) (lane : BitVec 6) :
    fieldsOf (.vinsExt gd d a lane) = some {len := 2, maj := 0x50, gd := gd, d := d.setWidth 6, a := a, b := lane} := rfl

theorem pick_vinsExt (gd : Guard) (d : VIx) (a : GIx) (lane : BitVec 6) :
    (fieldsOf (.vinsExt gd d a lane)).bind pickRow = some (.vinsExt gd d a lane) := by
  simp only [fields_vinsExt, Option.bind_some]
  simp (disch := decide) [-BitVec.getLsbD_eq_getElem, pickRow, pickRow10, set_set, ofBool_bit, shape0_1, shape0_0, shape1_2, shape1_0, shape2_2, shape2_1, shape2_0, shape3_1, shape3_0, shape4_1, shape4_0, shape5_1, shape5_0, shape6_0, shape7_2, shape7_1, shape8_1, shape9_2, shape9_1, shape10_3, shape10_2, shape10_1, shape11_2, shape11_1, shape12_2, shape12_1, shape13_3, shape13_1, shape14_1, shape15_1, shape16_1]

theorem fields_vext (gd : Guard) (d : GIx) (a : VIx) (lane : BitVec 6) :
    fieldsOf (.vext gd d a lane) = some {len := 0, maj := 0x51, gd := gd, d := d, a := a.setWidth 6, b := lane} := rfl

theorem pick_vext (gd : Guard) (d : GIx) (a : VIx) (lane : BitVec 6) :
    (fieldsOf (.vext gd d a lane)).bind pickRow = some (.vext gd d a lane) := by
  simp only [fields_vext, Option.bind_some]
  simp (disch := decide) [-BitVec.getLsbD_eq_getElem, pickRow, pickRow10, set_set, ofBool_bit, shape0_1, shape0_0, shape1_2, shape1_0, shape2_2, shape2_1, shape2_0, shape3_1, shape3_0, shape4_1, shape4_0, shape5_1, shape5_0, shape6_0, shape7_2, shape7_1, shape8_1, shape9_2, shape9_1, shape10_3, shape10_2, shape10_1, shape11_2, shape11_1, shape12_2, shape12_1, shape13_3, shape13_1, shape14_1, shape15_1, shape16_1]

theorem fields_vextExt (gd : Guard) (d : GIx) (a : VIx) (lane : BitVec 6) :
    fieldsOf (.vextExt gd d a lane) = some {len := 2, maj := 0x51, gd := gd, d := d, a := a.setWidth 6, b := lane} := rfl

theorem pick_vextExt (gd : Guard) (d : GIx) (a : VIx) (lane : BitVec 6) :
    (fieldsOf (.vextExt gd d a lane)).bind pickRow = some (.vextExt gd d a lane) := by
  simp only [fields_vextExt, Option.bind_some]
  simp (disch := decide) [-BitVec.getLsbD_eq_getElem, pickRow, pickRow10, set_set, ofBool_bit, shape0_1, shape0_0, shape1_2, shape1_0, shape2_2, shape2_1, shape2_0, shape3_1, shape3_0, shape4_1, shape4_0, shape5_1, shape5_0, shape6_0, shape7_2, shape7_1, shape8_1, shape9_2, shape9_1, shape10_3, shape10_2, shape10_1, shape11_2, shape11_1, shape12_2, shape12_1, shape13_3, shape13_1, shape14_1, shape15_1, shape16_1]

theorem fields_vshuf (gd : Guard) (d : VIx) (a : VIx) (b : VIx) :
    fieldsOf (.vshuf gd d a b) = some {len := 0, maj := 0x52, gd := gd, d := d.setWidth 6, a := a.setWidth 6, b := b.setWidth 6} := rfl

theorem pick_vshuf (gd : Guard) (d : VIx) (a : VIx) (b : VIx) :
    (fieldsOf (.vshuf gd d a b)).bind pickRow = some (.vshuf gd d a b) := by
  simp only [fields_vshuf, Option.bind_some]
  simp (disch := decide) [-BitVec.getLsbD_eq_getElem, pickRow, pickRow10, set_set, ofBool_bit, shape0_1, shape0_0, shape1_2, shape1_0, shape2_2, shape2_1, shape2_0, shape3_1, shape3_0, shape4_1, shape4_0, shape5_1, shape5_0, shape6_0, shape7_2, shape7_1, shape8_1, shape9_2, shape9_1, shape10_3, shape10_2, shape10_1, shape11_2, shape11_1, shape12_2, shape12_1, shape13_3, shape13_1, shape14_1, shape15_1, shape16_1]

theorem fields_vshufExt (gd : Guard) (x : VMask) (d : VIx) (a : VIx) (b : VIx) :
    fieldsOf (.vshufExt gd x d a b) = some {len := 2, maj := 0x52, gd := gd, d := d.setWidth 6, a := a.setWidth 6, b := b.setWidth 6, attr := 0#2 ++ BitVec.ofBool x.vz ++ x.vm} := rfl

theorem pick_vshufExt (gd : Guard) (x : VMask) (d : VIx) (a : VIx) (b : VIx) :
    (fieldsOf (.vshufExt gd x d a b)).bind pickRow = some (.vshufExt gd x d a b) := by
  simp only [fields_vshufExt, Option.bind_some]
  simp (disch := decide) [-BitVec.getLsbD_eq_getElem, pickRow, pickRow10, set_set, ofBool_bit, shape0_1, shape0_0, shape1_2, shape1_0, shape2_2, shape2_1, shape2_0, shape3_1, shape3_0, shape4_1, shape4_0, shape5_1, shape5_0, shape6_0, shape7_2, shape7_1, shape8_1, shape9_2, shape9_1, shape10_3, shape10_2, shape10_1, shape11_2, shape11_1, shape12_2, shape12_1, shape13_3, shape13_1, shape14_1, shape15_1, shape16_1]

theorem fields_vslideUp (gd : Guard) (d : VIx) (a : VIx) (n : BitVec 5) :
    fieldsOf (.vslideUp gd d a n) = some {len := 0, maj := 0x53, gd := gd, d := d.setWidth 6, a := a.setWidth 6, b := n.setWidth 6} := rfl

theorem pick_vslideUp (gd : Guard) (d : VIx) (a : VIx) (n : BitVec 5) :
    (fieldsOf (.vslideUp gd d a n)).bind pickRow = some (.vslideUp gd d a n) := by
  simp only [fields_vslideUp, Option.bind_some]
  simp (disch := decide) [-BitVec.getLsbD_eq_getElem, pickRow, pickRow10, set_set, ofBool_bit, shape0_1, shape0_0, shape1_2, shape1_0, shape2_2, shape2_1, shape2_0, shape3_1, shape3_0, shape4_1, shape4_0, shape5_1, shape5_0, shape6_0, shape7_2, shape7_1, shape8_1, shape9_2, shape9_1, shape10_3, shape10_2, shape10_1, shape11_2, shape11_1, shape12_2, shape12_1, shape13_3, shape13_1, shape14_1, shape15_1, shape16_1]

theorem fields_vslideUpExt (gd : Guard) (x : VMask) (d : VIx) (a : VIx) (n : BitVec 5) :
    fieldsOf (.vslideUpExt gd x d a n) = some {len := 2, maj := 0x53, gd := gd, d := d.setWidth 6, a := a.setWidth 6, b := n.setWidth 6, attr := 0#2 ++ BitVec.ofBool x.vz ++ x.vm} := rfl

theorem pick_vslideUpExt (gd : Guard) (x : VMask) (d : VIx) (a : VIx) (n : BitVec 5) :
    (fieldsOf (.vslideUpExt gd x d a n)).bind pickRow = some (.vslideUpExt gd x d a n) := by
  simp only [fields_vslideUpExt, Option.bind_some]
  simp (disch := decide) [-BitVec.getLsbD_eq_getElem, pickRow, pickRow10, set_set, ofBool_bit, shape0_1, shape0_0, shape1_2, shape1_0, shape2_2, shape2_1, shape2_0, shape3_1, shape3_0, shape4_1, shape4_0, shape5_1, shape5_0, shape6_0, shape7_2, shape7_1, shape8_1, shape9_2, shape9_1, shape10_3, shape10_2, shape10_1, shape11_2, shape11_1, shape12_2, shape12_1, shape13_3, shape13_1, shape14_1, shape15_1, shape16_1]

theorem fields_vslideDown (gd : Guard) (d : VIx) (a : VIx) (n : BitVec 5) :
    fieldsOf (.vslideDown gd d a n) = some {len := 0, maj := 0x53, gd := gd, s := true, d := d.setWidth 6, a := a.setWidth 6, b := n.setWidth 6} := rfl

theorem pick_vslideDown (gd : Guard) (d : VIx) (a : VIx) (n : BitVec 5) :
    (fieldsOf (.vslideDown gd d a n)).bind pickRow = some (.vslideDown gd d a n) := by
  simp only [fields_vslideDown, Option.bind_some]
  simp (disch := decide) [-BitVec.getLsbD_eq_getElem, pickRow, pickRow10, set_set, ofBool_bit, shape0_1, shape0_0, shape1_2, shape1_0, shape2_2, shape2_1, shape2_0, shape3_1, shape3_0, shape4_1, shape4_0, shape5_1, shape5_0, shape6_0, shape7_2, shape7_1, shape8_1, shape9_2, shape9_1, shape10_3, shape10_2, shape10_1, shape11_2, shape11_1, shape12_2, shape12_1, shape13_3, shape13_1, shape14_1, shape15_1, shape16_1]

theorem fields_vslideDownExt (gd : Guard) (x : VMask) (d : VIx) (a : VIx) (n : BitVec 5) :
    fieldsOf (.vslideDownExt gd x d a n) = some {len := 2, maj := 0x53, gd := gd, s := true, d := d.setWidth 6, a := a.setWidth 6, b := n.setWidth 6, attr := 0#2 ++ BitVec.ofBool x.vz ++ x.vm} := rfl

theorem pick_vslideDownExt (gd : Guard) (x : VMask) (d : VIx) (a : VIx) (n : BitVec 5) :
    (fieldsOf (.vslideDownExt gd x d a n)).bind pickRow = some (.vslideDownExt gd x d a n) := by
  simp only [fields_vslideDownExt, Option.bind_some]
  simp (disch := decide) [-BitVec.getLsbD_eq_getElem, pickRow, pickRow10, set_set, ofBool_bit, shape0_1, shape0_0, shape1_2, shape1_0, shape2_2, shape2_1, shape2_0, shape3_1, shape3_0, shape4_1, shape4_0, shape5_1, shape5_0, shape6_0, shape7_2, shape7_1, shape8_1, shape9_2, shape9_1, shape10_3, shape10_2, shape10_1, shape11_2, shape11_1, shape12_2, shape12_1, shape13_3, shape13_1, shape14_1, shape15_1, shape16_1]

theorem fields_vredadd (gd : Guard) (d : GIx) (a : VIx) :
    fieldsOf (.vredadd gd d a) = some {len := 0, maj := 0x54, gd := gd, d := d, a := a.setWidth 6, b := 0#6} := rfl

theorem pick_vredadd (gd : Guard) (d : GIx) (a : VIx) :
    (fieldsOf (.vredadd gd d a)).bind pickRow = some (.vredadd gd d a) := by
  simp only [fields_vredadd, Option.bind_some]
  simp (disch := decide) [-BitVec.getLsbD_eq_getElem, pickRow, pickRow10, set_set, ofBool_bit, shape0_1, shape0_0, shape1_2, shape1_0, shape2_2, shape2_1, shape2_0, shape3_1, shape3_0, shape4_1, shape4_0, shape5_1, shape5_0, shape6_0, shape7_2, shape7_1, shape8_1, shape9_2, shape9_1, shape10_3, shape10_2, shape10_1, shape11_2, shape11_1, shape12_2, shape12_1, shape13_3, shape13_1, shape14_1, shape15_1, shape16_1]

theorem fields_vredaddExt (gd : Guard) (vm : MIx) (rmo : BitVec 3) (d : GIx) (a : VIx) :
    fieldsOf (.vredaddExt gd vm rmo d a) = some {len := 2, maj := 0x54, gd := gd, d := d, a := a.setWidth 6, b := 0#6, attr := vm.setWidth 6, imm16 := 0#8 ++ rmo ++ 0#5} := rfl

theorem pick_vredaddExt (gd : Guard) (vm : MIx) (rmo : BitVec 3) (d : GIx) (a : VIx) :
    (fieldsOf (.vredaddExt gd vm rmo d a)).bind pickRow = some (.vredaddExt gd vm rmo d a) := by
  simp only [fields_vredaddExt, Option.bind_some]
  simp (disch := decide) [-BitVec.getLsbD_eq_getElem, pickRow, pickRow10, set_set, ofBool_bit, shape0_1, shape0_0, shape1_2, shape1_0, shape2_2, shape2_1, shape2_0, shape3_1, shape3_0, shape4_1, shape4_0, shape5_1, shape5_0, shape6_0, shape7_2, shape7_1, shape8_1, shape9_2, shape9_1, shape10_3, shape10_2, shape10_1, shape11_2, shape11_1, shape12_2, shape12_1, shape13_3, shape13_1, shape14_1, shape15_1, shape16_1]

theorem fields_vredmin (gd : Guard) (d : GIx) (a : VIx) :
    fieldsOf (.vredmin gd d a) = some {len := 0, maj := 0x54, gd := gd, d := d, a := a.setWidth 6, b := 1#6} := rfl

theorem pick_vredmin (gd : Guard) (d : GIx) (a : VIx) :
    (fieldsOf (.vredmin gd d a)).bind pickRow = some (.vredmin gd d a) := by
  simp only [fields_vredmin, Option.bind_some]
  simp (disch := decide) [-BitVec.getLsbD_eq_getElem, pickRow, pickRow10, set_set, ofBool_bit, shape0_1, shape0_0, shape1_2, shape1_0, shape2_2, shape2_1, shape2_0, shape3_1, shape3_0, shape4_1, shape4_0, shape5_1, shape5_0, shape6_0, shape7_2, shape7_1, shape8_1, shape9_2, shape9_1, shape10_3, shape10_2, shape10_1, shape11_2, shape11_1, shape12_2, shape12_1, shape13_3, shape13_1, shape14_1, shape15_1, shape16_1]

theorem fields_vredminExt (gd : Guard) (vm : MIx) (rmo : BitVec 3) (d : GIx) (a : VIx) :
    fieldsOf (.vredminExt gd vm rmo d a) = some {len := 2, maj := 0x54, gd := gd, d := d, a := a.setWidth 6, b := 1#6, attr := vm.setWidth 6, imm16 := 0#8 ++ rmo ++ 0#5} := rfl

theorem pick_vredminExt (gd : Guard) (vm : MIx) (rmo : BitVec 3) (d : GIx) (a : VIx) :
    (fieldsOf (.vredminExt gd vm rmo d a)).bind pickRow = some (.vredminExt gd vm rmo d a) := by
  simp only [fields_vredminExt, Option.bind_some]
  simp (disch := decide) [-BitVec.getLsbD_eq_getElem, pickRow, pickRow10, set_set, ofBool_bit, shape0_1, shape0_0, shape1_2, shape1_0, shape2_2, shape2_1, shape2_0, shape3_1, shape3_0, shape4_1, shape4_0, shape5_1, shape5_0, shape6_0, shape7_2, shape7_1, shape8_1, shape9_2, shape9_1, shape10_3, shape10_2, shape10_1, shape11_2, shape11_1, shape12_2, shape12_1, shape13_3, shape13_1, shape14_1, shape15_1, shape16_1]

theorem fields_vredmax (gd : Guard) (d : GIx) (a : VIx) :
    fieldsOf (.vredmax gd d a) = some {len := 0, maj := 0x54, gd := gd, d := d, a := a.setWidth 6, b := 2#6} := rfl

theorem pick_vredmax (gd : Guard) (d : GIx) (a : VIx) :
    (fieldsOf (.vredmax gd d a)).bind pickRow = some (.vredmax gd d a) := by
  simp only [fields_vredmax, Option.bind_some]
  simp (disch := decide) [-BitVec.getLsbD_eq_getElem, pickRow, pickRow10, set_set, ofBool_bit, shape0_1, shape0_0, shape1_2, shape1_0, shape2_2, shape2_1, shape2_0, shape3_1, shape3_0, shape4_1, shape4_0, shape5_1, shape5_0, shape6_0, shape7_2, shape7_1, shape8_1, shape9_2, shape9_1, shape10_3, shape10_2, shape10_1, shape11_2, shape11_1, shape12_2, shape12_1, shape13_3, shape13_1, shape14_1, shape15_1, shape16_1]

theorem fields_vredmaxExt (gd : Guard) (vm : MIx) (rmo : BitVec 3) (d : GIx) (a : VIx) :
    fieldsOf (.vredmaxExt gd vm rmo d a) = some {len := 2, maj := 0x54, gd := gd, d := d, a := a.setWidth 6, b := 2#6, attr := vm.setWidth 6, imm16 := 0#8 ++ rmo ++ 0#5} := rfl

theorem pick_vredmaxExt (gd : Guard) (vm : MIx) (rmo : BitVec 3) (d : GIx) (a : VIx) :
    (fieldsOf (.vredmaxExt gd vm rmo d a)).bind pickRow = some (.vredmaxExt gd vm rmo d a) := by
  simp only [fields_vredmaxExt, Option.bind_some]
  simp (disch := decide) [-BitVec.getLsbD_eq_getElem, pickRow, pickRow10, set_set, ofBool_bit, shape0_1, shape0_0, shape1_2, shape1_0, shape2_2, shape2_1, shape2_0, shape3_1, shape3_0, shape4_1, shape4_0, shape5_1, shape5_0, shape6_0, shape7_2, shape7_1, shape8_1, shape9_2, shape9_1, shape10_3, shape10_2, shape10_1, shape11_2, shape11_1, shape12_2, shape12_1, shape13_3, shape13_1, shape14_1, shape15_1, shape16_1]

theorem fields_vdot (gd : Guard) (x : VMask) (rmo : BitVec 3) (d : VIx) (a : VIx) (b : VIx) :
    fieldsOf (.vdot gd x rmo d a b) = some {len := 2, maj := 0x55, gd := gd, d := d.setWidth 6, a := a.setWidth 6, b := b.setWidth 6, attr := 0#2 ++ BitVec.ofBool x.vz ++ x.vm, imm16 := 0#8 ++ rmo ++ 0#5} := rfl

theorem pick_vdot (gd : Guard) (x : VMask) (rmo : BitVec 3) (d : VIx) (a : VIx) (b : VIx) :
    (fieldsOf (.vdot gd x rmo d a b)).bind pickRow = some (.vdot gd x rmo d a b) := by
  simp only [fields_vdot, Option.bind_some]
  simp (disch := decide) [-BitVec.getLsbD_eq_getElem, pickRow, pickRow10, set_set, ofBool_bit, shape0_1, shape0_0, shape1_2, shape1_0, shape2_2, shape2_1, shape2_0, shape3_1, shape3_0, shape4_1, shape4_0, shape5_1, shape5_0, shape6_0, shape7_2, shape7_1, shape8_1, shape9_2, shape9_1, shape10_3, shape10_2, shape10_1, shape11_2, shape11_1, shape12_2, shape12_1, shape13_3, shape13_1, shape14_1, shape15_1, shape16_1]

theorem fields_vsfu (gd : Guard) (x : VMask) (fn : BitVec 4) (d : VIx) (a : VIx) :
    fieldsOf (.vsfu gd x fn d a) = some {len := 2, maj := 0x5A, gd := gd, d := d.setWidth 6, a := a.setWidth 6, min := fn, attr := 0#2 ++ BitVec.ofBool x.vz ++ x.vm} := rfl

theorem pick_vsfu (gd : Guard) (x : VMask) (fn : BitVec 4) (d : VIx) (a : VIx) :
    (fieldsOf (.vsfu gd x fn d a)).bind pickRow = some (.vsfu gd x fn d a) := by
  simp only [fields_vsfu, Option.bind_some]
  simp (disch := decide) [-BitVec.getLsbD_eq_getElem, pickRow, pickRow11, set_set, ofBool_bit, shape0_1, shape0_0, shape1_2, shape1_0, shape2_2, shape2_1, shape2_0, shape3_1, shape3_0, shape4_1, shape4_0, shape5_1, shape5_0, shape6_0, shape7_2, shape7_1, shape8_1, shape9_2, shape9_1, shape10_3, shape10_2, shape10_1, shape11_2, shape11_1, shape12_2, shape12_1, shape13_3, shape13_1, shape14_1, shape15_1, shape16_1]

theorem fields_vcvt (gd : Guard) (x : VMask) (rmo : BitVec 3) (part : BitVec 4) (dst : BitVec 5) (src : BitVec 5) (d : VIx) (a : VIx) :
    fieldsOf (.vcvt gd x rmo part dst src d a) = some {len := 2, maj := 0x56, gd := gd, d := d.setWidth 6, a := a.setWidth 6, c := src.setWidth 6, attr := 0#2 ++ BitVec.ofBool x.vz ++ x.vm, imm16 := 0#4 ++ part ++ rmo ++ dst} := rfl

theorem pick_vcvt (gd : Guard) (x : VMask) (rmo : BitVec 3) (part : BitVec 4) (dst : BitVec 5) (src : BitVec 5) (d : VIx) (a : VIx) :
    (fieldsOf (.vcvt gd x rmo part dst src d a)).bind pickRow = some (.vcvt gd x rmo part dst src d a) := by
  simp only [fields_vcvt, Option.bind_some]
  simp (disch := decide) [-BitVec.getLsbD_eq_getElem, pickRow, pickRow10, set_set, ofBool_bit, shape0_1, shape0_0, shape1_2, shape1_0, shape2_2, shape2_1, shape2_0, shape3_1, shape3_0, shape4_1, shape4_0, shape5_1, shape5_0, shape6_0, shape7_2, shape7_1, shape8_1, shape9_2, shape9_1, shape10_3, shape10_2, shape10_1, shape11_2, shape11_1, shape12_2, shape12_1, shape13_3, shape13_1, shape14_1, shape15_1, shape16_1]

theorem fields_vqnt (gd : Guard) (rmo : BitVec 3) (fmt : BitVec 4) (d : VIx) (a : VIx) (c : GIx) :
    fieldsOf (.vqnt gd rmo fmt d a c) = some {len := 2, maj := 0x57, gd := gd, d := d.setWidth 6, a := a.setWidth 6, c := c, min := 0#4, imm16 := 0#8 ++ rmo ++ 0#1 ++ fmt} := rfl

theorem pick_vqnt (gd : Guard) (rmo : BitVec 3) (fmt : BitVec 4) (d : VIx) (a : VIx) (c : GIx) :
    (fieldsOf (.vqnt gd rmo fmt d a c)).bind pickRow = some (.vqnt gd rmo fmt d a c) := by
  simp only [fields_vqnt, Option.bind_some]
  simp (disch := decide) [-BitVec.getLsbD_eq_getElem, pickRow, pickRow10, set_set, ofBool_bit, shape0_1, shape0_0, shape1_2, shape1_0, shape2_2, shape2_1, shape2_0, shape3_1, shape3_0, shape4_1, shape4_0, shape5_1, shape5_0, shape6_0, shape7_2, shape7_1, shape8_1, shape9_2, shape9_1, shape10_3, shape10_2, shape10_1, shape11_2, shape11_1, shape12_2, shape12_1, shape13_3, shape13_1, shape14_1, shape15_1, shape16_1]

theorem fields_vdqnt (gd : Guard) (fmt : BitVec 4) (d : VIx) (a : VIx) (c : GIx) :
    fieldsOf (.vdqnt gd fmt d a c) = some {len := 2, maj := 0x57, gd := gd, d := d.setWidth 6, a := a.setWidth 6, c := c, min := 1#4, imm16 := fmt.setWidth 16} := rfl

theorem pick_vdqnt (gd : Guard) (fmt : BitVec 4) (d : VIx) (a : VIx) (c : GIx) :
    (fieldsOf (.vdqnt gd fmt d a c)).bind pickRow = some (.vdqnt gd fmt d a c) := by
  simp only [fields_vdqnt, Option.bind_some]
  simp (disch := decide) [-BitVec.getLsbD_eq_getElem, pickRow, pickRow10, set_set, ofBool_bit, shape0_1, shape0_0, shape1_2, shape1_0, shape2_2, shape2_1, shape2_0, shape3_1, shape3_0, shape4_1, shape4_0, shape5_1, shape5_0, shape6_0, shape7_2, shape7_1, shape8_1, shape9_2, shape9_1, shape10_3, shape10_2, shape10_1, shape11_2, shape11_1, shape12_2, shape12_1, shape13_3, shape13_1, shape14_1, shape15_1, shape16_1]

theorem fields_vhad (gd : Guard) (h32 : Bool) (d : VIx) (a : VIx) :
    fieldsOf (.vhad gd h32 d a) = some {len := 2, maj := 0x58, gd := gd, d := d.setWidth 6, a := a.setWidth 6, imm16 := (BitVec.ofBool h32).setWidth 16} := rfl

theorem pick_vhad (gd : Guard) (h32 : Bool) (d : VIx) (a : VIx) :
    (fieldsOf (.vhad gd h32 d a)).bind pickRow = some (.vhad gd h32 d a) := by
  simp only [fields_vhad, Option.bind_some]
  simp (disch := decide) [-BitVec.getLsbD_eq_getElem, pickRow, pickRow11, set_set, ofBool_bit, shape0_1, shape0_0, shape1_2, shape1_0, shape2_2, shape2_1, shape2_0, shape3_1, shape3_0, shape4_1, shape4_0, shape5_1, shape5_0, shape6_0, shape7_2, shape7_1, shape8_1, shape9_2, shape9_1, shape10_3, shape10_2, shape10_1, shape11_2, shape11_1, shape12_2, shape12_1, shape13_3, shape13_1, shape14_1, shape15_1, shape16_1]

theorem fields_vbaddq (gd : Guard) (rmo : BitVec 3) (fmt : BitVec 4) (d : VIx) (a : VIx) (b : VIx) (c : VIx) :
    fieldsOf (.vbaddq gd rmo fmt d a b c) = some {len := 2, maj := 0x59, gd := gd, d := d.setWidth 6, a := a.setWidth 6, b := b.setWidth 6, c := c.setWidth 6, imm16 := 0#8 ++ rmo ++ 0#1 ++ fmt} := rfl

theorem pick_vbaddq (gd : Guard) (rmo : BitVec 3) (fmt : BitVec 4) (d : VIx) (a : VIx) (b : VIx) (c : VIx) :
    (fieldsOf (.vbaddq gd rmo fmt d a b c)).bind pickRow = some (.vbaddq gd rmo fmt d a b c) := by
  simp only [fields_vbaddq, Option.bind_some]
  simp (disch := decide) [-BitVec.getLsbD_eq_getElem, pickRow, pickRow11, set_set, ofBool_bit, shape0_1, shape0_0, shape1_2, shape1_0, shape2_2, shape2_1, shape2_0, shape3_1, shape3_0, shape4_1, shape4_0, shape5_1, shape5_0, shape6_0, shape7_2, shape7_1, shape8_1, shape9_2, shape9_1, shape10_3, shape10_2, shape10_1, shape11_2, shape11_1, shape12_2, shape12_1, shape13_3, shape13_1, shape14_1, shape15_1, shape16_1]

theorem fields_mand (gd : Guard) (d : MIx) (a : MIx) (b : MIx) :
    fieldsOf (.mand gd d a b) = some {len := 0, maj := 0x5B, gd := gd, d := d.setWidth 6, a := a.setWidth 6, b := 0#3 ++ b} := rfl

theorem pick_mand (gd : Guard) (d : MIx) (a : MIx) (b : MIx) :
    (fieldsOf (.mand gd d a b)).bind pickRow = some (.mand gd d a b) := by
  simp only [fields_mand, Option.bind_some]
  simp (disch := decide) [-BitVec.getLsbD_eq_getElem, pickRow, pickRow11, set_set, ofBool_bit, shape0_1, shape0_0, shape1_2, shape1_0, shape2_2, shape2_1, shape2_0, shape3_1, shape3_0, shape4_1, shape4_0, shape5_1, shape5_0, shape6_0, shape7_2, shape7_1, shape8_1, shape9_2, shape9_1, shape10_3, shape10_2, shape10_1, shape11_2, shape11_1, shape12_2, shape12_1, shape13_3, shape13_1, shape14_1, shape15_1, shape16_1]

theorem fields_mor (gd : Guard) (d : MIx) (a : MIx) (b : MIx) :
    fieldsOf (.mor gd d a b) = some {len := 0, maj := 0x5B, gd := gd, d := d.setWidth 6, a := a.setWidth 6, b := 1#3 ++ b} := rfl

theorem pick_mor (gd : Guard) (d : MIx) (a : MIx) (b : MIx) :
    (fieldsOf (.mor gd d a b)).bind pickRow = some (.mor gd d a b) := by
  simp only [fields_mor, Option.bind_some]
  simp (disch := decide) [-BitVec.getLsbD_eq_getElem, pickRow, pickRow11, set_set, ofBool_bit, shape0_1, shape0_0, shape1_2, shape1_0, shape2_2, shape2_1, shape2_0, shape3_1, shape3_0, shape4_1, shape4_0, shape5_1, shape5_0, shape6_0, shape7_2, shape7_1, shape8_1, shape9_2, shape9_1, shape10_3, shape10_2, shape10_1, shape11_2, shape11_1, shape12_2, shape12_1, shape13_3, shape13_1, shape14_1, shape15_1, shape16_1]

theorem fields_mxor (gd : Guard) (d : MIx) (a : MIx) (b : MIx) :
    fieldsOf (.mxor gd d a b) = some {len := 0, maj := 0x5B, gd := gd, d := d.setWidth 6, a := a.setWidth 6, b := 2#3 ++ b} := rfl

theorem pick_mxor (gd : Guard) (d : MIx) (a : MIx) (b : MIx) :
    (fieldsOf (.mxor gd d a b)).bind pickRow = some (.mxor gd d a b) := by
  simp only [fields_mxor, Option.bind_some]
  simp (disch := decide) [-BitVec.getLsbD_eq_getElem, pickRow, pickRow11, set_set, ofBool_bit, shape0_1, shape0_0, shape1_2, shape1_0, shape2_2, shape2_1, shape2_0, shape3_1, shape3_0, shape4_1, shape4_0, shape5_1, shape5_0, shape6_0, shape7_2, shape7_1, shape8_1, shape9_2, shape9_1, shape10_3, shape10_2, shape10_1, shape11_2, shape11_1, shape12_2, shape12_1, shape13_3, shape13_1, shape14_1, shape15_1, shape16_1]

theorem fields_mnot (gd : Guard) (d : MIx) (a : MIx) :
    fieldsOf (.mnot gd d a) = some {len := 0, maj := 0x5B, gd := gd, d := d.setWidth 6, a := a.setWidth 6, b := 3#3 ++ 0#3} := rfl

theorem pick_mnot (gd : Guard) (d : MIx) (a : MIx) :
    (fieldsOf (.mnot gd d a)).bind pickRow = some (.mnot gd d a) := by
  simp only [fields_mnot, Option.bind_some]
  simp (disch := decide) [-BitVec.getLsbD_eq_getElem, pickRow, pickRow11, set_set, ofBool_bit, shape0_1, shape0_0, shape1_2, shape1_0, shape2_2, shape2_1, shape2_0, shape3_1, shape3_0, shape4_1, shape4_0, shape5_1, shape5_0, shape6_0, shape7_2, shape7_1, shape8_1, shape9_2, shape9_1, shape10_3, shape10_2, shape10_1, shape11_2, shape11_1, shape12_2, shape12_1, shape13_3, shape13_1, shape14_1, shape15_1, shape16_1]

theorem fields_mpop (gd : Guard) (d : GIx) (a : MIx) :
    fieldsOf (.mpop gd d a) = some {len := 0, maj := 0x5C, gd := gd, d := d, a := a.setWidth 6, b := 0#6} := rfl

theorem pick_mpop (gd : Guard) (d : GIx) (a : MIx) :
    (fieldsOf (.mpop gd d a)).bind pickRow = some (.mpop gd d a) := by
  simp only [fields_mpop, Option.bind_some]
  simp (disch := decide) [-BitVec.getLsbD_eq_getElem, pickRow, pickRow11, set_set, ofBool_bit, shape0_1, shape0_0, shape1_2, shape1_0, shape2_2, shape2_1, shape2_0, shape3_1, shape3_0, shape4_1, shape4_0, shape5_1, shape5_0, shape6_0, shape7_2, shape7_1, shape8_1, shape9_2, shape9_1, shape10_3, shape10_2, shape10_1, shape11_2, shape11_1, shape12_2, shape12_1, shape13_3, shape13_1, shape14_1, shape15_1, shape16_1]

theorem fields_gtom (gd : Guard) (d : MIx) (a : GIx) :
    fieldsOf (.gtom gd d a) = some {len := 0, maj := 0x5C, gd := gd, d := d.setWidth 6, a := a, b := 1#6} := rfl

theorem pick_gtom (gd : Guard) (d : MIx) (a : GIx) :
    (fieldsOf (.gtom gd d a)).bind pickRow = some (.gtom gd d a) := by
  simp only [fields_gtom, Option.bind_some]
  simp (disch := decide) [-BitVec.getLsbD_eq_getElem, pickRow, pickRow11, set_set, ofBool_bit, shape0_1, shape0_0, shape1_2, shape1_0, shape2_2, shape2_1, shape2_0, shape3_1, shape3_0, shape4_1, shape4_0, shape5_1, shape5_0, shape6_0, shape7_2, shape7_1, shape8_1, shape9_2, shape9_1, shape10_3, shape10_2, shape10_1, shape11_2, shape11_1, shape12_2, shape12_1, shape13_3, shape13_1, shape14_1, shape15_1, shape16_1]

theorem fields_mtog (gd : Guard) (d : MIx) (a : GIx) :
    fieldsOf (.mtog gd d a) = some {len := 0, maj := 0x5C, gd := gd, d := d.setWidth 6, a := a, b := 2#6} := rfl

theorem pick_mtog (gd : Guard) (d : MIx) (a : GIx) :
    (fieldsOf (.mtog gd d a)).bind pickRow = some (.mtog gd d a) := by
  simp only [fields_mtog, Option.bind_some]
  simp (disch := decide) [-BitVec.getLsbD_eq_getElem, pickRow, pickRow11, set_set, ofBool_bit, shape0_1, shape0_0, shape1_2, shape1_0, shape2_2, shape2_1, shape2_0, shape3_1, shape3_0, shape4_1, shape4_0, shape5_1, shape5_0, shape6_0, shape7_2, shape7_1, shape8_1, shape9_2, shape9_1, shape10_3, shape10_2, shape10_1, shape11_2, shape11_1, shape12_2, shape12_1, shape13_3, shape13_1, shape14_1, shape15_1, shape16_1]

theorem fields_ld (gd : Guard) (t : MemT) (d : GIx) (ea : MemA) :
    fieldsOf (.ld gd t d ea) = some {len := 2, maj := 0x60, gd := gd, d := d, a := ea.a, b := ea.b, min := 0#4, attr := BitVec.ofBool t.k ++ t.w ++ t.scope, imm32 := ea.disp} := rfl

theorem pick_ld (gd : Guard) (t : MemT) (d : GIx) (ea : MemA) :
    (fieldsOf (.ld gd t d ea)).bind pickRow = some (.ld gd t d ea) := by
  simp only [fields_ld, Option.bind_some]
  simp (disch := decide) [-BitVec.getLsbD_eq_getElem, pickRow, pickRow12, set_set, ofBool_bit, shape0_1, shape0_0, shape1_2, shape1_0, shape2_2, shape2_1, shape2_0, shape3_1, shape3_0, shape4_1, shape4_0, shape5_1, shape5_0, shape6_0, shape7_2, shape7_1, shape8_1, shape9_2, shape9_1, shape10_3, shape10_2, shape10_1, shape11_2, shape11_1, shape12_2, shape12_1, shape13_3, shape13_1, shape14_1, shape15_1, shape16_1]

theorem fields_ldro (gd : Guard) (t : MemT) (d : GIx) (ea : MemA) :
    fieldsOf (.ldro gd t d ea) = some {len := 2, maj := 0x60, gd := gd, d := d, a := ea.a, b := ea.b, min := 1#4, attr := BitVec.ofBool t.k ++ t.w ++ t.scope, imm32 := ea.disp} := rfl

theorem pick_ldro (gd : Guard) (t : MemT) (d : GIx) (ea : MemA) :
    (fieldsOf (.ldro gd t d ea)).bind pickRow = some (.ldro gd t d ea) := by
  simp only [fields_ldro, Option.bind_some]
  simp (disch := decide) [-BitVec.getLsbD_eq_getElem, pickRow, pickRow12, set_set, ofBool_bit, shape0_1, shape0_0, shape1_2, shape1_0, shape2_2, shape2_1, shape2_0, shape3_1, shape3_0, shape4_1, shape4_0, shape5_1, shape5_0, shape6_0, shape7_2, shape7_1, shape8_1, shape9_2, shape9_1, shape10_3, shape10_2, shape10_1, shape11_2, shape11_1, shape12_2, shape12_1, shape13_3, shape13_1, shape14_1, shape15_1, shape16_1]

theorem fields_ldx (gd : Guard) (t : MemT) (d : GIx) (ea : MemA) :
    fieldsOf (.ldx gd t d ea) = some {len := 2, maj := 0x60, gd := gd, d := d, a := ea.a, b := ea.b, min := 2#4, attr := BitVec.ofBool t.k ++ t.w ++ t.scope, imm32 := ea.disp} := rfl

theorem pick_ldx (gd : Guard) (t : MemT) (d : GIx) (ea : MemA) :
    (fieldsOf (.ldx gd t d ea)).bind pickRow = some (.ldx gd t d ea) := by
  simp only [fields_ldx, Option.bind_some]
  simp (disch := decide) [-BitVec.getLsbD_eq_getElem, pickRow, pickRow12, set_set, ofBool_bit, shape0_1, shape0_0, shape1_2, shape1_0, shape2_2, shape2_1, shape2_0, shape3_1, shape3_0, shape4_1, shape4_0, shape5_1, shape5_0, shape6_0, shape7_2, shape7_1, shape8_1, shape9_2, shape9_1, shape10_3, shape10_2, shape10_1, shape11_2, shape11_1, shape12_2, shape12_1, shape13_3, shape13_1, shape14_1, shape15_1, shape16_1]

theorem fields_ldv (gd : Guard) (t : MemT) (d : VIx) (ea : MemA) :
    fieldsOf (.ldv gd t d ea) = some {len := 2, maj := 0x61, gd := gd, d := d.setWidth 6, a := ea.a, b := ea.b, min := 0#4, attr := BitVec.ofBool t.k ++ t.w ++ t.scope, imm16 := 0#15 ++ 0#1, imm32 := ea.disp} := rfl

theorem pick_ldv (gd : Guard) (t : MemT) (d : VIx) (ea : MemA) :
    (fieldsOf (.ldv gd t d ea)).bind pickRow = some (.ldv gd t d ea) := by
  simp only [fields_ldv, Option.bind_some]
  simp (disch := decide) [-BitVec.getLsbD_eq_getElem, pickRow, pickRow12, set_set, ofBool_bit, shape0_1, shape0_0, shape1_2, shape1_0, shape2_2, shape2_1, shape2_0, shape3_1, shape3_0, shape4_1, shape4_0, shape5_1, shape5_0, shape6_0, shape7_2, shape7_1, shape8_1, shape9_2, shape9_1, shape10_3, shape10_2, shape10_1, shape11_2, shape11_1, shape12_2, shape12_1, shape13_3, shape13_1, shape14_1, shape15_1, shape16_1]

theorem fields_ldvGather (gd : Guard) (t : MemT) (d : VIx) (va : VIx) (b : GIx) (disp : BitVec 32) :
    fieldsOf (.ldvGather gd t d va b disp) = some {len := 2, maj := 0x61, gd := gd, d := d.setWidth 6, a := va.setWidth 6, b := b, min := 0#4, attr := BitVec.ofBool t.k ++ t.w ++ t.scope, imm16 := 0#15 ++ 1#1, imm32 := disp} := rfl

theorem pick_ldvGather (gd : Guard) (t : MemT) (d : VIx) (va : VIx) (b : GIx) (disp : BitVec 32) :
    (fieldsOf (.ldvGather gd t d va b disp)).bind pickRow = some (.ldvGather gd t d va b disp) := by
  simp only [fields_ldvGather, Option.bind_some]
  simp (disch := decide) [-BitVec.getLsbD_eq_getElem, pickRow, pickRow12, set_set, ofBool_bit, shape0_1, shape0_0, shape1_2, shape1_0, shape2_2, shape2_1, shape2_0, shape3_1, shape3_0, shape4_1, shape4_0, shape5_1, shape5_0, shape6_0, shape7_2, shape7_1, shape8_1, shape9_2, shape9_1, shape10_3, shape10_2, shape10_1, shape11_2, shape11_1, shape12_2, shape12_1, shape13_3, shape13_1, shape14_1, shape15_1, shape16_1]

theorem fields_lds (gd : Guard) (t : MemT) (d : GIx) (ea : MemA) :
    fieldsOf (.lds gd t d ea) = some {len := 2, maj := 0x62, gd := gd, d := d, a := ea.a, b := ea.b, min := 0#4, attr := BitVec.ofBool t.k ++ t.w ++ t.scope, imm32 := ea.disp} := rfl

theorem pick_lds (gd : Guard) (t : MemT) (d : GIx) (ea : MemA) :
    (fieldsOf (.lds gd t d ea)).bind pickRow = some (.lds gd t d ea) := by
  simp only [fields_lds, Option.bind_some]
  simp (disch := decide) [-BitVec.getLsbD_eq_getElem, pickRow, pickRow12, set_set, ofBool_bit, shape0_1, shape0_0, shape1_2, shape1_0, shape2_2, shape2_1, shape2_0, shape3_1, shape3_0, shape4_1, shape4_0, shape5_1, shape5_0, shape6_0, shape7_2, shape7_1, shape8_1, shape9_2, shape9_1, shape10_3, shape10_2, shape10_1, shape11_2, shape11_1, shape12_2, shape12_1, shape13_3, shape13_1, shape14_1, shape15_1, shape16_1]

theorem fields_ldsv (gd : Guard) (d : VIx) (ea : MemA) :
    fieldsOf (.ldsv gd d ea) = some {len := 2, maj := 0x62, gd := gd, d := d.setWidth 6, a := ea.a, b := ea.b, min := 1#4, imm32 := ea.disp} := rfl

theorem pick_ldsv (gd : Guard) (d : VIx) (ea : MemA) :
    (fieldsOf (.ldsv gd d ea)).bind pickRow = some (.ldsv gd d ea) := by
  simp only [fields_ldsv, Option.bind_some]
  simp (disch := decide) [-BitVec.getLsbD_eq_getElem, pickRow, pickRow12, set_set, ofBool_bit, shape0_1, shape0_0, shape1_2, shape1_0, shape2_2, shape2_1, shape2_0, shape3_1, shape3_0, shape4_1, shape4_0, shape5_1, shape5_0, shape6_0, shape7_2, shape7_1, shape8_1, shape9_2, shape9_1, shape10_3, shape10_2, shape10_1, shape11_2, shape11_1, shape12_2, shape12_1, shape13_3, shape13_1, shape14_1, shape15_1, shape16_1]

theorem fields_sts (gd : Guard) (t : MemT) (d : GIx) (ea : MemA) :
    fieldsOf (.sts gd t d ea) = some {len := 2, maj := 0x63, gd := gd, d := d, a := ea.a, b := ea.b, min := 0#4, attr := BitVec.ofBool t.k ++ t.w ++ t.scope, imm32 := ea.disp} := rfl

theorem pick_sts (gd : Guard) (t : MemT) (d : GIx) (ea : MemA) :
    (fieldsOf (.sts gd t d ea)).bind pickRow = some (.sts gd t d ea) := by
  simp only [fields_sts, Option.bind_some]
  simp (disch := decide) [-BitVec.getLsbD_eq_getElem, pickRow, pickRow12, set_set, ofBool_bit, shape0_1, shape0_0, shape1_2, shape1_0, shape2_2, shape2_1, shape2_0, shape3_1, shape3_0, shape4_1, shape4_0, shape5_1, shape5_0, shape6_0, shape7_2, shape7_1, shape8_1, shape9_2, shape9_1, shape10_3, shape10_2, shape10_1, shape11_2, shape11_1, shape12_2, shape12_1, shape13_3, shape13_1, shape14_1, shape15_1, shape16_1]

theorem fields_stsv (gd : Guard) (d : VIx) (ea : MemA) :
    fieldsOf (.stsv gd d ea) = some {len := 2, maj := 0x63, gd := gd, d := d.setWidth 6, a := ea.a, b := ea.b, min := 1#4, imm32 := ea.disp} := rfl

theorem pick_stsv (gd : Guard) (d : VIx) (ea : MemA) :
    (fieldsOf (.stsv gd d ea)).bind pickRow = some (.stsv gd d ea) := by
  simp only [fields_stsv, Option.bind_some]
  simp (disch := decide) [-BitVec.getLsbD_eq_getElem, pickRow, pickRow12, set_set, ofBool_bit, shape0_1, shape0_0, shape1_2, shape1_0, shape2_2, shape2_1, shape2_0, shape3_1, shape3_0, shape4_1, shape4_0, shape5_1, shape5_0, shape6_0, shape7_2, shape7_1, shape8_1, shape9_2, shape9_1, shape10_3, shape10_2, shape10_1, shape11_2, shape11_1, shape12_2, shape12_1, shape13_3, shape13_1, shape14_1, shape15_1, shape16_1]

theorem fields_ldd (gd : Guard) (t : MemT) (d : GIx) (ea : MemA) :
    fieldsOf (.ldd gd t d ea) = some {len := 2, maj := 0x64, gd := gd, d := d, a := ea.a, b := ea.b, min := 0#4, attr := BitVec.ofBool t.k ++ t.w ++ t.scope, imm32 := ea.disp} := rfl

theorem pick_ldd (gd : Guard) (t : MemT) (d : GIx) (ea : MemA) :
    (fieldsOf (.ldd gd t d ea)).bind pickRow = some (.ldd gd t d ea) := by
  simp only [fields_ldd, Option.bind_some]
  simp (disch := decide) [-BitVec.getLsbD_eq_getElem, pickRow, pickRow12, set_set, ofBool_bit, shape0_1, shape0_0, shape1_2, shape1_0, shape2_2, shape2_1, shape2_0, shape3_1, shape3_0, shape4_1, shape4_0, shape5_1, shape5_0, shape6_0, shape7_2, shape7_1, shape8_1, shape9_2, shape9_1, shape10_3, shape10_2, shape10_1, shape11_2, shape11_1, shape12_2, shape12_1, shape13_3, shape13_1, shape14_1, shape15_1, shape16_1]

theorem fields_std (gd : Guard) (t : MemT) (d : GIx) (ea : MemA) :
    fieldsOf (.std gd t d ea) = some {len := 2, maj := 0x64, gd := gd, d := d, a := ea.a, b := ea.b, min := 1#4, attr := BitVec.ofBool t.k ++ t.w ++ t.scope, imm32 := ea.disp} := rfl

theorem pick_std (gd : Guard) (t : MemT) (d : GIx) (ea : MemA) :
    (fieldsOf (.std gd t d ea)).bind pickRow = some (.std gd t d ea) := by
  simp only [fields_std, Option.bind_some]
  simp (disch := decide) [-BitVec.getLsbD_eq_getElem, pickRow, pickRow12, set_set, ofBool_bit, shape0_1, shape0_0, shape1_2, shape1_0, shape2_2, shape2_1, shape2_0, shape3_1, shape3_0, shape4_1, shape4_0, shape5_1, shape5_0, shape6_0, shape7_2, shape7_1, shape8_1, shape9_2, shape9_1, shape10_3, shape10_2, shape10_1, shape11_2, shape11_1, shape12_2, shape12_1, shape13_3, shape13_1, shape14_1, shape15_1, shape16_1]

theorem fields_upd (gd : Guard) (op : BitVec 4) (t : MemT) (d : GIx) (ea : MemA) :
    fieldsOf (.upd gd op t d ea) = some {len := 2, maj := 0x65, gd := gd, d := d, a := ea.a, b := ea.b, min := op, attr := BitVec.ofBool t.k ++ t.w ++ t.scope, imm32 := ea.disp} := rfl

theorem pick_upd (gd : Guard) (op : BitVec 4) (t : MemT) (d : GIx) (ea : MemA) :
    (fieldsOf (.upd gd op t d ea)).bind pickRow = some (.upd gd op t d ea) := by
  simp only [fields_upd, Option.bind_some]
  simp (disch := decide) [-BitVec.getLsbD_eq_getElem, pickRow, pickRow12, set_set, ofBool_bit, shape0_1, shape0_0, shape1_2, shape1_0, shape2_2, shape2_1, shape2_0, shape3_1, shape3_0, shape4_1, shape4_0, shape5_1, shape5_0, shape6_0, shape7_2, shape7_1, shape8_1, shape9_2, shape9_1, shape10_3, shape10_2, shape10_1, shape11_2, shape11_1, shape12_2, shape12_1, shape13_3, shape13_1, shape14_1, shape15_1, shape16_1]

theorem fields_updx (gd : Guard) (op : BitVec 4) (t : MemT) (d : GIx) (ea : MemA) :
    fieldsOf (.updx gd op t d ea) = some {len := 2, maj := 0x67, gd := gd, d := d, a := ea.a, b := ea.b, min := op, attr := BitVec.ofBool t.k ++ t.w ++ t.scope, imm32 := ea.disp} := rfl

theorem pick_updx (gd : Guard) (op : BitVec 4) (t : MemT) (d : GIx) (ea : MemA) :
    (fieldsOf (.updx gd op t d ea)).bind pickRow = some (.updx gd op t d ea) := by
  simp only [fields_updx, Option.bind_some]
  simp (disch := decide) [-BitVec.getLsbD_eq_getElem, pickRow, pickRow12, set_set, ofBool_bit, shape0_1, shape0_0, shape1_2, shape1_0, shape2_2, shape2_1, shape2_0, shape3_1, shape3_0, shape4_1, shape4_0, shape5_1, shape5_0, shape6_0, shape7_2, shape7_1, shape8_1, shape9_2, shape9_1, shape10_3, shape10_2, shape10_1, shape11_2, shape11_1, shape12_2, shape12_1, shape13_3, shape13_1, shape14_1, shape15_1, shape16_1]

theorem fields_updv (gd : Guard) (op : BitVec 4) (t : MemT) (d : VIx) (ea : MemA) :
    fieldsOf (.updv gd op t d ea) = some {len := 2, maj := 0x66, gd := gd, d := d.setWidth 6, a := ea.a, b := ea.b, min := op, attr := BitVec.ofBool t.k ++ t.w ++ t.scope, imm16 := 0#15 ++ 0#1, imm32 := ea.disp} := rfl

theorem pick_updv (gd : Guard) (op : BitVec 4) (t : MemT) (d : VIx) (ea : MemA) :
    (fieldsOf (.updv gd op t d ea)).bind pickRow = some (.updv gd op t d ea) := by
  simp only [fields_updv, Option.bind_some]
  simp (disch := decide) [-BitVec.getLsbD_eq_getElem, pickRow, pickRow12, set_set, ofBool_bit, shape0_1, shape0_0, shape1_2, shape1_0, shape2_2, shape2_1, shape2_0, shape3_1, shape3_0, shape4_1, shape4_0, shape5_1, shape5_0, shape6_0, shape7_2, shape7_1, shape8_1, shape9_2, shape9_1, shape10_3, shape10_2, shape10_1, shape11_2, shape11_1, shape12_2, shape12_1, shape13_3, shape13_1, shape14_1, shape15_1, shape16_1]

theorem fields_updvScatter (gd : Guard) (op : BitVec 4) (t : MemT) (d : VIx) (va : VIx) (b : GIx) (disp : BitVec 32) :
    fieldsOf (.updvScatter gd op t d va b disp) = some {len := 2, maj := 0x66, gd := gd, d := d.setWidth 6, a := va.setWidth 6, b := b, min := op, attr := BitVec.ofBool t.k ++ t.w ++ t.scope, imm16 := 0#15 ++ 1#1, imm32 := disp} := rfl

theorem pick_updvScatter (gd : Guard) (op : BitVec 4) (t : MemT) (d : VIx) (va : VIx) (b : GIx) (disp : BitVec 32) :
    (fieldsOf (.updvScatter gd op t d va b disp)).bind pickRow = some (.updvScatter gd op t d va b disp) := by
  simp only [fields_updvScatter, Option.bind_some]
  simp (disch := decide) [-BitVec.getLsbD_eq_getElem, pickRow, pickRow12, set_set, ofBool_bit, shape0_1, shape0_0, shape1_2, shape1_0, shape2_2, shape2_1, shape2_0, shape3_1, shape3_0, shape4_1, shape4_0, shape5_1, shape5_0, shape6_0, shape7_2, shape7_1, shape8_1, shape9_2, shape9_1, shape10_3, shape10_2, shape10_1, shape11_2, shape11_1, shape12_2, shape12_1, shape13_3, shape13_1, shape14_1, shape15_1, shape16_1]

theorem fields_atom (gd : Guard) (op : BitVec 4) (t : MemT) (d : GIx) (ea : MemA) (c : GIx) :
    fieldsOf (.atom gd op t d ea c) = some {len := 2, maj := 0x68, gd := gd, d := d, a := ea.a, b := ea.b, c := c, min := op, attr := BitVec.ofBool t.k ++ t.w ++ t.scope, imm32 := ea.disp} := rfl

theorem pick_atom (gd : Guard) (op : BitVec 4) (t : MemT) (d : GIx) (ea : MemA) (c : GIx) :
    (fieldsOf (.atom gd op t d ea c)).bind pickRow = some (.atom gd op t d ea c) := by
  simp only [fields_atom, Option.bind_some]
  simp (disch := decide) [-BitVec.getLsbD_eq_getElem, pickRow, pickRow13, set_set, ofBool_bit, shape0_1, shape0_0, shape1_2, shape1_0, shape2_2, shape2_1, shape2_0, shape3_1, shape3_0, shape4_1, shape4_0, shape5_1, shape5_0, shape6_0, shape7_2, shape7_1, shape8_1, shape9_2, shape9_1, shape10_3, shape10_2, shape10_1, shape11_2, shape11_1, shape12_2, shape12_1, shape13_3, shape13_1, shape14_1, shape15_1, shape16_1]

theorem fields_cas (gd : Guard) (t : MemT) (d : GIx) (a : GIx) (disp : BitVec 32) (b : GIx) (c : GIx) :
    fieldsOf (.cas gd t d a disp b c) = some {len := 2, maj := 0x69, gd := gd, d := d, a := a, b := b, c := c, min := 0#4, attr := BitVec.ofBool t.k ++ t.w ++ t.scope, imm32 := disp} := rfl

theorem pick_cas (gd : Guard) (t : MemT) (d : GIx) (a : GIx) (disp : BitVec 32) (b : GIx) (c : GIx) :
    (fieldsOf (.cas gd t d a disp b c)).bind pickRow = some (.cas gd t d a disp b c) := by
  simp only [fields_cas, Option.bind_some]
  simp (disch := decide) [-BitVec.getLsbD_eq_getElem, pickRow, pickRow13, set_set, ofBool_bit, shape0_1, shape0_0, shape1_2, shape1_0, shape2_2, shape2_1, shape2_0, shape3_1, shape3_0, shape4_1, shape4_0, shape5_1, shape5_0, shape6_0, shape7_2, shape7_1, shape8_1, shape9_2, shape9_1, shape10_3, shape10_2, shape10_1, shape11_2, shape11_1, shape12_2, shape12_1, shape13_3, shape13_1, shape14_1, shape15_1, shape16_1]

theorem fields_drain (gd : Guard) (scope : BitVec 3) (a : GIx) (b : GIx) :
    fieldsOf (.drain gd scope a b) = some {len := 2, maj := 0x6A, gd := gd, a := a, b := b, min := 0#4, attr := scope.setWidth 6} := rfl

theorem pick_drain (gd : Guard) (scope : BitVec 3) (a : GIx) (b : GIx) :
    (fieldsOf (.drain gd scope a b)).bind pickRow = some (.drain gd scope a b) := by
  simp only [fields_drain, Option.bind_some]
  simp (disch := decide) [-BitVec.getLsbD_eq_getElem, pickRow, pickRow13, set_set, ofBool_bit, shape0_1, shape0_0, shape1_2, shape1_0, shape2_2, shape2_1, shape2_0, shape3_1, shape3_0, shape4_1, shape4_0, shape5_1, shape5_0, shape6_0, shape7_2, shape7_1, shape8_1, shape9_2, shape9_1, shape10_3, shape10_2, shape10_1, shape11_2, shape11_1, shape12_2, shape12_1, shape13_3, shape13_1, shape14_1, shape15_1, shape16_1]

theorem fields_inval (gd : Guard) (scope : BitVec 3) (a : GIx) (b : GIx) :
    fieldsOf (.inval gd scope a b) = some {len := 2, maj := 0x6A, gd := gd, a := a, b := b, min := 1#4, attr := scope.setWidth 6} := rfl

theorem pick_inval (gd : Guard) (scope : BitVec 3) (a : GIx) (b : GIx) :
    (fieldsOf (.inval gd scope a b)).bind pickRow = some (.inval gd scope a b) := by
  simp only [fields_inval, Option.bind_some]
  simp (disch := decide) [-BitVec.getLsbD_eq_getElem, pickRow, pickRow13, set_set, ofBool_bit, shape0_1, shape0_0, shape1_2, shape1_0, shape2_2, shape2_1, shape2_0, shape3_1, shape3_0, shape4_1, shape4_0, shape5_1, shape5_0, shape6_0, shape7_2, shape7_1, shape8_1, shape9_2, shape9_1, shape10_3, shape10_2, shape10_1, shape11_2, shape11_1, shape12_2, shape12_1, shape13_3, shape13_1, shape14_1, shape15_1, shape16_1]

theorem fields_fence (gd : Guard) (scope : BitVec 3) (eng : Bool) :
    fieldsOf (.fence gd scope eng) = some {len := 2, maj := 0x6A, gd := gd, min := 2#4, attr := scope.setWidth 6, imm16 := (BitVec.ofBool eng).setWidth 16} := rfl

theorem pick_fence (gd : Guard) (scope : BitVec 3) (eng : Bool) :
    (fieldsOf (.fence gd scope eng)).bind pickRow = some (.fence gd scope eng) := by
  simp only [fields_fence, Option.bind_some]
  simp (disch := decide) [-BitVec.getLsbD_eq_getElem, pickRow, pickRow13, set_set, ofBool_bit, shape0_1, shape0_0, shape1_2, shape1_0, shape2_2, shape2_1, shape2_0, shape3_1, shape3_0, shape4_1, shape4_0, shape5_1, shape5_0, shape6_0, shape7_2, shape7_1, shape8_1, shape9_2, shape9_1, shape10_3, shape10_2, shape10_1, shape11_2, shape11_1, shape12_2, shape12_1, shape13_3, shape13_1, shape14_1, shape15_1, shape16_1]

theorem fields_syncinit (gd : Guard) (a : GIx) (disp : BitVec 32) (b : GIx) :
    fieldsOf (.syncinit gd a disp b) = some {len := 2, maj := 0x6C, gd := gd, a := a, b := b, min := 0#4, imm32 := disp} := rfl

theorem pick_syncinit (gd : Guard) (a : GIx) (disp : BitVec 32) (b : GIx) :
    (fieldsOf (.syncinit gd a disp b)).bind pickRow = some (.syncinit gd a disp b) := by
  simp only [fields_syncinit, Option.bind_some]
  simp (disch := decide) [-BitVec.getLsbD_eq_getElem, pickRow, pickRow13, set_set, ofBool_bit]

theorem fields_syncadd (gd : Guard) (a : GIx) (disp : BitVec 32) (b : GIx) :
    fieldsOf (.syncadd gd a disp b) = some {len := 2, maj := 0x6D, gd := gd, a := a, b := b, min := 0#4, imm32 := disp} := rfl

theorem pick_syncadd (gd : Guard) (a : GIx) (disp : BitVec 32) (b : GIx) :
    (fieldsOf (.syncadd gd a disp b)).bind pickRow = some (.syncadd gd a disp b) := by
  simp only [fields_syncadd, Option.bind_some]
  simp (disch := decide) [-BitVec.getLsbD_eq_getElem, pickRow, pickRow13, set_set, ofBool_bit]

theorem fields_syncwait (gd : Guard) (a : GIx) (disp : BitVec 32) :
    fieldsOf (.syncwait gd a disp) = some {len := 2, maj := 0x6E, gd := gd, a := a, min := 0#4, imm32 := disp} := rfl

theorem pick_syncwait (gd : Guard) (a : GIx) (disp : BitVec 32) :
    (fieldsOf (.syncwait gd a disp)).bind pickRow = some (.syncwait gd a disp) := by
  simp only [fields_syncwait, Option.bind_some]
  simp (disch := decide) [-BitVec.getLsbD_eq_getElem, pickRow, pickRow13, set_set, ofBool_bit]

theorem fields_syncget (gd : Guard) (d : GIx) (a : GIx) (disp : BitVec 32) :
    fieldsOf (.syncget gd d a disp) = some {len := 2, maj := 0x6F, gd := gd, d := d, a := a, min := 0#4, imm32 := disp} := rfl

theorem pick_syncget (gd : Guard) (d : GIx) (a : GIx) (disp : BitVec 32) :
    (fieldsOf (.syncget gd d a disp)).bind pickRow = some (.syncget gd d a disp) := by
  simp only [fields_syncget, Option.bind_some]
  simp (disch := decide) [-BitVec.getLsbD_eq_getElem, pickRow, pickRow13, set_set, ofBool_bit]

theorem fields_tdset (gd : Guard) (dd : BitVec 6) (a : GIx) (disp : BitVec 32) :
    fieldsOf (.tdset gd dd a disp) = some {len := 2, maj := 0x70, gd := gd, d := dd, a := a, min := 0#4, imm32 := disp} := rfl

theorem pick_tdset (gd : Guard) (dd : BitVec 6) (a : GIx) (disp : BitVec 32) :
    (fieldsOf (.tdset gd dd a disp)).bind pickRow = some (.tdset gd dd a disp) := by
  simp only [fields_tdset, Option.bind_some]
  simp (disch := decide) [-BitVec.getLsbD_eq_getElem, pickRow, pickRow14, set_set, ofBool_bit]

theorem fields_tdget (gd : Guard) (a : GIx) (disp : BitVec 32) (dd : BitVec 6) :
    fieldsOf (.tdget gd a disp dd) = some {len := 2, maj := 0x70, gd := gd, d := dd, a := a, min := 1#4, imm32 := disp} := rfl

theorem pick_tdget (gd : Guard) (a : GIx) (disp : BitVec 32) (dd : BitVec 6) :
    (fieldsOf (.tdget gd a disp dd)).bind pickRow = some (.tdget gd a disp dd) := by
  simp only [fields_tdget, Option.bind_some]
  simp (disch := decide) [-BitVec.getLsbD_eq_getElem, pickRow, pickRow14, set_set, ofBool_bit]

theorem fields_ringcfg (gd : Guard) (q : BitVec 3) (a : GIx) (disp : BitVec 32) :
    fieldsOf (.ringcfg gd q a disp) = some {len := 2, maj := 0x71, gd := gd, d := q.setWidth 6, a := a, min := 0#4, imm32 := disp} := rfl

theorem pick_ringcfg (gd : Guard) (q : BitVec 3) (a : GIx) (disp : BitVec 32) :
    (fieldsOf (.ringcfg gd q a disp)).bind pickRow = some (.ringcfg gd q a disp) := by
  simp only [fields_ringcfg, Option.bind_some]
  simp (disch := decide) [-BitVec.getLsbD_eq_getElem, pickRow, pickRow14, set_set, ofBool_bit, shape0_1, shape0_0, shape1_2, shape1_0, shape2_2, shape2_1, shape2_0, shape3_1, shape3_0, shape4_1, shape4_0, shape5_1, shape5_0, shape6_0, shape7_2, shape7_1, shape8_1, shape9_2, shape9_1, shape10_3, shape10_2, shape10_1, shape11_2, shape11_1, shape12_2, shape12_1, shape13_3, shape13_1, shape14_1, shape15_1, shape16_1]

theorem fields_ringstat (gd : Guard) (d : GIx) (q : BitVec 3) :
    fieldsOf (.ringstat gd d q) = some {len := 2, maj := 0x71, gd := gd, d := d, a := q.setWidth 6, min := 1#4} := rfl

theorem pick_ringstat (gd : Guard) (d : GIx) (q : BitVec 3) :
    (fieldsOf (.ringstat gd d q)).bind pickRow = some (.ringstat gd d q) := by
  simp only [fields_ringstat, Option.bind_some]
  simp (disch := decide) [-BitVec.getLsbD_eq_getElem, pickRow, pickRow14, set_set, ofBool_bit, shape0_1, shape0_0, shape1_2, shape1_0, shape2_2, shape2_1, shape2_0, shape3_1, shape3_0, shape4_1, shape4_0, shape5_1, shape5_0, shape6_0, shape7_2, shape7_1, shape8_1, shape9_2, shape9_1, shape10_3, shape10_2, shape10_1, shape11_2, shape11_1, shape12_2, shape12_1, shape13_3, shape13_1, shape14_1, shape15_1, shape16_1]

theorem fields_ringdrop (gd : Guard) (q : BitVec 3) (count : BitVec 16) :
    fieldsOf (.ringdrop gd q count) = some {len := 2, maj := 0x71, gd := gd, d := q.setWidth 6, min := 2#4, imm16 := count} := rfl

theorem pick_ringdrop (gd : Guard) (q : BitVec 3) (count : BitVec 16) :
    (fieldsOf (.ringdrop gd q count)).bind pickRow = some (.ringdrop gd q count) := by
  simp only [fields_ringdrop, Option.bind_some]
  simp (disch := decide) [-BitVec.getLsbD_eq_getElem, pickRow, pickRow14, set_set, ofBool_bit, shape0_1, shape0_0, shape1_2, shape1_0, shape2_2, shape2_1, shape2_0, shape3_1, shape3_0, shape4_1, shape4_0, shape5_1, shape5_0, shape6_0, shape7_2, shape7_1, shape8_1, shape9_2, shape9_1, shape10_3, shape10_2, shape10_1, shape11_2, shape11_1, shape12_2, shape12_1, shape13_3, shape13_1, shape14_1, shape15_1, shape16_1]

theorem fields_tilecfg (gd : Guard) (a : GIx) :
    fieldsOf (.tilecfg gd a) = some {len := 0, maj := 0x72, gd := gd, a := a, b := 0#6} := rfl

theorem pick_tilecfg (gd : Guard) (a : GIx) :
    (fieldsOf (.tilecfg gd a)).bind pickRow = some (.tilecfg gd a) := by
  simp only [fields_tilecfg, Option.bind_some]
  simp (disch := decide) [-BitVec.getLsbD_eq_getElem, pickRow, pickRow14, set_set, ofBool_bit]

theorem fields_tilerel (gd : Guard) :
    fieldsOf (.tilerel gd) = some {len := 0, maj := 0x72, gd := gd, b := 1#6} := rfl

theorem pick_tilerel (gd : Guard) :
    (fieldsOf (.tilerel gd)).bind pickRow = some (.tilerel gd) := by
  simp only [fields_tilerel, Option.bind_some]
  simp (disch := decide) [-BitVec.getLsbD_eq_getElem, pickRow, pickRow14, set_set, ofBool_bit]

theorem fields_tzero (gd : Guard) (ta : BitVec 5) :
    fieldsOf (.tzero gd ta) = some {len := 0, maj := 0x72, gd := gd, d := ta.setWidth 6, b := 2#6} := rfl

theorem pick_tzero (gd : Guard) (ta : BitVec 5) :
    (fieldsOf (.tzero gd ta)).bind pickRow = some (.tzero gd ta) := by
  simp only [fields_tzero, Option.bind_some]
  simp (disch := decide) [-BitVec.getLsbD_eq_getElem, pickRow, pickRow14, set_set, ofBool_bit, shape0_1, shape0_0, shape1_2, shape1_0, shape2_2, shape2_1, shape2_0, shape3_1, shape3_0, shape4_1, shape4_0, shape5_1, shape5_0, shape6_0, shape7_2, shape7_1, shape8_1, shape9_2, shape9_1, shape10_3, shape10_2, shape10_1, shape11_2, shape11_1, shape12_2, shape12_1, shape13_3, shape13_1, shape14_1, shape15_1, shape16_1]

theorem fields_tld (gd : Guard) (ta : BitVec 5) (a : GIx) (disp : BitVec 32) :
    fieldsOf (.tld gd ta a disp) = some {len := 2, maj := 0x73, gd := gd, d := ta.setWidth 6, a := a, min := 0#4, imm32 := disp} := rfl

theorem pick_tld (gd : Guard) (ta : BitVec 5) (a : GIx) (disp : BitVec 32) :
    (fieldsOf (.tld gd ta a disp)).bind pickRow = some (.tld gd ta a disp) := by
  simp only [fields_tld, Option.bind_some]
  simp (disch := decide) [-BitVec.getLsbD_eq_getElem, pickRow, pickRow14, set_set, ofBool_bit, shape0_1, shape0_0, shape1_2, shape1_0, shape2_2, shape2_1, shape2_0, shape3_1, shape3_0, shape4_1, shape4_0, shape5_1, shape5_0, shape6_0, shape7_2, shape7_1, shape8_1, shape9_2, shape9_1, shape10_3, shape10_2, shape10_1, shape11_2, shape11_1, shape12_2, shape12_1, shape13_3, shape13_1, shape14_1, shape15_1, shape16_1]

theorem fields_tsts (gd : Guard) (a : GIx) (disp : BitVec 32) (ta : BitVec 5) :
    fieldsOf (.tsts gd a disp ta) = some {len := 2, maj := 0x73, gd := gd, d := ta.setWidth 6, a := a, min := 1#4, imm32 := disp} := rfl

theorem pick_tsts (gd : Guard) (a : GIx) (disp : BitVec 32) (ta : BitVec 5) :
    (fieldsOf (.tsts gd a disp ta)).bind pickRow = some (.tsts gd a disp ta) := by
  simp only [fields_tsts, Option.bind_some]
  simp (disch := decide) [-BitVec.getLsbD_eq_getElem, pickRow, pickRow14, set_set, ofBool_bit, shape0_1, shape0_0, shape1_2, shape1_0, shape2_2, shape2_1, shape2_0, shape3_1, shape3_0, shape4_1, shape4_0, shape5_1, shape5_0, shape6_0, shape7_2, shape7_1, shape8_1, shape9_2, shape9_1, shape10_3, shape10_2, shape10_1, shape11_2, shape11_1, shape12_2, shape12_1, shape13_3, shape13_1, shape14_1, shape15_1, shape16_1]

theorem fields_tupd (gd : Guard) (op : BitVec 4) (t : MemT) (ea : MemA) (ta : BitVec 5) :
    fieldsOf (.tupd gd op t ea ta) = some {len := 2, maj := 0x74, gd := gd, d := ta.setWidth 6, a := ea.a, b := ea.b, min := op, attr := BitVec.ofBool t.k ++ t.w ++ t.scope, imm32 := ea.disp} := rfl

theorem pick_tupd (gd : Guard) (op : BitVec 4) (t : MemT) (ea : MemA) (ta : BitVec 5) :
    (fieldsOf (.tupd gd op t ea ta)).bind pickRow = some (.tupd gd op t ea ta) := by
  simp only [fields_tupd, Option.bind_some]
  simp (disch := decide) [-BitVec.getLsbD_eq_getElem, pickRow, pickRow14, set_set, ofBool_bit, shape0_1, shape0_0, shape1_2, shape1_0, shape2_2, shape2_1, shape2_0, shape3_1, shape3_0, shape4_1, shape4_0, shape5_1, shape5_0, shape6_0, shape7_2, shape7_1, shape8_1, shape9_2, shape9_1, shape10_3, shape10_2, shape10_1, shape11_2, shape11_1, shape12_2, shape12_1, shape13_3, shape13_1, shape14_1, shape15_1, shape16_1]

theorem fields_mma (gd : Guard) (ta : BitVec 5) (qa : BitVec 3) (qb : BitVec 3) :
    fieldsOf (.mma gd ta qa qb) = some {len := 0, maj := 0x75, gd := gd, d := ta.setWidth 6, a := qa.setWidth 6, b := qb.setWidth 6} := rfl

theorem pick_mma (gd : Guard) (ta : BitVec 5) (qa : BitVec 3) (qb : BitVec 3) :
    (fieldsOf (.mma gd ta qa qb)).bind pickRow = some (.mma gd ta qa qb) := by
  simp only [fields_mma, Option.bind_some]
  simp (disch := decide) [-BitVec.getLsbD_eq_getElem, pickRow, pickRow14, set_set, ofBool_bit, shape0_1, shape0_0, shape1_2, shape1_0, shape2_2, shape2_1, shape2_0, shape3_1, shape3_0, shape4_1, shape4_0, shape5_1, shape5_0, shape6_0, shape7_2, shape7_1, shape8_1, shape9_2, shape9_1, shape10_3, shape10_2, shape10_1, shape11_2, shape11_1, shape12_2, shape12_1, shape13_3, shape13_1, shape14_1, shape15_1, shape16_1]

theorem fields_tcvt (gd : Guard) (q : BitVec 3) (ta : BitVec 5) :
    fieldsOf (.tcvt gd q ta) = some {len := 0, maj := 0x76, gd := gd, d := q.setWidth 6, a := ta.setWidth 6} := rfl

theorem pick_tcvt (gd : Guard) (q : BitVec 3) (ta : BitVec 5) :
    (fieldsOf (.tcvt gd q ta)).bind pickRow = some (.tcvt gd q ta) := by
  simp only [fields_tcvt, Option.bind_some]
  simp (disch := decide) [-BitVec.getLsbD_eq_getElem, pickRow, pickRow14, set_set, ofBool_bit, shape0_1, shape0_0, shape1_2, shape1_0, shape2_2, shape2_1, shape2_0, shape3_1, shape3_0, shape4_1, shape4_0, shape5_1, shape5_0, shape6_0, shape7_2, shape7_1, shape8_1, shape9_2, shape9_1, shape10_3, shape10_2, shape10_1, shape11_2, shape11_1, shape12_2, shape12_1, shape13_3, shape13_1, shape14_1, shape15_1, shape16_1]

theorem fields_cpy (gd : Guard) (d : GIx) (a : GIx) (disp : BitVec 32) :
    fieldsOf (.cpy gd d a disp) = some {len := 2, maj := 0x78, gd := gd, d := d, a := a, min := 0#4, imm32 := disp} := rfl

theorem pick_cpy (gd : Guard) (d : GIx) (a : GIx) (disp : BitVec 32) :
    (fieldsOf (.cpy gd d a disp)).bind pickRow = some (.cpy gd d a disp) := by
  simp only [fields_cpy, Option.bind_some]
  simp (disch := decide) [-BitVec.getLsbD_eq_getElem, pickRow, pickRow15, set_set, ofBool_bit]

theorem fields_cpystat (gd : Guard) (d : GIx) (a : GIx) :
    fieldsOf (.cpystat gd d a) = some {len := 2, maj := 0x79, gd := gd, d := d, a := a, min := 0#4} := rfl

theorem pick_cpystat (gd : Guard) (d : GIx) (a : GIx) :
    (fieldsOf (.cpystat gd d a)).bind pickRow = some (.cpystat gd d a) := by
  simp only [fields_cpystat, Option.bind_some]
  simp (disch := decide) [-BitVec.getLsbD_eq_getElem, pickRow, pickRow15, set_set, ofBool_bit]

theorem fields_cpyres (gd : Guard) (a : GIx) :
    fieldsOf (.cpyres gd a) = some {len := 2, maj := 0x79, gd := gd, a := a, min := 1#4} := rfl

theorem pick_cpyres (gd : Guard) (a : GIx) :
    (fieldsOf (.cpyres gd a)).bind pickRow = some (.cpyres gd a) := by
  simp only [fields_cpyres, Option.bind_some]
  simp (disch := decide) [-BitVec.getLsbD_eq_getElem, pickRow, pickRow15, set_set, ofBool_bit]

theorem fields_dsmode (gd : Guard) (mode : BitVec 2) (a : GIx) :
    fieldsOf (.dsmode gd mode a) = some {len := 2, maj := 0x7A, gd := gd, a := a, min := 0#4, imm16 := mode.setWidth 16} := rfl

theorem pick_dsmode (gd : Guard) (mode : BitVec 2) (a : GIx) :
    (fieldsOf (.dsmode gd mode a)).bind pickRow = some (.dsmode gd mode a) := by
  simp only [fields_dsmode, Option.bind_some]
  simp (disch := decide) [-BitVec.getLsbD_eq_getElem, pickRow, pickRow15, set_set, ofBool_bit, shape0_1, shape0_0, shape1_2, shape1_0, shape2_2, shape2_1, shape2_0, shape3_1, shape3_0, shape4_1, shape4_0, shape5_1, shape5_0, shape6_0, shape7_2, shape7_1, shape8_1, shape9_2, shape9_1, shape10_3, shape10_2, shape10_1, shape11_2, shape11_1, shape12_2, shape12_1, shape13_3, shape13_1, shape14_1, shape15_1, shape16_1]

theorem fields_bsld (gd : Guard) (idx : BitVec 10) (a : GIx) (disp : BitVec 32) (b : GIx) :
    fieldsOf (.bsld gd idx a disp b) = some {len := 2, maj := 0x7B, gd := gd, a := a, b := b, min := 0#4, imm16 := idx.setWidth 16, imm32 := disp} := rfl

theorem pick_bsld (gd : Guard) (idx : BitVec 10) (a : GIx) (disp : BitVec 32) (b : GIx) :
    (fieldsOf (.bsld gd idx a disp b)).bind pickRow = some (.bsld gd idx a disp b) := by
  simp only [fields_bsld, Option.bind_some]
  simp (disch := decide) [-BitVec.getLsbD_eq_getElem, pickRow, pickRow15, set_set, ofBool_bit, shape0_1, shape0_0, shape1_2, shape1_0, shape2_2, shape2_1, shape2_0, shape3_1, shape3_0, shape4_1, shape4_0, shape5_1, shape5_0, shape6_0, shape7_2, shape7_1, shape8_1, shape9_2, shape9_1, shape10_3, shape10_2, shape10_1, shape11_2, shape11_1, shape12_2, shape12_1, shape13_3, shape13_1, shape14_1, shape15_1, shape16_1]

theorem fields_bsrun (gd : Guard) (a : GIx) (b : GIx) :
    fieldsOf (.bsrun gd a b) = some {len := 2, maj := 0x7B, gd := gd, a := a, b := b, min := 1#4} := rfl

theorem pick_bsrun (gd : Guard) (a : GIx) (b : GIx) :
    (fieldsOf (.bsrun gd a b)).bind pickRow = some (.bsrun gd a b) := by
  simp only [fields_bsrun, Option.bind_some]
  simp (disch := decide) [-BitVec.getLsbD_eq_getElem, pickRow, pickRow15, set_set, ofBool_bit]

theorem fields_bsres (gd : Guard) :
    fieldsOf (.bsres gd) = some {len := 2, maj := 0x7B, gd := gd, min := 2#4} := rfl

theorem pick_bsres (gd : Guard) :
    (fieldsOf (.bsres gd)).bind pickRow = some (.bsres gd) := by
  simp only [fields_bsres, Option.bind_some]
  simp (disch := decide) [-BitVec.getLsbD_eq_getElem, pickRow, pickRow15, set_set, ofBool_bit]

theorem fields_bsstat (gd : Guard) (d : GIx) :
    fieldsOf (.bsstat gd d) = some {len := 2, maj := 0x7B, gd := gd, d := d, min := 3#4} := rfl

theorem pick_bsstat (gd : Guard) (d : GIx) :
    (fieldsOf (.bsstat gd d)).bind pickRow = some (.bsstat gd d) := by
  simp only [fields_bsstat, Option.bind_some]
  simp (disch := decide) [-BitVec.getLsbD_eq_getElem, pickRow, pickRow15, set_set, ofBool_bit]

theorem fields_barcfg (gd : Guard) (bb : BitVec 2) (a : GIx) :
    fieldsOf (.barcfg gd bb a) = some {len := 2, maj := 0x7C, gd := gd, d := bb.setWidth 6, a := a, min := 0#4} := rfl

theorem pick_barcfg (gd : Guard) (bb : BitVec 2) (a : GIx) :
    (fieldsOf (.barcfg gd bb a)).bind pickRow = some (.barcfg gd bb a) := by
  simp only [fields_barcfg, Option.bind_some]
  simp (disch := decide) [-BitVec.getLsbD_eq_getElem, pickRow, pickRow15, set_set, ofBool_bit, shape0_1, shape0_0, shape1_2, shape1_0, shape2_2, shape2_1, shape2_0, shape3_1, shape3_0, shape4_1, shape4_0, shape5_1, shape5_0, shape6_0, shape7_2, shape7_1, shape8_1, shape9_2, shape9_1, shape10_3, shape10_2, shape10_1, shape11_2, shape11_1, shape12_2, shape12_1, shape13_3, shape13_1, shape14_1, shape15_1, shape16_1]

theorem fields_bararr (gd : Guard) (bb : BitVec 2) :
    fieldsOf (.bararr gd bb) = some {len := 2, maj := 0x7C, gd := gd, d := bb.setWidth 6, min := 1#4} := rfl

theorem pick_bararr (gd : Guard) (bb : BitVec 2) :
    (fieldsOf (.bararr gd bb)).bind pickRow = some (.bararr gd bb) := by
  simp only [fields_bararr, Option.bind_some]
  simp (disch := decide) [-BitVec.getLsbD_eq_getElem, pickRow, pickRow15, set_set, ofBool_bit, shape0_1, shape0_0, shape1_2, shape1_0, shape2_2, shape2_1, shape2_0, shape3_1, shape3_0, shape4_1, shape4_0, shape5_1, shape5_0, shape6_0, shape7_2, shape7_1, shape8_1, shape9_2, shape9_1, shape10_3, shape10_2, shape10_1, shape11_2, shape11_1, shape12_2, shape12_1, shape13_3, shape13_1, shape14_1, shape15_1, shape16_1]

theorem fields_barwait (gd : Guard) (bb : BitVec 2) :
    fieldsOf (.barwait gd bb) = some {len := 2, maj := 0x7C, gd := gd, d := bb.setWidth 6, min := 2#4} := rfl

theorem pick_barwait (gd : Guard) (bb : BitVec 2) :
    (fieldsOf (.barwait gd bb)).bind pickRow = some (.barwait gd bb) := by
  simp only [fields_barwait, Option.bind_some]
  simp (disch := decide) [-BitVec.getLsbD_eq_getElem, pickRow, pickRow15, set_set, ofBool_bit, shape0_1, shape0_0, shape1_2, shape1_0, shape2_2, shape2_1, shape2_0, shape3_1, shape3_0, shape4_1, shape4_0, shape5_1, shape5_0, shape6_0, shape7_2, shape7_1, shape8_1, shape9_2, shape9_1, shape10_3, shape10_2, shape10_1, shape11_2, shape11_1, shape12_2, shape12_1, shape13_3, shape13_1, shape14_1, shape15_1, shape16_1]

theorem fields_send (gd : Guard) (tag : Byte) (nw : BitVec 4) (a : GIx) (disp : BitVec 32) :
    fieldsOf (.send gd tag nw a disp) = some {len := 2, maj := 0x7D, gd := gd, a := a, min := 0#4, imm16 := tag ++ 0#4 ++ nw, imm32 := disp} := rfl

theorem pick_send (gd : Guard) (tag : Byte) (nw : BitVec 4) (a : GIx) (disp : BitVec 32) :
    (fieldsOf (.send gd tag nw a disp)).bind pickRow = some (.send gd tag nw a disp) := by
  simp only [fields_send, Option.bind_some]
  simp (disch := decide) [-BitVec.getLsbD_eq_getElem, pickRow, pickRow15, set_set, ofBool_bit, shape0_1, shape0_0, shape1_2, shape1_0, shape2_2, shape2_1, shape2_0, shape3_1, shape3_0, shape4_1, shape4_0, shape5_1, shape5_0, shape6_0, shape7_2, shape7_1, shape8_1, shape9_2, shape9_1, shape10_3, shape10_2, shape10_1, shape11_2, shape11_1, shape12_2, shape12_1, shape13_3, shape13_1, shape14_1, shape15_1, shape16_1]

theorem fields_inpop (gd : Guard) (d : GIx) :
    fieldsOf (.inpop gd d) = some {len := 2, maj := 0x7D, gd := gd, d := d, min := 1#4} := rfl

theorem pick_inpop (gd : Guard) (d : GIx) :
    (fieldsOf (.inpop gd d)).bind pickRow = some (.inpop gd d) := by
  simp only [fields_inpop, Option.bind_some]
  simp (disch := decide) [-BitVec.getLsbD_eq_getElem, pickRow, pickRow15, set_set, ofBool_bit]

theorem fields_gqtake (gd : Guard) (d : GIx) :
    fieldsOf (.gqtake gd d) = some {len := 2, maj := 0x7D, gd := gd, d := d, min := 2#4} := rfl

theorem pick_gqtake (gd : Guard) (d : GIx) :
    (fieldsOf (.gqtake gd d)).bind pickRow = some (.gqtake gd d) := by
  simp only [fields_gqtake, Option.bind_some]
  simp (disch := decide) [-BitVec.getLsbD_eq_getElem, pickRow, pickRow15, set_set, ofBool_bit]

theorem fields_gqput (gd : Guard) (a : GIx) :
    fieldsOf (.gqput gd a) = some {len := 2, maj := 0x7D, gd := gd, a := a, min := 3#4} := rfl

theorem pick_gqput (gd : Guard) (a : GIx) :
    (fieldsOf (.gqput gd a)).bind pickRow = some (.gqput gd a) := by
  simp only [fields_gqput, Option.bind_some]
  simp (disch := decide) [-BitVec.getLsbD_eq_getElem, pickRow, pickRow15, set_set, ofBool_bit]

theorem fields_trap (gd : Guard) (code : BitVec 16) :
    fieldsOf (.trap gd code) = some {len := 2, maj := 0x7E, gd := gd, min := 0#4, imm16 := code} := rfl

theorem pick_trap (gd : Guard) (code : BitVec 16) :
    (fieldsOf (.trap gd code)).bind pickRow = some (.trap gd code) := by
  simp only [fields_trap, Option.bind_some]
  simp (disch := decide) [-BitVec.getLsbD_eq_getElem, pickRow, pickRow15, set_set, ofBool_bit]

theorem fields_tret (gd : Guard) :
    fieldsOf (.tret gd) = some {len := 2, maj := 0x7E, gd := gd, min := 1#4} := rfl

theorem pick_tret (gd : Guard) :
    (fieldsOf (.tret gd)).bind pickRow = some (.tret gd) := by
  simp only [fields_tret, Option.bind_some]
  simp (disch := decide) [-BitVec.getLsbD_eq_getElem, pickRow, pickRow15, set_set, ofBool_bit]

theorem fields_exit (gd : Guard) :
    fieldsOf (.exit gd) = some {len := 2, maj := 0x7E, gd := gd, min := 2#4} := rfl

theorem pick_exit (gd : Guard) :
    (fieldsOf (.exit gd)).bind pickRow = some (.exit gd) := by
  simp only [fields_exit, Option.bind_some]
  simp (disch := decide) [-BitVec.getLsbD_eq_getElem, pickRow, pickRow15, set_set, ofBool_bit]

theorem fields_brk (gd : Guard) (code : BitVec 16) :
    fieldsOf (.brk gd code) = some {len := 2, maj := 0x7E, gd := gd, min := 3#4, imm16 := code} := rfl

theorem pick_brk (gd : Guard) (code : BitVec 16) :
    (fieldsOf (.brk gd code)).bind pickRow = some (.brk gd code) := by
  simp only [fields_brk, Option.bind_some]
  simp (disch := decide) [-BitVec.getLsbD_eq_getElem, pickRow, pickRow15, set_set, ofBool_bit]

theorem fields_hubcall (gd : Guard) (code : BitVec 16) (d : GIx) (a : GIx) :
    fieldsOf (.hubcall gd code d a) = some {len := 2, maj := 0x7E, gd := gd, d := d, a := a, min := 4#4, imm16 := code} := rfl

theorem pick_hubcall (gd : Guard) (code : BitVec 16) (d : GIx) (a : GIx) :
    (fieldsOf (.hubcall gd code d a)).bind pickRow = some (.hubcall gd code d a) := by
  simp only [fields_hubcall, Option.bind_some]
  simp (disch := decide) [-BitVec.getLsbD_eq_getElem, pickRow, pickRow15, set_set, ofBool_bit]

theorem fields_chkpt (gd : Guard) (a : GIx) :
    fieldsOf (.chkpt gd a) = some {len := 2, maj := 0x7E, gd := gd, a := a, min := 5#4} := rfl

theorem pick_chkpt (gd : Guard) (a : GIx) :
    (fieldsOf (.chkpt gd a)).bind pickRow = some (.chkpt gd a) := by
  simp only [fields_chkpt, Option.bind_some]
  simp (disch := decide) [-BitVec.getLsbD_eq_getElem, pickRow, pickRow15, set_set, ofBool_bit]

end Sys2Proof.Laws
end

