-- ==== Sys2Proof/Laws/State.lean ====
section
/-! SUPPORT. What each update of the state leaves alone, and what is read after it: one lemma for each field and update, and the
lemmas on the sparse tables. -/

namespace Sys2Proof.Laws

open Sys2Proof.Machine

set_option Elab.async false

-- the sparse tables

@[simp] theorem sparse_get_set_eq {α : Type} (d : α) (t : Sparse α) (n : Nat) (v : α) : Sparse.get d (Sparse.set t n v) n = v := by
  induction t with
  | nil => simp [Sparse.set, Sparse.get]
  | cons e r ih =>
    obtain ⟨k, w⟩ := e
    simp only [Sparse.set]
    split
    · simp [Sparse.get]
    · split
      · simp [Sparse.get]
      · rename_i h1 h2
        have h3 : ¬ k = n := fun e => h2 e.symm
        simp [Sparse.get, h3, ih]

theorem sparse_get_set_ne {α : Type} (d : α) (t : Sparse α) {n m : Nat} (v : α) (h : m ≠ n) :
    Sparse.get d (Sparse.set t n v) m = Sparse.get d t m := by
  have h' : ¬ n = m := fun e => h e.symm
  induction t with
  | nil => simp [Sparse.set, Sparse.get, h']
  | cons e r ih =>
    obtain ⟨k, w⟩ := e
    simp only [Sparse.set]
    split
    · simp [Sparse.get, h']
    · split
      · rename_i h1 h2
        subst h2
        simp [Sparse.get, h']
      · simp [Sparse.get, ih]

@[simp] theorem sparse_find_set_eq {α : Type} (t : Sparse α) (n : Nat) (v : α) : Sparse.find (Sparse.set t n v) n = some v := by
  induction t with
  | nil => simp [Sparse.set, Sparse.find]
  | cons e r ih =>
    obtain ⟨k, w⟩ := e
    simp only [Sparse.set]
    split
    · simp [Sparse.find]
    · split
      · simp [Sparse.find]
      · rename_i h1 h2
        have h3 : ¬ k = n := fun e => h2 e.symm
        simp [Sparse.find, h3, ih]

theorem sparse_find_set_ne {α : Type} (t : Sparse α) {n m : Nat} (v : α) (h : m ≠ n) :
    Sparse.find (Sparse.set t n v) m = Sparse.find t m := by
  have h' : ¬ n = m := fun e => h e.symm
  induction t with
  | nil => simp [Sparse.set, Sparse.find, h']
  | cons e r ih =>
    obtain ⟨k, w⟩ := e
    simp only [Sparse.set]
    split
    · simp [Sparse.find, h']
    · split
      · rename_i h1 h2
        subst h2
        simp [Sparse.find, h']
      · simp [Sparse.find, ih]

-- cores and slots

theorem coreId_key_inj {c d : CoreId} (h : c.key = d.key) : c = d := by
  obtain ⟨a, x, y⟩ := c
  obtain ⟨b, u, v⟩ := d
  have h1 := a.isLt; have h2 := x.isLt; have h3 := y.isLt
  have h4 := b.isLt; have h5 := u.isLt; have h6 := v.isLt
  simp only [CoreId.key, CoreId.pos] at h
  have e1 : a.toNat = b.toNat := by omega
  have e2 : y.toNat = v.toNat := by omega
  have e3 : x.toNat = u.toNat := by omega
  simp only [CoreId.mk.injEq]
  exact ⟨BitVec.eq_of_toNat_eq e1, BitVec.eq_of_toNat_eq e3, BitVec.eq_of_toNat_eq e2⟩

@[simp] theorem core_setCore (s : State) (c : CoreId) (x : Core) : (s.setCore c x).core c = x := by
  simp [State.core, State.setCore]
theorem core_setCore_ne (s : State) {c d : CoreId} (x : Core) (h : d ≠ c) : (s.setCore c x).core d = s.core d :=
  sparse_get_set_ne _ _ _ fun e => h (coreId_key_inj e)
@[simp] theorem slot_setSlot (s : State) (c : CoreId) (k : BitVec 4) (y : Slot) : (s.setSlot c k y).slot c k = y := by
  simp [State.slot, State.setSlot, Core.setSlot]
theorem slot_setSlot_ne (s : State) (c : CoreId) {k j : BitVec 4} (y : Slot) (h : j ≠ k) :
    (s.setSlot c k y).slot c j = s.slot c j := by
  have h' : k.toNat ≠ j.toNat := fun e => h (BitVec.eq_of_toNat_eq e.symm)
  simp [State.slot, State.setSlot, Core.setSlot, Vector.getElem_set_ne, h']
theorem slot_setSlot_core (s : State) {c d : CoreId} (k j : BitVec 4) (y : Slot) (h : d ≠ c) :
    (s.setSlot c k y).slot d j = s.slot d j := by
  unfold State.slot State.setSlot
  rw [core_setCore_ne _ _ h]
@[simp] theorem cs_setCs (s : State) (x : Slot) : (s.setCs x).cs = x := slot_setSlot s _ _ x
@[simp] theorem setCs_setCs (s : State) (x y : Slot) : ((s.setCs x).setCs y).cs = y := cs_setCs _ y
@[simp] theorem die_setDie (s : State) (d : BitVec 3) (x : Die) : (s.setDie d x).die d = x := by
  simp [State.die, State.setDie]
theorem die_setDie_ne (s : State) {d e : BitVec 3} (x : Die) (h : e ≠ d) : (s.setDie d x).die e = s.die e := by
  have h' : d.toNat ≠ e.toNat := fun q => h (BitVec.eq_of_toNat_eq q.symm)
  simp [State.die, State.setDie, Vector.getElem_set_ne, h']
@[simp] theorem ctx_setCtx (s : State) (n : BitVec 6) (x : Ctx) : (s.setCtx n x).ctx n = x := by
  simp [State.ctx, State.setCtx]
@[simp] theorem slab_setSlab (s : State) (c : CoreId) (x : Slab) : (s.setSlab c x).slab c = x := by
  simp [State.slab, State.setSlab]
@[simp] theorem cluster_setCluster (s : State) (n : Nat) (x : Cluster) : (s.setCluster n x).cluster n = x := by
  simp [State.cluster, State.setCluster]

-- fields that an update leaves alone

@[simp] theorem setCore_meshW (s : State) (c : CoreId) (x : Core) : (s.setCore c x).meshW = s.meshW := rfl
@[simp] theorem setCore_meshH (s : State) (c : CoreId) (x : Core) : (s.setCore c x).meshH = s.meshH := rfl
@[simp] theorem setCore_slabs (s : State) (c : CoreId) (x : Core) : (s.setCore c x).slabs = s.slabs := rfl
@[simp] theorem setCore_clusters (s : State) (c : CoreId) (x : Core) : (s.setCore c x).clusters = s.clusters := rfl
@[simp] theorem setCore_dies (s : State) (c : CoreId) (x : Core) : (s.setCore c x).dies = s.dies := rfl
@[simp] theorem setCore_ctxs (s : State) (c : CoreId) (x : Core) : (s.setCore c x).ctxs = s.ctxs := rfl
@[simp] theorem setCore_spokes (s : State) (c : CoreId) (x : Core) : (s.setCore c x).spokes = s.spokes := rfl
@[simp] theorem setCore_queues (s : State) (c : CoreId) (x : Core) : (s.setCore c x).queues = s.queues := rfl
@[simp] theorem setCore_saves (s : State) (c : CoreId) (x : Core) : (s.setCore c x).saves = s.saves := rfl
@[simp] theorem setCore_root (s : State) (c : CoreId) (x : Core) : (s.setCore c x).root = s.root := rfl
@[simp] theorem setCore_notes (s : State) (c : CoreId) (x : Core) : (s.setCore c x).notes = s.notes := rfl
@[simp] theorem setCore_gateReport (s : State) (c : CoreId) (x : Core) : (s.setCore c x).gateReport = s.gateReport := rfl
@[simp] theorem setCore_readOut (s : State) (c : CoreId) (x : Core) : (s.setCore c x).readOut = s.readOut := rfl
@[simp] theorem setCore_readPois (s : State) (c : CoreId) (x : Core) : (s.setCore c x).readPois = s.readPois := rfl
@[simp] theorem setCore_hot (s : State) (c : CoreId) (x : Core) : (s.setCore c x).hot = s.hot := rfl
@[simp] theorem setCore_scores (s : State) (c : CoreId) (x : Core) : (s.setCore c x).scores = s.scores := rfl
@[simp] theorem setCore_decays (s : State) (c : CoreId) (x : Core) : (s.setCore c x).decays = s.decays := rfl
@[simp] theorem setCore_rowPages (s : State) (c : CoreId) (x : Core) : (s.setCore c x).rowPages = s.rowPages := rfl
@[simp] theorem setCore_noSpare (s : State) (c : CoreId) (x : Core) : (s.setCore c x).noSpare = s.noSpare := rfl
@[simp] theorem setCore_spares (s : State) (c : CoreId) (x : Core) : (s.setCore c x).spares = s.spares := rfl
@[simp] theorem setCore_wseq (s : State) (c : CoreId) (x : Core) : (s.setCore c x).wseq = s.wseq := rfl
@[simp] theorem setCore_scrubs (s : State) (c : CoreId) (x : Core) : (s.setCore c x).scrubs = s.scrubs := rfl
@[simp] theorem setCore_mem (s : State) (c : CoreId) (x : Core) : (s.setCore c x).mem = s.mem := rfl
@[simp] theorem setCore_poisLines (s : State) (c : CoreId) (x : Core) : (s.setCore c x).poisLines = s.poisLines := rfl
@[simp] theorem setCore_poisKeys (s : State) (c : CoreId) (x : Core) : (s.setCore c x).poisKeys = s.poisKeys := rfl
@[simp] theorem setCore_transit (s : State) (c : CoreId) (x : Core) : (s.setCore c x).transit = s.transit := rfl
@[simp] theorem setCore_peerq (s : State) (c : CoreId) (x : Core) : (s.setCore c x).peerq = s.peerq := rfl
@[simp] theorem setCore_msgs (s : State) (c : CoreId) (x : Core) : (s.setCore c x).msgs = s.msgs := rfl
@[simp] theorem setCore_cur (s : State) (c : CoreId) (x : Core) : (s.setCore c x).cur = s.cur := rfl
@[simp] theorem setCore_agenda (s : State) (c : CoreId) (x : Core) : (s.setCore c x).agenda = s.agenda := rfl
@[simp] theorem setCore_seqno (s : State) (c : CoreId) (x : Core) : (s.setCore c x).seqno = s.seqno := rfl
@[simp] theorem setCore_fresh (s : State) (c : CoreId) (x : Core) : (s.setCore c x).fresh = s.fresh := rfl
@[simp] theorem setSlot_meshW (s : State) (c : CoreId) (k : BitVec 4) (y : Slot) : (s.setSlot c k y).meshW = s.meshW := rfl
@[simp] theorem setSlot_meshH (s : State) (c : CoreId) (k : BitVec 4) (y : Slot) : (s.setSlot c k y).meshH = s.meshH := rfl
@[simp] theorem setSlot_slabs (s : State) (c : CoreId) (k : BitVec 4) (y : Slot) : (s.setSlot c k y).slabs = s.slabs := rfl
@[simp] theorem setSlot_clusters (s : State) (c : CoreId) (k : BitVec 4) (y : Slot) : (s.setSlot c k y).clusters = s.clusters := rfl
@[simp] theorem setSlot_dies (s : State) (c : CoreId) (k : BitVec 4) (y : Slot) : (s.setSlot c k y).dies = s.dies := rfl
@[simp] theorem setSlot_ctxs (s : State) (c : CoreId) (k : BitVec 4) (y : Slot) : (s.setSlot c k y).ctxs = s.ctxs := rfl
@[simp] theorem setSlot_spokes (s : State) (c : CoreId) (k : BitVec 4) (y : Slot) : (s.setSlot c k y).spokes = s.spokes := rfl
@[simp] theorem setSlot_queues (s : State) (c : CoreId) (k : BitVec 4) (y : Slot) : (s.setSlot c k y).queues = s.queues := rfl
@[simp] theorem setSlot_saves (s : State) (c : CoreId) (k : BitVec 4) (y : Slot) : (s.setSlot c k y).saves = s.saves := rfl
@[simp] theorem setSlot_root (s : State) (c : CoreId) (k : BitVec 4) (y : Slot) : (s.setSlot c k y).root = s.root := rfl
@[simp] theorem setSlot_notes (s : State) (c : CoreId) (k : BitVec 4) (y : Slot) : (s.setSlot c k y).notes = s.notes := rfl
@[simp] theorem setSlot_gateReport (s : State) (c : CoreId) (k : BitVec 4) (y : Slot) : (s.setSlot c k y).gateReport = s.gateReport := rfl
@[simp] theorem setSlot_readOut (s : State) (c : CoreId) (k : BitVec 4) (y : Slot) : (s.setSlot c k y).readOut = s.readOut := rfl
@[simp] theorem setSlot_readPois (s : State) (c : CoreId) (k : BitVec 4) (y : Slot) : (s.setSlot c k y).readPois = s.readPois := rfl
@[simp] theorem setSlot_hot (s : State) (c : CoreId) (k : BitVec 4) (y : Slot) : (s.setSlot c k y).hot = s.hot := rfl
@[simp] theorem setSlot_scores (s : State) (c : CoreId) (k : BitVec 4) (y : Slot) : (s.setSlot c k y).scores = s.scores := rfl
@[simp] theorem setSlot_decays (s : State) (c : CoreId) (k : BitVec 4) (y : Slot) : (s.setSlot c k y).decays = s.decays := rfl
@[simp] theorem setSlot_rowPages (s : State) (c : CoreId) (k : BitVec 4) (y : Slot) : (s.setSlot c k y).rowPages = s.rowPages := rfl
@[simp] theorem setSlot_noSpare (s : State) (c : CoreId) (k : BitVec 4) (y : Slot) : (s.setSlot c k y).noSpare = s.noSpare := rfl
@[simp] theorem setSlot_spares (s : State) (c : CoreId) (k : BitVec 4) (y : Slot) : (s.setSlot c k y).spares = s.spares := rfl
@[simp] theorem setSlot_wseq (s : State) (c : CoreId) (k : BitVec 4) (y : Slot) : (s.setSlot c k y).wseq = s.wseq := rfl
@[simp] theorem setSlot_scrubs (s : State) (c : CoreId) (k : BitVec 4) (y : Slot) : (s.setSlot c k y).scrubs = s.scrubs := rfl
@[simp] theorem setSlot_mem (s : State) (c : CoreId) (k : BitVec 4) (y : Slot) : (s.setSlot c k y).mem = s.mem := rfl
@[simp] theorem setSlot_poisLines (s : State) (c : CoreId) (k : BitVec 4) (y : Slot) : (s.setSlot c k y).poisLines = s.poisLines := rfl
@[simp] theorem setSlot_poisKeys (s : State) (c : CoreId) (k : BitVec 4) (y : Slot) : (s.setSlot c k y).poisKeys = s.poisKeys := rfl
@[simp] theorem setSlot_transit (s : State) (c : CoreId) (k : BitVec 4) (y : Slot) : (s.setSlot c k y).transit = s.transit := rfl
@[simp] theorem setSlot_peerq (s : State) (c : CoreId) (k : BitVec 4) (y : Slot) : (s.setSlot c k y).peerq = s.peerq := rfl
@[simp] theorem setSlot_msgs (s : State) (c : CoreId) (k : BitVec 4) (y : Slot) : (s.setSlot c k y).msgs = s.msgs := rfl
@[simp] theorem setSlot_cur (s : State) (c : CoreId) (k : BitVec 4) (y : Slot) : (s.setSlot c k y).cur = s.cur := rfl
@[simp] theorem setSlot_agenda (s : State) (c : CoreId) (k : BitVec 4) (y : Slot) : (s.setSlot c k y).agenda = s.agenda := rfl
@[simp] theorem setSlot_seqno (s : State) (c : CoreId) (k : BitVec 4) (y : Slot) : (s.setSlot c k y).seqno = s.seqno := rfl
@[simp] theorem setSlot_fresh (s : State) (c : CoreId) (k : BitVec 4) (y : Slot) : (s.setSlot c k y).fresh = s.fresh := rfl
@[simp] theorem setCs_meshW (s : State) (x : Slot) : (s.setCs x).meshW = s.meshW := rfl
@[simp] theorem setCs_meshH (s : State) (x : Slot) : (s.setCs x).meshH = s.meshH := rfl
@[simp] theorem setCs_slabs (s : State) (x : Slot) : (s.setCs x).slabs = s.slabs := rfl
@[simp] theorem setCs_clusters (s : State) (x : Slot) : (s.setCs x).clusters = s.clusters := rfl
@[simp] theorem setCs_dies (s : State) (x : Slot) : (s.setCs x).dies = s.dies := rfl
@[simp] theorem setCs_ctxs (s : State) (x : Slot) : (s.setCs x).ctxs = s.ctxs := rfl
@[simp] theorem setCs_spokes (s : State) (x : Slot) : (s.setCs x).spokes = s.spokes := rfl
@[simp] theorem setCs_queues (s : State) (x : Slot) : (s.setCs x).queues = s.queues := rfl
@[simp] theorem setCs_saves (s : State) (x : Slot) : (s.setCs x).saves = s.saves := rfl
@[simp] theorem setCs_root (s : State) (x : Slot) : (s.setCs x).root = s.root := rfl
@[simp] theorem setCs_notes (s : State) (x : Slot) : (s.setCs x).notes = s.notes := rfl
@[simp] theorem setCs_gateReport (s : State) (x : Slot) : (s.setCs x).gateReport = s.gateReport := rfl
@[simp] theorem setCs_readOut (s : State) (x : Slot) : (s.setCs x).readOut = s.readOut := rfl
@[simp] theorem setCs_readPois (s : State) (x : Slot) : (s.setCs x).readPois = s.readPois := rfl
@[simp] theorem setCs_hot (s : State) (x : Slot) : (s.setCs x).hot = s.hot := rfl
@[simp] theorem setCs_scores (s : State) (x : Slot) : (s.setCs x).scores = s.scores := rfl
@[simp] theorem setCs_decays (s : State) (x : Slot) : (s.setCs x).decays = s.decays := rfl
@[simp] theorem setCs_rowPages (s : State) (x : Slot) : (s.setCs x).rowPages = s.rowPages := rfl
@[simp] theorem setCs_noSpare (s : State) (x : Slot) : (s.setCs x).noSpare = s.noSpare := rfl
@[simp] theorem setCs_spares (s : State) (x : Slot) : (s.setCs x).spares = s.spares := rfl
@[simp] theorem setCs_wseq (s : State) (x : Slot) : (s.setCs x).wseq = s.wseq := rfl
@[simp] theorem setCs_scrubs (s : State) (x : Slot) : (s.setCs x).scrubs = s.scrubs := rfl
@[simp] theorem setCs_mem (s : State) (x : Slot) : (s.setCs x).mem = s.mem := rfl
@[simp] theorem setCs_poisLines (s : State) (x : Slot) : (s.setCs x).poisLines = s.poisLines := rfl
@[simp] theorem setCs_poisKeys (s : State) (x : Slot) : (s.setCs x).poisKeys = s.poisKeys := rfl
@[simp] theorem setCs_transit (s : State) (x : Slot) : (s.setCs x).transit = s.transit := rfl
@[simp] theorem setCs_peerq (s : State) (x : Slot) : (s.setCs x).peerq = s.peerq := rfl
@[simp] theorem setCs_msgs (s : State) (x : Slot) : (s.setCs x).msgs = s.msgs := rfl
@[simp] theorem setCs_cur (s : State) (x : Slot) : (s.setCs x).cur = s.cur := rfl
@[simp] theorem setCs_agenda (s : State) (x : Slot) : (s.setCs x).agenda = s.agenda := rfl
@[simp] theorem setCs_seqno (s : State) (x : Slot) : (s.setCs x).seqno = s.seqno := rfl
@[simp] theorem setCs_fresh (s : State) (x : Slot) : (s.setCs x).fresh = s.fresh := rfl
@[simp] theorem setBlock_meshW (s : State) (c : CoreId) (n : Nat) (b : Block) : (s.setBlock c n b).meshW = s.meshW := rfl
@[simp] theorem setBlock_meshH (s : State) (c : CoreId) (n : Nat) (b : Block) : (s.setBlock c n b).meshH = s.meshH := rfl
@[simp] theorem setBlock_slabs (s : State) (c : CoreId) (n : Nat) (b : Block) : (s.setBlock c n b).slabs = s.slabs := rfl
@[simp] theorem setBlock_clusters (s : State) (c : CoreId) (n : Nat) (b : Block) : (s.setBlock c n b).clusters = s.clusters := rfl
@[simp] theorem setBlock_dies (s : State) (c : CoreId) (n : Nat) (b : Block) : (s.setBlock c n b).dies = s.dies := rfl
@[simp] theorem setBlock_ctxs (s : State) (c : CoreId) (n : Nat) (b : Block) : (s.setBlock c n b).ctxs = s.ctxs := rfl
@[simp] theorem setBlock_spokes (s : State) (c : CoreId) (n : Nat) (b : Block) : (s.setBlock c n b).spokes = s.spokes := rfl
@[simp] theorem setBlock_queues (s : State) (c : CoreId) (n : Nat) (b : Block) : (s.setBlock c n b).queues = s.queues := rfl
@[simp] theorem setBlock_saves (s : State) (c : CoreId) (n : Nat) (b : Block) : (s.setBlock c n b).saves = s.saves := rfl
@[simp] theorem setBlock_root (s : State) (c : CoreId) (n : Nat) (b : Block) : (s.setBlock c n b).root = s.root := rfl
@[simp] theorem setBlock_notes (s : State) (c : CoreId) (n : Nat) (b : Block) : (s.setBlock c n b).notes = s.notes := rfl
@[simp] theorem setBlock_gateReport (s : State) (c : CoreId) (n : Nat) (b : Block) : (s.setBlock c n b).gateReport = s.gateReport := rfl
@[simp] theorem setBlock_readOut (s : State) (c : CoreId) (n : Nat) (b : Block) : (s.setBlock c n b).readOut = s.readOut := rfl
@[simp] theorem setBlock_readPois (s : State) (c : CoreId) (n : Nat) (b : Block) : (s.setBlock c n b).readPois = s.readPois := rfl
@[simp] theorem setBlock_hot (s : State) (c : CoreId) (n : Nat) (b : Block) : (s.setBlock c n b).hot = s.hot := rfl
@[simp] theorem setBlock_scores (s : State) (c : CoreId) (n : Nat) (b : Block) : (s.setBlock c n b).scores = s.scores := rfl
@[simp] theorem setBlock_decays (s : State) (c : CoreId) (n : Nat) (b : Block) : (s.setBlock c n b).decays = s.decays := rfl
@[simp] theorem setBlock_rowPages (s : State) (c : CoreId) (n : Nat) (b : Block) : (s.setBlock c n b).rowPages = s.rowPages := rfl
@[simp] theorem setBlock_noSpare (s : State) (c : CoreId) (n : Nat) (b : Block) : (s.setBlock c n b).noSpare = s.noSpare := rfl
@[simp] theorem setBlock_spares (s : State) (c : CoreId) (n : Nat) (b : Block) : (s.setBlock c n b).spares = s.spares := rfl
@[simp] theorem setBlock_wseq (s : State) (c : CoreId) (n : Nat) (b : Block) : (s.setBlock c n b).wseq = s.wseq := rfl
@[simp] theorem setBlock_scrubs (s : State) (c : CoreId) (n : Nat) (b : Block) : (s.setBlock c n b).scrubs = s.scrubs := rfl
@[simp] theorem setBlock_mem (s : State) (c : CoreId) (n : Nat) (b : Block) : (s.setBlock c n b).mem = s.mem := rfl
@[simp] theorem setBlock_poisLines (s : State) (c : CoreId) (n : Nat) (b : Block) : (s.setBlock c n b).poisLines = s.poisLines := rfl
@[simp] theorem setBlock_poisKeys (s : State) (c : CoreId) (n : Nat) (b : Block) : (s.setBlock c n b).poisKeys = s.poisKeys := rfl
@[simp] theorem setBlock_transit (s : State) (c : CoreId) (n : Nat) (b : Block) : (s.setBlock c n b).transit = s.transit := rfl
@[simp] theorem setBlock_peerq (s : State) (c : CoreId) (n : Nat) (b : Block) : (s.setBlock c n b).peerq = s.peerq := rfl
@[simp] theorem setBlock_msgs (s : State) (c : CoreId) (n : Nat) (b : Block) : (s.setBlock c n b).msgs = s.msgs := rfl
@[simp] theorem setBlock_cur (s : State) (c : CoreId) (n : Nat) (b : Block) : (s.setBlock c n b).cur = s.cur := rfl
@[simp] theorem setBlock_agenda (s : State) (c : CoreId) (n : Nat) (b : Block) : (s.setBlock c n b).agenda = s.agenda := rfl
@[simp] theorem setBlock_seqno (s : State) (c : CoreId) (n : Nat) (b : Block) : (s.setBlock c n b).seqno = s.seqno := rfl
@[simp] theorem setBlock_fresh (s : State) (c : CoreId) (n : Nat) (b : Block) : (s.setBlock c n b).fresh = s.fresh := rfl
@[simp] theorem setDie_meshW (s : State) (d : BitVec 3) (x : Die) : (s.setDie d x).meshW = s.meshW := rfl
@[simp] theorem setDie_meshH (s : State) (d : BitVec 3) (x : Die) : (s.setDie d x).meshH = s.meshH := rfl
@[simp] theorem setDie_cores (s : State) (d : BitVec 3) (x : Die) : (s.setDie d x).cores = s.cores := rfl
@[simp] theorem setDie_slabs (s : State) (d : BitVec 3) (x : Die) : (s.setDie d x).slabs = s.slabs := rfl
@[simp] theorem setDie_clusters (s : State) (d : BitVec 3) (x : Die) : (s.setDie d x).clusters = s.clusters := rfl
@[simp] theorem setDie_ctxs (s : State) (d : BitVec 3) (x : Die) : (s.setDie d x).ctxs = s.ctxs := rfl
@[simp] theorem setDie_spokes (s : State) (d : BitVec 3) (x : Die) : (s.setDie d x).spokes = s.spokes := rfl
@[simp] theorem setDie_queues (s : State) (d : BitVec 3) (x : Die) : (s.setDie d x).queues = s.queues := rfl
@[simp] theorem setDie_saves (s : State) (d : BitVec 3) (x : Die) : (s.setDie d x).saves = s.saves := rfl
@[simp] theorem setDie_root (s : State) (d : BitVec 3) (x : Die) : (s.setDie d x).root = s.root := rfl
@[simp] theorem setDie_notes (s : State) (d : BitVec 3) (x : Die) : (s.setDie d x).notes = s.notes := rfl
@[simp] theorem setDie_gateReport (s : State) (d : BitVec 3) (x : Die) : (s.setDie d x).gateReport = s.gateReport := rfl
@[simp] theorem setDie_readOut (s : State) (d : BitVec 3) (x : Die) : (s.setDie d x).readOut = s.readOut := rfl
@[simp] theorem setDie_readPois (s : State) (d : BitVec 3) (x : Die) : (s.setDie d x).readPois = s.readPois := rfl
@[simp] theorem setDie_hot (s : State) (d : BitVec 3) (x : Die) : (s.setDie d x).hot = s.hot := rfl
@[simp] theorem setDie_scores (s : State) (d : BitVec 3) (x : Die) : (s.setDie d x).scores = s.scores := rfl
@[simp] theorem setDie_decays (s : State) (d : BitVec 3) (x : Die) : (s.setDie d x).decays = s.decays := rfl
@[simp] theorem setDie_rowPages (s : State) (d : BitVec 3) (x : Die) : (s.setDie d x).rowPages = s.rowPages := rfl
@[simp] theorem setDie_noSpare (s : State) (d : BitVec 3) (x : Die) : (s.setDie d x).noSpare = s.noSpare := rfl
@[simp] theorem setDie_spares (s : State) (d : BitVec 3) (x : Die) : (s.setDie d x).spares = s.spares := rfl
@[simp] theorem setDie_wseq (s : State) (d : BitVec 3) (x : Die) : (s.setDie d x).wseq = s.wseq := rfl
@[simp] theorem setDie_scrubs (s : State) (d : BitVec 3) (x : Die) : (s.setDie d x).scrubs = s.scrubs := rfl
@[simp] theorem setDie_mem (s : State) (d : BitVec 3) (x : Die) : (s.setDie d x).mem = s.mem := rfl
@[simp] theorem setDie_poisLines (s : State) (d : BitVec 3) (x : Die) : (s.setDie d x).poisLines = s.poisLines := rfl
@[simp] theorem setDie_poisKeys (s : State) (d : BitVec 3) (x : Die) : (s.setDie d x).poisKeys = s.poisKeys := rfl
@[simp] theorem setDie_transit (s : State) (d : BitVec 3) (x : Die) : (s.setDie d x).transit = s.transit := rfl
@[simp] theorem setDie_peerq (s : State) (d : BitVec 3) (x : Die) : (s.setDie d x).peerq = s.peerq := rfl
@[simp] theorem setDie_msgs (s : State) (d : BitVec 3) (x : Die) : (s.setDie d x).msgs = s.msgs := rfl
@[simp] theorem setDie_cur (s : State) (d : BitVec 3) (x : Die) : (s.setDie d x).cur = s.cur := rfl
@[simp] theorem setDie_agenda (s : State) (d : BitVec 3) (x : Die) : (s.setDie d x).agenda = s.agenda := rfl
@[simp] theorem setDie_seqno (s : State) (d : BitVec 3) (x : Die) : (s.setDie d x).seqno = s.seqno := rfl
@[simp] theorem setDie_fresh (s : State) (d : BitVec 3) (x : Die) : (s.setDie d x).fresh = s.fresh := rfl
@[simp] theorem setCtx_meshW (s : State) (n : BitVec 6) (x : Ctx) : (s.setCtx n x).meshW = s.meshW := rfl
@[simp] theorem setCtx_meshH (s : State) (n : BitVec 6) (x : Ctx) : (s.setCtx n x).meshH = s.meshH := rfl
@[simp] theorem setCtx_cores (s : State) (n : BitVec 6) (x : Ctx) : (s.setCtx n x).cores = s.cores := rfl
@[simp] theorem setCtx_slabs (s : State) (n : BitVec 6) (x : Ctx) : (s.setCtx n x).slabs = s.slabs := rfl
@[simp] theorem setCtx_clusters (s : State) (n : BitVec 6) (x : Ctx) : (s.setCtx n x).clusters = s.clusters := rfl
@[simp] theorem setCtx_dies (s : State) (n : BitVec 6) (x : Ctx) : (s.setCtx n x).dies = s.dies := rfl
@[simp] theorem setCtx_spokes (s : State) (n : BitVec 6) (x : Ctx) : (s.setCtx n x).spokes = s.spokes := rfl
@[simp] theorem setCtx_queues (s : State) (n : BitVec 6) (x : Ctx) : (s.setCtx n x).queues = s.queues := rfl
@[simp] theorem setCtx_saves (s : State) (n : BitVec 6) (x : Ctx) : (s.setCtx n x).saves = s.saves := rfl
@[simp] theorem setCtx_root (s : State) (n : BitVec 6) (x : Ctx) : (s.setCtx n x).root = s.root := rfl
@[simp] theorem setCtx_notes (s : State) (n : BitVec 6) (x : Ctx) : (s.setCtx n x).notes = s.notes := rfl
@[simp] theorem setCtx_gateReport (s : State) (n : BitVec 6) (x : Ctx) : (s.setCtx n x).gateReport = s.gateReport := rfl
@[simp] theorem setCtx_readOut (s : State) (n : BitVec 6) (x : Ctx) : (s.setCtx n x).readOut = s.readOut := rfl
@[simp] theorem setCtx_readPois (s : State) (n : BitVec 6) (x : Ctx) : (s.setCtx n x).readPois = s.readPois := rfl
@[simp] theorem setCtx_hot (s : State) (n : BitVec 6) (x : Ctx) : (s.setCtx n x).hot = s.hot := rfl
@[simp] theorem setCtx_scores (s : State) (n : BitVec 6) (x : Ctx) : (s.setCtx n x).scores = s.scores := rfl
@[simp] theorem setCtx_decays (s : State) (n : BitVec 6) (x : Ctx) : (s.setCtx n x).decays = s.decays := rfl
@[simp] theorem setCtx_rowPages (s : State) (n : BitVec 6) (x : Ctx) : (s.setCtx n x).rowPages = s.rowPages := rfl
@[simp] theorem setCtx_noSpare (s : State) (n : BitVec 6) (x : Ctx) : (s.setCtx n x).noSpare = s.noSpare := rfl
@[simp] theorem setCtx_spares (s : State) (n : BitVec 6) (x : Ctx) : (s.setCtx n x).spares = s.spares := rfl
@[simp] theorem setCtx_wseq (s : State) (n : BitVec 6) (x : Ctx) : (s.setCtx n x).wseq = s.wseq := rfl
@[simp] theorem setCtx_scrubs (s : State) (n : BitVec 6) (x : Ctx) : (s.setCtx n x).scrubs = s.scrubs := rfl
@[simp] theorem setCtx_mem (s : State) (n : BitVec 6) (x : Ctx) : (s.setCtx n x).mem = s.mem := rfl
@[simp] theorem setCtx_poisLines (s : State) (n : BitVec 6) (x : Ctx) : (s.setCtx n x).poisLines = s.poisLines := rfl
@[simp] theorem setCtx_poisKeys (s : State) (n : BitVec 6) (x : Ctx) : (s.setCtx n x).poisKeys = s.poisKeys := rfl
@[simp] theorem setCtx_transit (s : State) (n : BitVec 6) (x : Ctx) : (s.setCtx n x).transit = s.transit := rfl
@[simp] theorem setCtx_peerq (s : State) (n : BitVec 6) (x : Ctx) : (s.setCtx n x).peerq = s.peerq := rfl
@[simp] theorem setCtx_msgs (s : State) (n : BitVec 6) (x : Ctx) : (s.setCtx n x).msgs = s.msgs := rfl
@[simp] theorem setCtx_cur (s : State) (n : BitVec 6) (x : Ctx) : (s.setCtx n x).cur = s.cur := rfl
@[simp] theorem setCtx_agenda (s : State) (n : BitVec 6) (x : Ctx) : (s.setCtx n x).agenda = s.agenda := rfl
@[simp] theorem setCtx_seqno (s : State) (n : BitVec 6) (x : Ctx) : (s.setCtx n x).seqno = s.seqno := rfl
@[simp] theorem setCtx_fresh (s : State) (n : BitVec 6) (x : Ctx) : (s.setCtx n x).fresh = s.fresh := rfl
@[simp] theorem setSlab_meshW (s : State) (c : CoreId) (x : Slab) : (s.setSlab c x).meshW = s.meshW := rfl
@[simp] theorem setSlab_meshH (s : State) (c : CoreId) (x : Slab) : (s.setSlab c x).meshH = s.meshH := rfl
@[simp] theorem setSlab_cores (s : State) (c : CoreId) (x : Slab) : (s.setSlab c x).cores = s.cores := rfl
@[simp] theorem setSlab_clusters (s : State) (c : CoreId) (x : Slab) : (s.setSlab c x).clusters = s.clusters := rfl
@[simp] theorem setSlab_dies (s : State) (c : CoreId) (x : Slab) : (s.setSlab c x).dies = s.dies := rfl
@[simp] theorem setSlab_ctxs (s : State) (c : CoreId) (x : Slab) : (s.setSlab c x).ctxs = s.ctxs := rfl
@[simp] theorem setSlab_spokes (s : State) (c : CoreId) (x : Slab) : (s.setSlab c x).spokes = s.spokes := rfl
@[simp] theorem setSlab_queues (s : State) (c : CoreId) (x : Slab) : (s.setSlab c x).queues = s.queues := rfl
@[simp] theorem setSlab_saves (s : State) (c : CoreId) (x : Slab) : (s.setSlab c x).saves = s.saves := rfl
@[simp] theorem setSlab_root (s : State) (c : CoreId) (x : Slab) : (s.setSlab c x).root = s.root := rfl
@[simp] theorem setSlab_notes (s : State) (c : CoreId) (x : Slab) : (s.setSlab c x).notes = s.notes := rfl
@[simp] theorem setSlab_gateReport (s : State) (c : CoreId) (x : Slab) : (s.setSlab c x).gateReport = s.gateReport := rfl
@[simp] theorem setSlab_readOut (s : State) (c : CoreId) (x : Slab) : (s.setSlab c x).readOut = s.readOut := rfl
@[simp] theorem setSlab_readPois (s : State) (c : CoreId) (x : Slab) : (s.setSlab c x).readPois = s.readPois := rfl
@[simp] theorem setSlab_hot (s : State) (c : CoreId) (x : Slab) : (s.setSlab c x).hot = s.hot := rfl
@[simp] theorem setSlab_scores (s : State) (c : CoreId) (x : Slab) : (s.setSlab c x).scores = s.scores := rfl
@[simp] theorem setSlab_decays (s : State) (c : CoreId) (x : Slab) : (s.setSlab c x).decays = s.decays := rfl
@[simp] theorem setSlab_rowPages (s : State) (c : CoreId) (x : Slab) : (s.setSlab c x).rowPages = s.rowPages := rfl
@[simp] theorem setSlab_noSpare (s : State) (c : CoreId) (x : Slab) : (s.setSlab c x).noSpare = s.noSpare := rfl
@[simp] theorem setSlab_spares (s : State) (c : CoreId) (x : Slab) : (s.setSlab c x).spares = s.spares := rfl
@[simp] theorem setSlab_wseq (s : State) (c : CoreId) (x : Slab) : (s.setSlab c x).wseq = s.wseq := rfl
@[simp] theorem setSlab_scrubs (s : State) (c : CoreId) (x : Slab) : (s.setSlab c x).scrubs = s.scrubs := rfl
@[simp] theorem setSlab_mem (s : State) (c : CoreId) (x : Slab) : (s.setSlab c x).mem = s.mem := rfl
@[simp] theorem setSlab_poisLines (s : State) (c : CoreId) (x : Slab) : (s.setSlab c x).poisLines = s.poisLines := rfl
@[simp] theorem setSlab_poisKeys (s : State) (c : CoreId) (x : Slab) : (s.setSlab c x).poisKeys = s.poisKeys := rfl
@[simp] theorem setSlab_transit (s : State) (c : CoreId) (x : Slab) : (s.setSlab c x).transit = s.transit := rfl
@[simp] theorem setSlab_peerq (s : State) (c : CoreId) (x : Slab) : (s.setSlab c x).peerq = s.peerq := rfl
@[simp] theorem setSlab_msgs (s : State) (c : CoreId) (x : Slab) : (s.setSlab c x).msgs = s.msgs := rfl
@[simp] theorem setSlab_cur (s : State) (c : CoreId) (x : Slab) : (s.setSlab c x).cur = s.cur := rfl
@[simp] theorem setSlab_agenda (s : State) (c : CoreId) (x : Slab) : (s.setSlab c x).agenda = s.agenda := rfl
@[simp] theorem setSlab_seqno (s : State) (c : CoreId) (x : Slab) : (s.setSlab c x).seqno = s.seqno := rfl
@[simp] theorem setSlab_fresh (s : State) (c : CoreId) (x : Slab) : (s.setSlab c x).fresh = s.fresh := rfl
@[simp] theorem setCluster_meshW (s : State) (n : Nat) (x : Cluster) : (s.setCluster n x).meshW = s.meshW := rfl
@[simp] theorem setCluster_meshH (s : State) (n : Nat) (x : Cluster) : (s.setCluster n x).meshH = s.meshH := rfl
@[simp] theorem setCluster_cores (s : State) (n : Nat) (x : Cluster) : (s.setCluster n x).cores = s.cores := rfl
@[simp] theorem setCluster_slabs (s : State) (n : Nat) (x : Cluster) : (s.setCluster n x).slabs = s.slabs := rfl
@[simp] theorem setCluster_dies (s : State) (n : Nat) (x : Cluster) : (s.setCluster n x).dies = s.dies := rfl
@[simp] theorem setCluster_ctxs (s : State) (n : Nat) (x : Cluster) : (s.setCluster n x).ctxs = s.ctxs := rfl
@[simp] theorem setCluster_spokes (s : State) (n : Nat) (x : Cluster) : (s.setCluster n x).spokes = s.spokes := rfl
@[simp] theorem setCluster_queues (s : State) (n : Nat) (x : Cluster) : (s.setCluster n x).queues = s.queues := rfl
@[simp] theorem setCluster_saves (s : State) (n : Nat) (x : Cluster) : (s.setCluster n x).saves = s.saves := rfl
@[simp] theorem setCluster_root (s : State) (n : Nat) (x : Cluster) : (s.setCluster n x).root = s.root := rfl
@[simp] theorem setCluster_notes (s : State) (n : Nat) (x : Cluster) : (s.setCluster n x).notes = s.notes := rfl
@[simp] theorem setCluster_gateReport (s : State) (n : Nat) (x : Cluster) : (s.setCluster n x).gateReport = s.gateReport := rfl
@[simp] theorem setCluster_readOut (s : State) (n : Nat) (x : Cluster) : (s.setCluster n x).readOut = s.readOut := rfl
@[simp] theorem setCluster_readPois (s : State) (n : Nat) (x : Cluster) : (s.setCluster n x).readPois = s.readPois := rfl
@[simp] theorem setCluster_hot (s : State) (n : Nat) (x : Cluster) : (s.setCluster n x).hot = s.hot := rfl
@[simp] theorem setCluster_scores (s : State) (n : Nat) (x : Cluster) : (s.setCluster n x).scores = s.scores := rfl
@[simp] theorem setCluster_decays (s : State) (n : Nat) (x : Cluster) : (s.setCluster n x).decays = s.decays := rfl
@[simp] theorem setCluster_rowPages (s : State) (n : Nat) (x : Cluster) : (s.setCluster n x).rowPages = s.rowPages := rfl
@[simp] theorem setCluster_noSpare (s : State) (n : Nat) (x : Cluster) : (s.setCluster n x).noSpare = s.noSpare := rfl
@[simp] theorem setCluster_spares (s : State) (n : Nat) (x : Cluster) : (s.setCluster n x).spares = s.spares := rfl
@[simp] theorem setCluster_wseq (s : State) (n : Nat) (x : Cluster) : (s.setCluster n x).wseq = s.wseq := rfl
@[simp] theorem setCluster_scrubs (s : State) (n : Nat) (x : Cluster) : (s.setCluster n x).scrubs = s.scrubs := rfl
@[simp] theorem setCluster_mem (s : State) (n : Nat) (x : Cluster) : (s.setCluster n x).mem = s.mem := rfl
@[simp] theorem setCluster_poisLines (s : State) (n : Nat) (x : Cluster) : (s.setCluster n x).poisLines = s.poisLines := rfl
@[simp] theorem setCluster_poisKeys (s : State) (n : Nat) (x : Cluster) : (s.setCluster n x).poisKeys = s.poisKeys := rfl
@[simp] theorem setCluster_transit (s : State) (n : Nat) (x : Cluster) : (s.setCluster n x).transit = s.transit := rfl
@[simp] theorem setCluster_peerq (s : State) (n : Nat) (x : Cluster) : (s.setCluster n x).peerq = s.peerq := rfl
@[simp] theorem setCluster_msgs (s : State) (n : Nat) (x : Cluster) : (s.setCluster n x).msgs = s.msgs := rfl
@[simp] theorem setCluster_cur (s : State) (n : Nat) (x : Cluster) : (s.setCluster n x).cur = s.cur := rfl
@[simp] theorem setCluster_agenda (s : State) (n : Nat) (x : Cluster) : (s.setCluster n x).agenda = s.agenda := rfl
@[simp] theorem setCluster_seqno (s : State) (n : Nat) (x : Cluster) : (s.setCluster n x).seqno = s.seqno := rfl
@[simp] theorem setCluster_fresh (s : State) (n : Nat) (x : Cluster) : (s.setCluster n x).fresh = s.fresh := rfl
@[simp] theorem setSpoke_meshW (s : State) (n : Nat) (x : Spoke) : (s.setSpoke n x).meshW = s.meshW := rfl
@[simp] theorem setSpoke_meshH (s : State) (n : Nat) (x : Spoke) : (s.setSpoke n x).meshH = s.meshH := rfl
@[simp] theorem setSpoke_cores (s : State) (n : Nat) (x : Spoke) : (s.setSpoke n x).cores = s.cores := rfl
@[simp] theorem setSpoke_slabs (s : State) (n : Nat) (x : Spoke) : (s.setSpoke n x).slabs = s.slabs := rfl
@[simp] theorem setSpoke_clusters (s : State) (n : Nat) (x : Spoke) : (s.setSpoke n x).clusters = s.clusters := rfl
@[simp] theorem setSpoke_dies (s : State) (n : Nat) (x : Spoke) : (s.setSpoke n x).dies = s.dies := rfl
@[simp] theorem setSpoke_ctxs (s : State) (n : Nat) (x : Spoke) : (s.setSpoke n x).ctxs = s.ctxs := rfl
@[simp] theorem setSpoke_queues (s : State) (n : Nat) (x : Spoke) : (s.setSpoke n x).queues = s.queues := rfl
@[simp] theorem setSpoke_saves (s : State) (n : Nat) (x : Spoke) : (s.setSpoke n x).saves = s.saves := rfl
@[simp] theorem setSpoke_root (s : State) (n : Nat) (x : Spoke) : (s.setSpoke n x).root = s.root := rfl
@[simp] theorem setSpoke_notes (s : State) (n : Nat) (x : Spoke) : (s.setSpoke n x).notes = s.notes := rfl
@[simp] theorem setSpoke_gateReport (s : State) (n : Nat) (x : Spoke) : (s.setSpoke n x).gateReport = s.gateReport := rfl
@[simp] theorem setSpoke_readOut (s : State) (n : Nat) (x : Spoke) : (s.setSpoke n x).readOut = s.readOut := rfl
@[simp] theorem setSpoke_readPois (s : State) (n : Nat) (x : Spoke) : (s.setSpoke n x).readPois = s.readPois := rfl
@[simp] theorem setSpoke_hot (s : State) (n : Nat) (x : Spoke) : (s.setSpoke n x).hot = s.hot := rfl
@[simp] theorem setSpoke_scores (s : State) (n : Nat) (x : Spoke) : (s.setSpoke n x).scores = s.scores := rfl
@[simp] theorem setSpoke_decays (s : State) (n : Nat) (x : Spoke) : (s.setSpoke n x).decays = s.decays := rfl
@[simp] theorem setSpoke_rowPages (s : State) (n : Nat) (x : Spoke) : (s.setSpoke n x).rowPages = s.rowPages := rfl
@[simp] theorem setSpoke_noSpare (s : State) (n : Nat) (x : Spoke) : (s.setSpoke n x).noSpare = s.noSpare := rfl
@[simp] theorem setSpoke_spares (s : State) (n : Nat) (x : Spoke) : (s.setSpoke n x).spares = s.spares := rfl
@[simp] theorem setSpoke_wseq (s : State) (n : Nat) (x : Spoke) : (s.setSpoke n x).wseq = s.wseq := rfl
@[simp] theorem setSpoke_scrubs (s : State) (n : Nat) (x : Spoke) : (s.setSpoke n x).scrubs = s.scrubs := rfl
@[simp] theorem setSpoke_mem (s : State) (n : Nat) (x : Spoke) : (s.setSpoke n x).mem = s.mem := rfl
@[simp] theorem setSpoke_poisLines (s : State) (n : Nat) (x : Spoke) : (s.setSpoke n x).poisLines = s.poisLines := rfl
@[simp] theorem setSpoke_poisKeys (s : State) (n : Nat) (x : Spoke) : (s.setSpoke n x).poisKeys = s.poisKeys := rfl
@[simp] theorem setSpoke_transit (s : State) (n : Nat) (x : Spoke) : (s.setSpoke n x).transit = s.transit := rfl
@[simp] theorem setSpoke_peerq (s : State) (n : Nat) (x : Spoke) : (s.setSpoke n x).peerq = s.peerq := rfl
@[simp] theorem setSpoke_msgs (s : State) (n : Nat) (x : Spoke) : (s.setSpoke n x).msgs = s.msgs := rfl
@[simp] theorem setSpoke_cur (s : State) (n : Nat) (x : Spoke) : (s.setSpoke n x).cur = s.cur := rfl
@[simp] theorem setSpoke_agenda (s : State) (n : Nat) (x : Spoke) : (s.setSpoke n x).agenda = s.agenda := rfl
@[simp] theorem setSpoke_seqno (s : State) (n : Nat) (x : Spoke) : (s.setSpoke n x).seqno = s.seqno := rfl
@[simp] theorem setSpoke_fresh (s : State) (n : Nat) (x : Spoke) : (s.setSpoke n x).fresh = s.fresh := rfl
@[simp] theorem tick1_meshW (s : State)  : (s.tick1).meshW = s.meshW := rfl
@[simp] theorem tick1_meshH (s : State)  : (s.tick1).meshH = s.meshH := rfl
@[simp] theorem tick1_cores (s : State)  : (s.tick1).cores = s.cores := rfl
@[simp] theorem tick1_slabs (s : State)  : (s.tick1).slabs = s.slabs := rfl
@[simp] theorem tick1_clusters (s : State)  : (s.tick1).clusters = s.clusters := rfl
@[simp] theorem tick1_dies (s : State)  : (s.tick1).dies = s.dies := rfl
@[simp] theorem tick1_ctxs (s : State)  : (s.tick1).ctxs = s.ctxs := rfl
@[simp] theorem tick1_spokes (s : State)  : (s.tick1).spokes = s.spokes := rfl
@[simp] theorem tick1_queues (s : State)  : (s.tick1).queues = s.queues := rfl
@[simp] theorem tick1_saves (s : State)  : (s.tick1).saves = s.saves := rfl
@[simp] theorem tick1_root (s : State)  : (s.tick1).root = s.root := rfl
@[simp] theorem tick1_notes (s : State)  : (s.tick1).notes = s.notes := rfl
@[simp] theorem tick1_gateReport (s : State)  : (s.tick1).gateReport = s.gateReport := rfl
@[simp] theorem tick1_readOut (s : State)  : (s.tick1).readOut = s.readOut := rfl
@[simp] theorem tick1_readPois (s : State)  : (s.tick1).readPois = s.readPois := rfl
@[simp] theorem tick1_hot (s : State)  : (s.tick1).hot = s.hot := rfl
@[simp] theorem tick1_scores (s : State)  : (s.tick1).scores = s.scores := rfl
@[simp] theorem tick1_decays (s : State)  : (s.tick1).decays = s.decays := rfl
@[simp] theorem tick1_rowPages (s : State)  : (s.tick1).rowPages = s.rowPages := rfl
@[simp] theorem tick1_noSpare (s : State)  : (s.tick1).noSpare = s.noSpare := rfl
@[simp] theorem tick1_spares (s : State)  : (s.tick1).spares = s.spares := rfl
@[simp] theorem tick1_wseq (s : State)  : (s.tick1).wseq = s.wseq := rfl
@[simp] theorem tick1_scrubs (s : State)  : (s.tick1).scrubs = s.scrubs := rfl
@[simp] theorem tick1_mem (s : State)  : (s.tick1).mem = s.mem := rfl
@[simp] theorem tick1_poisLines (s : State)  : (s.tick1).poisLines = s.poisLines := rfl
@[simp] theorem tick1_poisKeys (s : State)  : (s.tick1).poisKeys = s.poisKeys := rfl
@[simp] theorem tick1_transit (s : State)  : (s.tick1).transit = s.transit := rfl
@[simp] theorem tick1_peerq (s : State)  : (s.tick1).peerq = s.peerq := rfl
@[simp] theorem tick1_msgs (s : State)  : (s.tick1).msgs = s.msgs := rfl
@[simp] theorem tick1_cur (s : State)  : (s.tick1).cur = s.cur := rfl
@[simp] theorem tick1_agenda (s : State)  : (s.tick1).agenda = s.agenda := rfl
@[simp] theorem tick1_fresh (s : State)  : (s.tick1).fresh = s.fresh := rfl
@[simp] theorem writeMem_meshW (s : State) (a v n : Nat) : (s.writeMem a v n).meshW = s.meshW := rfl
@[simp] theorem writeMem_meshH (s : State) (a v n : Nat) : (s.writeMem a v n).meshH = s.meshH := rfl
@[simp] theorem writeMem_cores (s : State) (a v n : Nat) : (s.writeMem a v n).cores = s.cores := rfl
@[simp] theorem writeMem_slabs (s : State) (a v n : Nat) : (s.writeMem a v n).slabs = s.slabs := rfl
@[simp] theorem writeMem_clusters (s : State) (a v n : Nat) : (s.writeMem a v n).clusters = s.clusters := rfl
@[simp] theorem writeMem_dies (s : State) (a v n : Nat) : (s.writeMem a v n).dies = s.dies := rfl
@[simp] theorem writeMem_ctxs (s : State) (a v n : Nat) : (s.writeMem a v n).ctxs = s.ctxs := rfl
@[simp] theorem writeMem_spokes (s : State) (a v n : Nat) : (s.writeMem a v n).spokes = s.spokes := rfl
@[simp] theorem writeMem_queues (s : State) (a v n : Nat) : (s.writeMem a v n).queues = s.queues := rfl
@[simp] theorem writeMem_saves (s : State) (a v n : Nat) : (s.writeMem a v n).saves = s.saves := rfl
@[simp] theorem writeMem_root (s : State) (a v n : Nat) : (s.writeMem a v n).root = s.root := rfl
@[simp] theorem writeMem_notes (s : State) (a v n : Nat) : (s.writeMem a v n).notes = s.notes := rfl
@[simp] theorem writeMem_gateReport (s : State) (a v n : Nat) : (s.writeMem a v n).gateReport = s.gateReport := rfl
@[simp] theorem writeMem_readOut (s : State) (a v n : Nat) : (s.writeMem a v n).readOut = s.readOut := rfl
@[simp] theorem writeMem_readPois (s : State) (a v n : Nat) : (s.writeMem a v n).readPois = s.readPois := rfl
@[simp] theorem writeMem_hot (s : State) (a v n : Nat) : (s.writeMem a v n).hot = s.hot := rfl
@[simp] theorem writeMem_scores (s : State) (a v n : Nat) : (s.writeMem a v n).scores = s.scores := rfl
@[simp] theorem writeMem_decays (s : State) (a v n : Nat) : (s.writeMem a v n).decays = s.decays := rfl
@[simp] theorem writeMem_rowPages (s : State) (a v n : Nat) : (s.writeMem a v n).rowPages = s.rowPages := rfl
@[simp] theorem writeMem_noSpare (s : State) (a v n : Nat) : (s.writeMem a v n).noSpare = s.noSpare := rfl
@[simp] theorem writeMem_spares (s : State) (a v n : Nat) : (s.writeMem a v n).spares = s.spares := rfl
@[simp] theorem writeMem_scrubs (s : State) (a v n : Nat) : (s.writeMem a v n).scrubs = s.scrubs := rfl
@[simp] theorem writeMem_poisLines (s : State) (a v n : Nat) : (s.writeMem a v n).poisLines = s.poisLines := rfl
@[simp] theorem writeMem_poisKeys (s : State) (a v n : Nat) : (s.writeMem a v n).poisKeys = s.poisKeys := rfl
@[simp] theorem writeMem_transit (s : State) (a v n : Nat) : (s.writeMem a v n).transit = s.transit := rfl
@[simp] theorem writeMem_peerq (s : State) (a v n : Nat) : (s.writeMem a v n).peerq = s.peerq := rfl
@[simp] theorem writeMem_msgs (s : State) (a v n : Nat) : (s.writeMem a v n).msgs = s.msgs := rfl
@[simp] theorem writeMem_cur (s : State) (a v n : Nat) : (s.writeMem a v n).cur = s.cur := rfl
@[simp] theorem writeMem_agenda (s : State) (a v n : Nat) : (s.writeMem a v n).agenda = s.agenda := rfl
@[simp] theorem writeMem_seqno (s : State) (a v n : Nat) : (s.writeMem a v n).seqno = s.seqno := rfl
@[simp] theorem writeMem_fresh (s : State) (a v n : Nat) : (s.writeMem a v n).fresh = s.fresh := rfl
@[simp] theorem advance_meshW (s : State) (c : CoreId) (k : BitVec 4) (len : Nat) : (s.advance c k len).meshW = s.meshW := rfl
@[simp] theorem advance_meshH (s : State) (c : CoreId) (k : BitVec 4) (len : Nat) : (s.advance c k len).meshH = s.meshH := rfl
@[simp] theorem advance_slabs (s : State) (c : CoreId) (k : BitVec 4) (len : Nat) : (s.advance c k len).slabs = s.slabs := rfl
@[simp] theorem advance_clusters (s : State) (c : CoreId) (k : BitVec 4) (len : Nat) : (s.advance c k len).clusters = s.clusters := rfl
@[simp] theorem advance_dies (s : State) (c : CoreId) (k : BitVec 4) (len : Nat) : (s.advance c k len).dies = s.dies := rfl
@[simp] theorem advance_ctxs (s : State) (c : CoreId) (k : BitVec 4) (len : Nat) : (s.advance c k len).ctxs = s.ctxs := rfl
@[simp] theorem advance_spokes (s : State) (c : CoreId) (k : BitVec 4) (len : Nat) : (s.advance c k len).spokes = s.spokes := rfl
@[simp] theorem advance_queues (s : State) (c : CoreId) (k : BitVec 4) (len : Nat) : (s.advance c k len).queues = s.queues := rfl
@[simp] theorem advance_saves (s : State) (c : CoreId) (k : BitVec 4) (len : Nat) : (s.advance c k len).saves = s.saves := rfl
@[simp] theorem advance_root (s : State) (c : CoreId) (k : BitVec 4) (len : Nat) : (s.advance c k len).root = s.root := rfl
@[simp] theorem advance_notes (s : State) (c : CoreId) (k : BitVec 4) (len : Nat) : (s.advance c k len).notes = s.notes := rfl
@[simp] theorem advance_gateReport (s : State) (c : CoreId) (k : BitVec 4) (len : Nat) : (s.advance c k len).gateReport = s.gateReport := rfl
@[simp] theorem advance_readOut (s : State) (c : CoreId) (k : BitVec 4) (len : Nat) : (s.advance c k len).readOut = s.readOut := rfl
@[simp] theorem advance_readPois (s : State) (c : CoreId) (k : BitVec 4) (len : Nat) : (s.advance c k len).readPois = s.readPois := rfl
@[simp] theorem advance_hot (s : State) (c : CoreId) (k : BitVec 4) (len : Nat) : (s.advance c k len).hot = s.hot := rfl
@[simp] theorem advance_scores (s : State) (c : CoreId) (k : BitVec 4) (len : Nat) : (s.advance c k len).scores = s.scores := rfl
@[simp] theorem advance_decays (s : State) (c : CoreId) (k : BitVec 4) (len : Nat) : (s.advance c k len).decays = s.decays := rfl
@[simp] theorem advance_rowPages (s : State) (c : CoreId) (k : BitVec 4) (len : Nat) : (s.advance c k len).rowPages = s.rowPages := rfl
@[simp] theorem advance_noSpare (s : State) (c : CoreId) (k : BitVec 4) (len : Nat) : (s.advance c k len).noSpare = s.noSpare := rfl
@[simp] theorem advance_spares (s : State) (c : CoreId) (k : BitVec 4) (len : Nat) : (s.advance c k len).spares = s.spares := rfl
@[simp] theorem advance_wseq (s : State) (c : CoreId) (k : BitVec 4) (len : Nat) : (s.advance c k len).wseq = s.wseq := rfl
@[simp] theorem advance_scrubs (s : State) (c : CoreId) (k : BitVec 4) (len : Nat) : (s.advance c k len).scrubs = s.scrubs := rfl
@[simp] theorem advance_mem (s : State) (c : CoreId) (k : BitVec 4) (len : Nat) : (s.advance c k len).mem = s.mem := rfl
@[simp] theorem advance_poisLines (s : State) (c : CoreId) (k : BitVec 4) (len : Nat) : (s.advance c k len).poisLines = s.poisLines := rfl
@[simp] theorem advance_poisKeys (s : State) (c : CoreId) (k : BitVec 4) (len : Nat) : (s.advance c k len).poisKeys = s.poisKeys := rfl
@[simp] theorem advance_transit (s : State) (c : CoreId) (k : BitVec 4) (len : Nat) : (s.advance c k len).transit = s.transit := rfl
@[simp] theorem advance_peerq (s : State) (c : CoreId) (k : BitVec 4) (len : Nat) : (s.advance c k len).peerq = s.peerq := rfl
@[simp] theorem advance_msgs (s : State) (c : CoreId) (k : BitVec 4) (len : Nat) : (s.advance c k len).msgs = s.msgs := rfl
@[simp] theorem advance_cur (s : State) (c : CoreId) (k : BitVec 4) (len : Nat) : (s.advance c k len).cur = s.cur := rfl
@[simp] theorem advance_agenda (s : State) (c : CoreId) (k : BitVec 4) (len : Nat) : (s.advance c k len).agenda = s.agenda := rfl
@[simp] theorem advance_seqno (s : State) (c : CoreId) (k : BitVec 4) (len : Nat) : (s.advance c k len).seqno = s.seqno := rfl
@[simp] theorem advance_fresh (s : State) (c : CoreId) (k : BitVec 4) (len : Nat) : (s.advance c k len).fresh = s.fresh := rfl
@[simp] theorem putP_meshW (s : State) (i : PIx) (b : Bool) (t : Byte) (po : Bool) : (s.putP i b t po).meshW = s.meshW := rfl
@[simp] theorem putP_meshH (s : State) (i : PIx) (b : Bool) (t : Byte) (po : Bool) : (s.putP i b t po).meshH = s.meshH := rfl
@[simp] theorem putP_slabs (s : State) (i : PIx) (b : Bool) (t : Byte) (po : Bool) : (s.putP i b t po).slabs = s.slabs := rfl
@[simp] theorem putP_clusters (s : State) (i : PIx) (b : Bool) (t : Byte) (po : Bool) : (s.putP i b t po).clusters = s.clusters := rfl
@[simp] theorem putP_dies (s : State) (i : PIx) (b : Bool) (t : Byte) (po : Bool) : (s.putP i b t po).dies = s.dies := rfl
@[simp] theorem putP_ctxs (s : State) (i : PIx) (b : Bool) (t : Byte) (po : Bool) : (s.putP i b t po).ctxs = s.ctxs := rfl
@[simp] theorem putP_spokes (s : State) (i : PIx) (b : Bool) (t : Byte) (po : Bool) : (s.putP i b t po).spokes = s.spokes := rfl
@[simp] theorem putP_queues (s : State) (i : PIx) (b : Bool) (t : Byte) (po : Bool) : (s.putP i b t po).queues = s.queues := rfl
@[simp] theorem putP_saves (s : State) (i : PIx) (b : Bool) (t : Byte) (po : Bool) : (s.putP i b t po).saves = s.saves := rfl
@[simp] theorem putP_root (s : State) (i : PIx) (b : Bool) (t : Byte) (po : Bool) : (s.putP i b t po).root = s.root := rfl
@[simp] theorem putP_notes (s : State) (i : PIx) (b : Bool) (t : Byte) (po : Bool) : (s.putP i b t po).notes = s.notes := rfl
@[simp] theorem putP_gateReport (s : State) (i : PIx) (b : Bool) (t : Byte) (po : Bool) : (s.putP i b t po).gateReport = s.gateReport := rfl
@[simp] theorem putP_readOut (s : State) (i : PIx) (b : Bool) (t : Byte) (po : Bool) : (s.putP i b t po).readOut = s.readOut := rfl
@[simp] theorem putP_readPois (s : State) (i : PIx) (b : Bool) (t : Byte) (po : Bool) : (s.putP i b t po).readPois = s.readPois := rfl
@[simp] theorem putP_hot (s : State) (i : PIx) (b : Bool) (t : Byte) (po : Bool) : (s.putP i b t po).hot = s.hot := rfl
@[simp] theorem putP_scores (s : State) (i : PIx) (b : Bool) (t : Byte) (po : Bool) : (s.putP i b t po).scores = s.scores := rfl
@[simp] theorem putP_decays (s : State) (i : PIx) (b : Bool) (t : Byte) (po : Bool) : (s.putP i b t po).decays = s.decays := rfl
@[simp] theorem putP_rowPages (s : State) (i : PIx) (b : Bool) (t : Byte) (po : Bool) : (s.putP i b t po).rowPages = s.rowPages := rfl
@[simp] theorem putP_noSpare (s : State) (i : PIx) (b : Bool) (t : Byte) (po : Bool) : (s.putP i b t po).noSpare = s.noSpare := rfl
@[simp] theorem putP_spares (s : State) (i : PIx) (b : Bool) (t : Byte) (po : Bool) : (s.putP i b t po).spares = s.spares := rfl
@[simp] theorem putP_wseq (s : State) (i : PIx) (b : Bool) (t : Byte) (po : Bool) : (s.putP i b t po).wseq = s.wseq := rfl
@[simp] theorem putP_scrubs (s : State) (i : PIx) (b : Bool) (t : Byte) (po : Bool) : (s.putP i b t po).scrubs = s.scrubs := rfl
@[simp] theorem putP_mem (s : State) (i : PIx) (b : Bool) (t : Byte) (po : Bool) : (s.putP i b t po).mem = s.mem := rfl
@[simp] theorem putP_poisLines (s : State) (i : PIx) (b : Bool) (t : Byte) (po : Bool) : (s.putP i b t po).poisLines = s.poisLines := rfl
@[simp] theorem putP_poisKeys (s : State) (i : PIx) (b : Bool) (t : Byte) (po : Bool) : (s.putP i b t po).poisKeys = s.poisKeys := rfl
@[simp] theorem putP_transit (s : State) (i : PIx) (b : Bool) (t : Byte) (po : Bool) : (s.putP i b t po).transit = s.transit := rfl
@[simp] theorem putP_peerq (s : State) (i : PIx) (b : Bool) (t : Byte) (po : Bool) : (s.putP i b t po).peerq = s.peerq := rfl
@[simp] theorem putP_msgs (s : State) (i : PIx) (b : Bool) (t : Byte) (po : Bool) : (s.putP i b t po).msgs = s.msgs := rfl
@[simp] theorem putP_cur (s : State) (i : PIx) (b : Bool) (t : Byte) (po : Bool) : (s.putP i b t po).cur = s.cur := rfl
@[simp] theorem putP_agenda (s : State) (i : PIx) (b : Bool) (t : Byte) (po : Bool) : (s.putP i b t po).agenda = s.agenda := rfl
@[simp] theorem putP_seqno (s : State) (i : PIx) (b : Bool) (t : Byte) (po : Bool) : (s.putP i b t po).seqno = s.seqno := rfl
@[simp] theorem putP_fresh (s : State) (i : PIx) (b : Bool) (t : Byte) (po : Bool) : (s.putP i b t po).fresh = s.fresh := rfl
@[simp] theorem putV_meshW (s : State) (i : VIx) (v : VWord) (t : Byte) (po : Bool) : (s.putV i v t po).meshW = s.meshW := rfl
@[simp] theorem putV_meshH (s : State) (i : VIx) (v : VWord) (t : Byte) (po : Bool) : (s.putV i v t po).meshH = s.meshH := rfl
@[simp] theorem putV_slabs (s : State) (i : VIx) (v : VWord) (t : Byte) (po : Bool) : (s.putV i v t po).slabs = s.slabs := rfl
@[simp] theorem putV_clusters (s : State) (i : VIx) (v : VWord) (t : Byte) (po : Bool) : (s.putV i v t po).clusters = s.clusters := rfl
@[simp] theorem putV_dies (s : State) (i : VIx) (v : VWord) (t : Byte) (po : Bool) : (s.putV i v t po).dies = s.dies := rfl
@[simp] theorem putV_ctxs (s : State) (i : VIx) (v : VWord) (t : Byte) (po : Bool) : (s.putV i v t po).ctxs = s.ctxs := rfl
@[simp] theorem putV_spokes (s : State) (i : VIx) (v : VWord) (t : Byte) (po : Bool) : (s.putV i v t po).spokes = s.spokes := rfl
@[simp] theorem putV_queues (s : State) (i : VIx) (v : VWord) (t : Byte) (po : Bool) : (s.putV i v t po).queues = s.queues := rfl
@[simp] theorem putV_saves (s : State) (i : VIx) (v : VWord) (t : Byte) (po : Bool) : (s.putV i v t po).saves = s.saves := rfl
@[simp] theorem putV_root (s : State) (i : VIx) (v : VWord) (t : Byte) (po : Bool) : (s.putV i v t po).root = s.root := rfl
@[simp] theorem putV_notes (s : State) (i : VIx) (v : VWord) (t : Byte) (po : Bool) : (s.putV i v t po).notes = s.notes := rfl
@[simp] theorem putV_gateReport (s : State) (i : VIx) (v : VWord) (t : Byte) (po : Bool) : (s.putV i v t po).gateReport = s.gateReport := rfl
@[simp] theorem putV_readOut (s : State) (i : VIx) (v : VWord) (t : Byte) (po : Bool) : (s.putV i v t po).readOut = s.readOut := rfl
@[simp] theorem putV_readPois (s : State) (i : VIx) (v : VWord) (t : Byte) (po : Bool) : (s.putV i v t po).readPois = s.readPois := rfl
@[simp] theorem putV_hot (s : State) (i : VIx) (v : VWord) (t : Byte) (po : Bool) : (s.putV i v t po).hot = s.hot := rfl
@[simp] theorem putV_scores (s : State) (i : VIx) (v : VWord) (t : Byte) (po : Bool) : (s.putV i v t po).scores = s.scores := rfl
@[simp] theorem putV_decays (s : State) (i : VIx) (v : VWord) (t : Byte) (po : Bool) : (s.putV i v t po).decays = s.decays := rfl
@[simp] theorem putV_rowPages (s : State) (i : VIx) (v : VWord) (t : Byte) (po : Bool) : (s.putV i v t po).rowPages = s.rowPages := rfl
@[simp] theorem putV_noSpare (s : State) (i : VIx) (v : VWord) (t : Byte) (po : Bool) : (s.putV i v t po).noSpare = s.noSpare := rfl
@[simp] theorem putV_spares (s : State) (i : VIx) (v : VWord) (t : Byte) (po : Bool) : (s.putV i v t po).spares = s.spares := rfl
@[simp] theorem putV_wseq (s : State) (i : VIx) (v : VWord) (t : Byte) (po : Bool) : (s.putV i v t po).wseq = s.wseq := rfl
@[simp] theorem putV_scrubs (s : State) (i : VIx) (v : VWord) (t : Byte) (po : Bool) : (s.putV i v t po).scrubs = s.scrubs := rfl
@[simp] theorem putV_mem (s : State) (i : VIx) (v : VWord) (t : Byte) (po : Bool) : (s.putV i v t po).mem = s.mem := rfl
@[simp] theorem putV_poisLines (s : State) (i : VIx) (v : VWord) (t : Byte) (po : Bool) : (s.putV i v t po).poisLines = s.poisLines := rfl
@[simp] theorem putV_poisKeys (s : State) (i : VIx) (v : VWord) (t : Byte) (po : Bool) : (s.putV i v t po).poisKeys = s.poisKeys := rfl
@[simp] theorem putV_transit (s : State) (i : VIx) (v : VWord) (t : Byte) (po : Bool) : (s.putV i v t po).transit = s.transit := rfl
@[simp] theorem putV_peerq (s : State) (i : VIx) (v : VWord) (t : Byte) (po : Bool) : (s.putV i v t po).peerq = s.peerq := rfl
@[simp] theorem putV_msgs (s : State) (i : VIx) (v : VWord) (t : Byte) (po : Bool) : (s.putV i v t po).msgs = s.msgs := rfl
@[simp] theorem putV_cur (s : State) (i : VIx) (v : VWord) (t : Byte) (po : Bool) : (s.putV i v t po).cur = s.cur := rfl
@[simp] theorem putV_agenda (s : State) (i : VIx) (v : VWord) (t : Byte) (po : Bool) : (s.putV i v t po).agenda = s.agenda := rfl
@[simp] theorem putV_seqno (s : State) (i : VIx) (v : VWord) (t : Byte) (po : Bool) : (s.putV i v t po).seqno = s.seqno := rfl
@[simp] theorem putV_fresh (s : State) (i : VIx) (v : VWord) (t : Byte) (po : Bool) : (s.putV i v t po).fresh = s.fresh := rfl
@[simp] theorem putM_meshW (s : State) (i : MIx) (v : BitVec 32) (t : Byte) (po : Bool) : (s.putM i v t po).meshW = s.meshW := rfl
@[simp] theorem putM_meshH (s : State) (i : MIx) (v : BitVec 32) (t : Byte) (po : Bool) : (s.putM i v t po).meshH = s.meshH := rfl
@[simp] theorem putM_slabs (s : State) (i : MIx) (v : BitVec 32) (t : Byte) (po : Bool) : (s.putM i v t po).slabs = s.slabs := rfl
@[simp] theorem putM_clusters (s : State) (i : MIx) (v : BitVec 32) (t : Byte) (po : Bool) : (s.putM i v t po).clusters = s.clusters := rfl
@[simp] theorem putM_dies (s : State) (i : MIx) (v : BitVec 32) (t : Byte) (po : Bool) : (s.putM i v t po).dies = s.dies := rfl
@[simp] theorem putM_ctxs (s : State) (i : MIx) (v : BitVec 32) (t : Byte) (po : Bool) : (s.putM i v t po).ctxs = s.ctxs := rfl
@[simp] theorem putM_spokes (s : State) (i : MIx) (v : BitVec 32) (t : Byte) (po : Bool) : (s.putM i v t po).spokes = s.spokes := rfl
@[simp] theorem putM_queues (s : State) (i : MIx) (v : BitVec 32) (t : Byte) (po : Bool) : (s.putM i v t po).queues = s.queues := rfl
@[simp] theorem putM_saves (s : State) (i : MIx) (v : BitVec 32) (t : Byte) (po : Bool) : (s.putM i v t po).saves = s.saves := rfl
@[simp] theorem putM_root (s : State) (i : MIx) (v : BitVec 32) (t : Byte) (po : Bool) : (s.putM i v t po).root = s.root := rfl
@[simp] theorem putM_notes (s : State) (i : MIx) (v : BitVec 32) (t : Byte) (po : Bool) : (s.putM i v t po).notes = s.notes := rfl
@[simp] theorem putM_gateReport (s : State) (i : MIx) (v : BitVec 32) (t : Byte) (po : Bool) : (s.putM i v t po).gateReport = s.gateReport := rfl
@[simp] theorem putM_readOut (s : State) (i : MIx) (v : BitVec 32) (t : Byte) (po : Bool) : (s.putM i v t po).readOut = s.readOut := rfl
@[simp] theorem putM_readPois (s : State) (i : MIx) (v : BitVec 32) (t : Byte) (po : Bool) : (s.putM i v t po).readPois = s.readPois := rfl
@[simp] theorem putM_hot (s : State) (i : MIx) (v : BitVec 32) (t : Byte) (po : Bool) : (s.putM i v t po).hot = s.hot := rfl
@[simp] theorem putM_scores (s : State) (i : MIx) (v : BitVec 32) (t : Byte) (po : Bool) : (s.putM i v t po).scores = s.scores := rfl
@[simp] theorem putM_decays (s : State) (i : MIx) (v : BitVec 32) (t : Byte) (po : Bool) : (s.putM i v t po).decays = s.decays := rfl
@[simp] theorem putM_rowPages (s : State) (i : MIx) (v : BitVec 32) (t : Byte) (po : Bool) : (s.putM i v t po).rowPages = s.rowPages := rfl
@[simp] theorem putM_noSpare (s : State) (i : MIx) (v : BitVec 32) (t : Byte) (po : Bool) : (s.putM i v t po).noSpare = s.noSpare := rfl
@[simp] theorem putM_spares (s : State) (i : MIx) (v : BitVec 32) (t : Byte) (po : Bool) : (s.putM i v t po).spares = s.spares := rfl
@[simp] theorem putM_wseq (s : State) (i : MIx) (v : BitVec 32) (t : Byte) (po : Bool) : (s.putM i v t po).wseq = s.wseq := rfl
@[simp] theorem putM_scrubs (s : State) (i : MIx) (v : BitVec 32) (t : Byte) (po : Bool) : (s.putM i v t po).scrubs = s.scrubs := rfl
@[simp] theorem putM_mem (s : State) (i : MIx) (v : BitVec 32) (t : Byte) (po : Bool) : (s.putM i v t po).mem = s.mem := rfl
@[simp] theorem putM_poisLines (s : State) (i : MIx) (v : BitVec 32) (t : Byte) (po : Bool) : (s.putM i v t po).poisLines = s.poisLines := rfl
@[simp] theorem putM_poisKeys (s : State) (i : MIx) (v : BitVec 32) (t : Byte) (po : Bool) : (s.putM i v t po).poisKeys = s.poisKeys := rfl
@[simp] theorem putM_transit (s : State) (i : MIx) (v : BitVec 32) (t : Byte) (po : Bool) : (s.putM i v t po).transit = s.transit := rfl
@[simp] theorem putM_peerq (s : State) (i : MIx) (v : BitVec 32) (t : Byte) (po : Bool) : (s.putM i v t po).peerq = s.peerq := rfl
@[simp] theorem putM_msgs (s : State) (i : MIx) (v : BitVec 32) (t : Byte) (po : Bool) : (s.putM i v t po).msgs = s.msgs := rfl
@[simp] theorem putM_cur (s : State) (i : MIx) (v : BitVec 32) (t : Byte) (po : Bool) : (s.putM i v t po).cur = s.cur := rfl
@[simp] theorem putM_agenda (s : State) (i : MIx) (v : BitVec 32) (t : Byte) (po : Bool) : (s.putM i v t po).agenda = s.agenda := rfl
@[simp] theorem putM_seqno (s : State) (i : MIx) (v : BitVec 32) (t : Byte) (po : Bool) : (s.putM i v t po).seqno = s.seqno := rfl
@[simp] theorem putM_fresh (s : State) (i : MIx) (v : BitVec 32) (t : Byte) (po : Bool) : (s.putM i v t po).fresh = s.fresh := rfl
@[simp] theorem send_meshW (s : State) (tag : Byte) (words : List MsgWord) : (s.send tag words).meshW = s.meshW := rfl
@[simp] theorem send_meshH (s : State) (tag : Byte) (words : List MsgWord) : (s.send tag words).meshH = s.meshH := rfl
@[simp] theorem send_slabs (s : State) (tag : Byte) (words : List MsgWord) : (s.send tag words).slabs = s.slabs := rfl
@[simp] theorem send_clusters (s : State) (tag : Byte) (words : List MsgWord) : (s.send tag words).clusters = s.clusters := rfl
@[simp] theorem send_dies (s : State) (tag : Byte) (words : List MsgWord) : (s.send tag words).dies = s.dies := rfl
@[simp] theorem send_ctxs (s : State) (tag : Byte) (words : List MsgWord) : (s.send tag words).ctxs = s.ctxs := rfl
@[simp] theorem send_spokes (s : State) (tag : Byte) (words : List MsgWord) : (s.send tag words).spokes = s.spokes := rfl
@[simp] theorem send_queues (s : State) (tag : Byte) (words : List MsgWord) : (s.send tag words).queues = s.queues := rfl
@[simp] theorem send_saves (s : State) (tag : Byte) (words : List MsgWord) : (s.send tag words).saves = s.saves := rfl
@[simp] theorem send_root (s : State) (tag : Byte) (words : List MsgWord) : (s.send tag words).root = s.root := rfl
@[simp] theorem send_notes (s : State) (tag : Byte) (words : List MsgWord) : (s.send tag words).notes = s.notes := rfl
@[simp] theorem send_gateReport (s : State) (tag : Byte) (words : List MsgWord) : (s.send tag words).gateReport = s.gateReport := rfl
@[simp] theorem send_readOut (s : State) (tag : Byte) (words : List MsgWord) : (s.send tag words).readOut = s.readOut := rfl
@[simp] theorem send_readPois (s : State) (tag : Byte) (words : List MsgWord) : (s.send tag words).readPois = s.readPois := rfl
@[simp] theorem send_hot (s : State) (tag : Byte) (words : List MsgWord) : (s.send tag words).hot = s.hot := rfl
@[simp] theorem send_scores (s : State) (tag : Byte) (words : List MsgWord) : (s.send tag words).scores = s.scores := rfl
@[simp] theorem send_decays (s : State) (tag : Byte) (words : List MsgWord) : (s.send tag words).decays = s.decays := rfl
@[simp] theorem send_rowPages (s : State) (tag : Byte) (words : List MsgWord) : (s.send tag words).rowPages = s.rowPages := rfl
@[simp] theorem send_noSpare (s : State) (tag : Byte) (words : List MsgWord) : (s.send tag words).noSpare = s.noSpare := rfl
@[simp] theorem send_spares (s : State) (tag : Byte) (words : List MsgWord) : (s.send tag words).spares = s.spares := rfl
@[simp] theorem send_wseq (s : State) (tag : Byte) (words : List MsgWord) : (s.send tag words).wseq = s.wseq := rfl
@[simp] theorem send_scrubs (s : State) (tag : Byte) (words : List MsgWord) : (s.send tag words).scrubs = s.scrubs := rfl
@[simp] theorem send_mem (s : State) (tag : Byte) (words : List MsgWord) : (s.send tag words).mem = s.mem := rfl
@[simp] theorem send_poisLines (s : State) (tag : Byte) (words : List MsgWord) : (s.send tag words).poisLines = s.poisLines := rfl
@[simp] theorem send_poisKeys (s : State) (tag : Byte) (words : List MsgWord) : (s.send tag words).poisKeys = s.poisKeys := rfl
@[simp] theorem send_transit (s : State) (tag : Byte) (words : List MsgWord) : (s.send tag words).transit = s.transit := rfl
@[simp] theorem send_peerq (s : State) (tag : Byte) (words : List MsgWord) : (s.send tag words).peerq = s.peerq := rfl
@[simp] theorem send_msgs (s : State) (tag : Byte) (words : List MsgWord) : (s.send tag words).msgs = s.msgs := rfl
@[simp] theorem send_cur (s : State) (tag : Byte) (words : List MsgWord) : (s.send tag words).cur = s.cur := rfl
@[simp] theorem send_agenda (s : State) (tag : Byte) (words : List MsgWord) : (s.send tag words).agenda = s.agenda := rfl
@[simp] theorem send_fresh (s : State) (tag : Byte) (words : List MsgWord) : (s.send tag words).fresh = s.fresh := rfl

-- a slot's registers

@[simp] theorem slot_writeP_st (x : Slot) (i : PIx) (r : Reg 1) : (x.writeP i r).st = x.st := by
  unfold Slot.writeP; split <;> rfl
@[simp] theorem slot_writeP_pc (x : Slot) (i : PIx) (r : Reg 1) : (x.writeP i r).pc = x.pc := by
  unfold Slot.writeP; split <;> rfl
@[simp] theorem slot_writeP_g (x : Slot) (i : PIx) (r : Reg 1) : (x.writeP i r).g = x.g := by
  unfold Slot.writeP; split <;> rfl
@[simp] theorem slot_writeP_v (x : Slot) (i : PIx) (r : Reg 1) : (x.writeP i r).v = x.v := by
  unfold Slot.writeP; split <;> rfl
@[simp] theorem slot_writeP_m (x : Slot) (i : PIx) (r : Reg 1) : (x.writeP i r).m = x.m := by
  unfold Slot.writeP; split <;> rfl
@[simp] theorem slot_writeP_ctaint (x : Slot) (i : PIx) (r : Reg 1) : (x.writeP i r).ctaint = x.ctaint := by
  unfold Slot.writeP; split <;> rfl
@[simp] theorem slot_writeP_tags (x : Slot) (i : PIx) (r : Reg 1) : (x.writeP i r).tags = x.tags := by
  unfold Slot.writeP; split <;> rfl
@[simp] theorem slot_writeP_hold (x : Slot) (i : PIx) (r : Reg 1) : (x.writeP i r).hold = x.hold := by
  unfold Slot.writeP; split <;> rfl
@[simp] theorem slot_writeP_loops (x : Slot) (i : PIx) (r : Reg 1) : (x.writeP i r).loops = x.loops := by
  unfold Slot.writeP; split <;> rfl
@[simp] theorem slot_writeP_inbox (x : Slot) (i : PIx) (r : Reg 1) : (x.writeP i r).inbox = x.inbox := by
  unfold Slot.writeP; split <;> rfl
@[simp] theorem slot_writeP_fpcr (x : Slot) (i : PIx) (r : Reg 1) : (x.writeP i r).fpcr = x.fpcr := by
  unfold Slot.writeP; split <;> rfl
@[simp] theorem slot_writeP_vfmt (x : Slot) (i : PIx) (r : Reg 1) : (x.writeP i r).vfmt = x.vfmt := by
  unfold Slot.writeP; split <;> rfl
@[simp] theorem slot_writeP_mdest (x : Slot) (i : PIx) (r : Reg 1) : (x.writeP i r).mdest = x.mdest := by
  unfold Slot.writeP; split <;> rfl
@[simp] theorem slot_writeP_trapvec (x : Slot) (i : PIx) (r : Reg 1) : (x.writeP i r).trapvec = x.trapvec := by
  unfold Slot.writeP; split <;> rfl
@[simp] theorem slot_writeP_trappc (x : Slot) (i : PIx) (r : Reg 1) : (x.writeP i r).trappc = x.trappc := by
  unfold Slot.writeP; split <;> rfl
@[simp] theorem slot_writeP_trapcause (x : Slot) (i : PIx) (r : Reg 1) : (x.writeP i r).trapcause = x.trapcause := by
  unfold Slot.writeP; split <;> rfl
@[simp] theorem slot_writeP_trapaddr (x : Slot) (i : PIx) (r : Reg 1) : (x.writeP i r).trapaddr = x.trapaddr := by
  unfold Slot.writeP; split <;> rfl
@[simp] theorem slot_writeP_trapkeep (x : Slot) (i : PIx) (r : Reg 1) : (x.writeP i r).trapkeep = x.trapkeep := by
  unfold Slot.writeP; split <;> rfl
@[simp] theorem slot_writeP_thr (x : Slot) (i : PIx) (r : Reg 1) : (x.writeP i r).thr = x.thr := by
  unfold Slot.writeP; split <;> rfl
@[simp] theorem slot_writeP_gen (x : Slot) (i : PIx) (r : Reg 1) : (x.writeP i r).gen = x.gen := by
  unfold Slot.writeP; split <;> rfl
@[simp] theorem slot_writeP_caps (x : Slot) (i : PIx) (r : Reg 1) : (x.writeP i r).caps = x.caps := by
  unfold Slot.writeP; split <;> rfl
@[simp] theorem slot_writeP_horizon (x : Slot) (i : PIx) (r : Reg 1) : (x.writeP i r).horizon = x.horizon := by
  unfold Slot.writeP; split <;> rfl
@[simp] theorem slot_writeP_longs (x : Slot) (i : PIx) (r : Reg 1) : (x.writeP i r).longs = x.longs := by
  unfold Slot.writeP; split <;> rfl
@[simp] theorem slot_writeP_busy (x : Slot) (i : PIx) (r : Reg 1) : (x.writeP i r).busy = x.busy := by
  unfold Slot.writeP; split <;> rfl
@[simp] theorem slot_writeP_hubcalls (x : Slot) (i : PIx) (r : Reg 1) : (x.writeP i r).hubcalls = x.hubcalls := by
  unfold Slot.writeP; split <;> rfl
@[simp] theorem slot_writeP_epend (x : Slot) (i : PIx) (r : Reg 1) : (x.writeP i r).epend = x.epend := by
  unfold Slot.writeP; split <;> rfl
@[simp] theorem slot_writeP_ftrap (x : Slot) (i : PIx) (r : Reg 1) : (x.writeP i r).ftrap = x.ftrap := by
  unfold Slot.writeP; split <;> rfl
@[simp] theorem slot_writeP_ranged (x : Slot) (i : PIx) (r : Reg 1) : (x.writeP i r).ranged = x.ranged := by
  unfold Slot.writeP; split <;> rfl
@[simp] theorem slot_writeP_rangedAt (x : Slot) (i : PIx) (r : Reg 1) : (x.writeP i r).rangedAt = x.rangedAt := by
  unfold Slot.writeP; split <;> rfl
@[simp] theorem slot_writeP_mxSince (x : Slot) (i : PIx) (r : Reg 1) : (x.writeP i r).mxSince = x.mxSince := by
  unfold Slot.writeP; split <;> rfl
@[simp] theorem slot_writeP_blk (x : Slot) (i : PIx) (r : Reg 1) : (x.writeP i r).blk = x.blk := by
  unfold Slot.writeP; split <;> rfl
@[simp] theorem slot_writeP_stop (x : Slot) (i : PIx) (r : Reg 1) : (x.writeP i r).stop = x.stop := by
  unfold Slot.writeP; split <;> rfl
@[simp] theorem slot_writeP_stopAt (x : Slot) (i : PIx) (r : Reg 1) : (x.writeP i r).stopAt = x.stopAt := by
  unfold Slot.writeP; split <;> rfl
@[simp] theorem slot_writeP_stopped (x : Slot) (i : PIx) (r : Reg 1) : (x.writeP i r).stopped = x.stopped := by
  unfold Slot.writeP; split <;> rfl
@[simp] theorem slot_writeP_moved (x : Slot) (i : PIx) (r : Reg 1) : (x.writeP i r).moved = x.moved := by
  unfold Slot.writeP; split <;> rfl
@[simp] theorem slot_writeV_st (x : Slot) (i : VIx) (r : Reg 256) : (x.writeV i r).st = x.st := rfl
@[simp] theorem slot_writeV_pc (x : Slot) (i : VIx) (r : Reg 256) : (x.writeV i r).pc = x.pc := rfl
@[simp] theorem slot_writeV_g (x : Slot) (i : VIx) (r : Reg 256) : (x.writeV i r).g = x.g := rfl
@[simp] theorem slot_writeV_p (x : Slot) (i : VIx) (r : Reg 256) : (x.writeV i r).p = x.p := rfl
@[simp] theorem slot_writeV_m (x : Slot) (i : VIx) (r : Reg 256) : (x.writeV i r).m = x.m := rfl
@[simp] theorem slot_writeV_ctaint (x : Slot) (i : VIx) (r : Reg 256) : (x.writeV i r).ctaint = x.ctaint := rfl
@[simp] theorem slot_writeV_tags (x : Slot) (i : VIx) (r : Reg 256) : (x.writeV i r).tags = x.tags := rfl
@[simp] theorem slot_writeV_hold (x : Slot) (i : VIx) (r : Reg 256) : (x.writeV i r).hold = x.hold := rfl
@[simp] theorem slot_writeV_loops (x : Slot) (i : VIx) (r : Reg 256) : (x.writeV i r).loops = x.loops := rfl
@[simp] theorem slot_writeV_inbox (x : Slot) (i : VIx) (r : Reg 256) : (x.writeV i r).inbox = x.inbox := rfl
@[simp] theorem slot_writeV_fpcr (x : Slot) (i : VIx) (r : Reg 256) : (x.writeV i r).fpcr = x.fpcr := rfl
@[simp] theorem slot_writeV_vfmt (x : Slot) (i : VIx) (r : Reg 256) : (x.writeV i r).vfmt = x.vfmt := rfl
@[simp] theorem slot_writeV_mdest (x : Slot) (i : VIx) (r : Reg 256) : (x.writeV i r).mdest = x.mdest := rfl
@[simp] theorem slot_writeV_trapvec (x : Slot) (i : VIx) (r : Reg 256) : (x.writeV i r).trapvec = x.trapvec := rfl
@[simp] theorem slot_writeV_trappc (x : Slot) (i : VIx) (r : Reg 256) : (x.writeV i r).trappc = x.trappc := rfl
@[simp] theorem slot_writeV_trapcause (x : Slot) (i : VIx) (r : Reg 256) : (x.writeV i r).trapcause = x.trapcause := rfl
@[simp] theorem slot_writeV_trapaddr (x : Slot) (i : VIx) (r : Reg 256) : (x.writeV i r).trapaddr = x.trapaddr := rfl
@[simp] theorem slot_writeV_trapkeep (x : Slot) (i : VIx) (r : Reg 256) : (x.writeV i r).trapkeep = x.trapkeep := rfl
@[simp] theorem slot_writeV_thr (x : Slot) (i : VIx) (r : Reg 256) : (x.writeV i r).thr = x.thr := rfl
@[simp] theorem slot_writeV_gen (x : Slot) (i : VIx) (r : Reg 256) : (x.writeV i r).gen = x.gen := rfl
@[simp] theorem slot_writeV_caps (x : Slot) (i : VIx) (r : Reg 256) : (x.writeV i r).caps = x.caps := rfl
@[simp] theorem slot_writeV_horizon (x : Slot) (i : VIx) (r : Reg 256) : (x.writeV i r).horizon = x.horizon := rfl
@[simp] theorem slot_writeV_longs (x : Slot) (i : VIx) (r : Reg 256) : (x.writeV i r).longs = x.longs := rfl
@[simp] theorem slot_writeV_busy (x : Slot) (i : VIx) (r : Reg 256) : (x.writeV i r).busy = x.busy := rfl
@[simp] theorem slot_writeV_hubcalls (x : Slot) (i : VIx) (r : Reg 256) : (x.writeV i r).hubcalls = x.hubcalls := rfl
@[simp] theorem slot_writeV_epend (x : Slot) (i : VIx) (r : Reg 256) : (x.writeV i r).epend = x.epend := rfl
@[simp] theorem slot_writeV_ftrap (x : Slot) (i : VIx) (r : Reg 256) : (x.writeV i r).ftrap = x.ftrap := rfl
@[simp] theorem slot_writeV_ranged (x : Slot) (i : VIx) (r : Reg 256) : (x.writeV i r).ranged = x.ranged := rfl
@[simp] theorem slot_writeV_rangedAt (x : Slot) (i : VIx) (r : Reg 256) : (x.writeV i r).rangedAt = x.rangedAt := rfl
@[simp] theorem slot_writeV_mxSince (x : Slot) (i : VIx) (r : Reg 256) : (x.writeV i r).mxSince = x.mxSince := rfl
@[simp] theorem slot_writeV_blk (x : Slot) (i : VIx) (r : Reg 256) : (x.writeV i r).blk = x.blk := rfl
@[simp] theorem slot_writeV_stop (x : Slot) (i : VIx) (r : Reg 256) : (x.writeV i r).stop = x.stop := rfl
@[simp] theorem slot_writeV_stopAt (x : Slot) (i : VIx) (r : Reg 256) : (x.writeV i r).stopAt = x.stopAt := rfl
@[simp] theorem slot_writeV_stopped (x : Slot) (i : VIx) (r : Reg 256) : (x.writeV i r).stopped = x.stopped := rfl
@[simp] theorem slot_writeV_moved (x : Slot) (i : VIx) (r : Reg 256) : (x.writeV i r).moved = x.moved := rfl
@[simp] theorem slot_writeM_st (x : Slot) (i : MIx) (r : Reg 32) : (x.writeM i r).st = x.st := by
  unfold Slot.writeM; split <;> rfl
@[simp] theorem slot_writeM_pc (x : Slot) (i : MIx) (r : Reg 32) : (x.writeM i r).pc = x.pc := by
  unfold Slot.writeM; split <;> rfl
@[simp] theorem slot_writeM_g (x : Slot) (i : MIx) (r : Reg 32) : (x.writeM i r).g = x.g := by
  unfold Slot.writeM; split <;> rfl
@[simp] theorem slot_writeM_p (x : Slot) (i : MIx) (r : Reg 32) : (x.writeM i r).p = x.p := by
  unfold Slot.writeM; split <;> rfl
@[simp] theorem slot_writeM_v (x : Slot) (i : MIx) (r : Reg 32) : (x.writeM i r).v = x.v := by
  unfold Slot.writeM; split <;> rfl
@[simp] theorem slot_writeM_ctaint (x : Slot) (i : MIx) (r : Reg 32) : (x.writeM i r).ctaint = x.ctaint := by
  unfold Slot.writeM; split <;> rfl
@[simp] theorem slot_writeM_tags (x : Slot) (i : MIx) (r : Reg 32) : (x.writeM i r).tags = x.tags := by
  unfold Slot.writeM; split <;> rfl
@[simp] theorem slot_writeM_hold (x : Slot) (i : MIx) (r : Reg 32) : (x.writeM i r).hold = x.hold := by
  unfold Slot.writeM; split <;> rfl
@[simp] theorem slot_writeM_loops (x : Slot) (i : MIx) (r : Reg 32) : (x.writeM i r).loops = x.loops := by
  unfold Slot.writeM; split <;> rfl
@[simp] theorem slot_writeM_inbox (x : Slot) (i : MIx) (r : Reg 32) : (x.writeM i r).inbox = x.inbox := by
  unfold Slot.writeM; split <;> rfl
@[simp] theorem slot_writeM_fpcr (x : Slot) (i : MIx) (r : Reg 32) : (x.writeM i r).fpcr = x.fpcr := by
  unfold Slot.writeM; split <;> rfl
@[simp] theorem slot_writeM_vfmt (x : Slot) (i : MIx) (r : Reg 32) : (x.writeM i r).vfmt = x.vfmt := by
  unfold Slot.writeM; split <;> rfl
@[simp] theorem slot_writeM_mdest (x : Slot) (i : MIx) (r : Reg 32) : (x.writeM i r).mdest = x.mdest := by
  unfold Slot.writeM; split <;> rfl
@[simp] theorem slot_writeM_trapvec (x : Slot) (i : MIx) (r : Reg 32) : (x.writeM i r).trapvec = x.trapvec := by
  unfold Slot.writeM; split <;> rfl
@[simp] theorem slot_writeM_trappc (x : Slot) (i : MIx) (r : Reg 32) : (x.writeM i r).trappc = x.trappc := by
  unfold Slot.writeM; split <;> rfl
@[simp] theorem slot_writeM_trapcause (x : Slot) (i : MIx) (r : Reg 32) : (x.writeM i r).trapcause = x.trapcause := by
  unfold Slot.writeM; split <;> rfl
@[simp] theorem slot_writeM_trapaddr (x : Slot) (i : MIx) (r : Reg 32) : (x.writeM i r).trapaddr = x.trapaddr := by
  unfold Slot.writeM; split <;> rfl
@[simp] theorem slot_writeM_trapkeep (x : Slot) (i : MIx) (r : Reg 32) : (x.writeM i r).trapkeep = x.trapkeep := by
  unfold Slot.writeM; split <;> rfl
@[simp] theorem slot_writeM_thr (x : Slot) (i : MIx) (r : Reg 32) : (x.writeM i r).thr = x.thr := by
  unfold Slot.writeM; split <;> rfl
@[simp] theorem slot_writeM_gen (x : Slot) (i : MIx) (r : Reg 32) : (x.writeM i r).gen = x.gen := by
  unfold Slot.writeM; split <;> rfl
@[simp] theorem slot_writeM_caps (x : Slot) (i : MIx) (r : Reg 32) : (x.writeM i r).caps = x.caps := by
  unfold Slot.writeM; split <;> rfl
@[simp] theorem slot_writeM_horizon (x : Slot) (i : MIx) (r : Reg 32) : (x.writeM i r).horizon = x.horizon := by
  unfold Slot.writeM; split <;> rfl
@[simp] theorem slot_writeM_longs (x : Slot) (i : MIx) (r : Reg 32) : (x.writeM i r).longs = x.longs := by
  unfold Slot.writeM; split <;> rfl
@[simp] theorem slot_writeM_busy (x : Slot) (i : MIx) (r : Reg 32) : (x.writeM i r).busy = x.busy := by
  unfold Slot.writeM; split <;> rfl
@[simp] theorem slot_writeM_hubcalls (x : Slot) (i : MIx) (r : Reg 32) : (x.writeM i r).hubcalls = x.hubcalls := by
  unfold Slot.writeM; split <;> rfl
@[simp] theorem slot_writeM_epend (x : Slot) (i : MIx) (r : Reg 32) : (x.writeM i r).epend = x.epend := by
  unfold Slot.writeM; split <;> rfl
@[simp] theorem slot_writeM_ftrap (x : Slot) (i : MIx) (r : Reg 32) : (x.writeM i r).ftrap = x.ftrap := by
  unfold Slot.writeM; split <;> rfl
@[simp] theorem slot_writeM_ranged (x : Slot) (i : MIx) (r : Reg 32) : (x.writeM i r).ranged = x.ranged := by
  unfold Slot.writeM; split <;> rfl
@[simp] theorem slot_writeM_rangedAt (x : Slot) (i : MIx) (r : Reg 32) : (x.writeM i r).rangedAt = x.rangedAt := by
  unfold Slot.writeM; split <;> rfl
@[simp] theorem slot_writeM_mxSince (x : Slot) (i : MIx) (r : Reg 32) : (x.writeM i r).mxSince = x.mxSince := by
  unfold Slot.writeM; split <;> rfl
@[simp] theorem slot_writeM_blk (x : Slot) (i : MIx) (r : Reg 32) : (x.writeM i r).blk = x.blk := by
  unfold Slot.writeM; split <;> rfl
@[simp] theorem slot_writeM_stop (x : Slot) (i : MIx) (r : Reg 32) : (x.writeM i r).stop = x.stop := by
  unfold Slot.writeM; split <;> rfl
@[simp] theorem slot_writeM_stopAt (x : Slot) (i : MIx) (r : Reg 32) : (x.writeM i r).stopAt = x.stopAt := by
  unfold Slot.writeM; split <;> rfl
@[simp] theorem slot_writeM_stopped (x : Slot) (i : MIx) (r : Reg 32) : (x.writeM i r).stopped = x.stopped := by
  unfold Slot.writeM; split <;> rfl
@[simp] theorem slot_writeM_moved (x : Slot) (i : MIx) (r : Reg 32) : (x.writeM i r).moved = x.moved := by
  unfold Slot.writeM; split <;> rfl
@[simp] theorem slot_writeG_st (x : Slot) (i : GIx) (r : Reg 64) : (x.writeG i r).st = x.st := by
  unfold Slot.writeG; split <;> rfl
@[simp] theorem slot_writeG_pc (x : Slot) (i : GIx) (r : Reg 64) : (x.writeG i r).pc = x.pc := by
  unfold Slot.writeG; split <;> rfl
@[simp] theorem slot_writeG_p (x : Slot) (i : GIx) (r : Reg 64) : (x.writeG i r).p = x.p := by
  unfold Slot.writeG; split <;> rfl
@[simp] theorem slot_writeG_v (x : Slot) (i : GIx) (r : Reg 64) : (x.writeG i r).v = x.v := by
  unfold Slot.writeG; split <;> rfl
@[simp] theorem slot_writeG_m (x : Slot) (i : GIx) (r : Reg 64) : (x.writeG i r).m = x.m := by
  unfold Slot.writeG; split <;> rfl
@[simp] theorem slot_writeG_ctaint (x : Slot) (i : GIx) (r : Reg 64) : (x.writeG i r).ctaint = x.ctaint := by
  unfold Slot.writeG; split <;> rfl
@[simp] theorem slot_writeG_tags (x : Slot) (i : GIx) (r : Reg 64) : (x.writeG i r).tags = x.tags := by
  unfold Slot.writeG; split <;> rfl
@[simp] theorem slot_writeG_hold (x : Slot) (i : GIx) (r : Reg 64) : (x.writeG i r).hold = x.hold := by
  unfold Slot.writeG; split <;> rfl
@[simp] theorem slot_writeG_loops (x : Slot) (i : GIx) (r : Reg 64) : (x.writeG i r).loops = x.loops := by
  unfold Slot.writeG; split <;> rfl
@[simp] theorem slot_writeG_inbox (x : Slot) (i : GIx) (r : Reg 64) : (x.writeG i r).inbox = x.inbox := by
  unfold Slot.writeG; split <;> rfl
@[simp] theorem slot_writeG_fpcr (x : Slot) (i : GIx) (r : Reg 64) : (x.writeG i r).fpcr = x.fpcr := by
  unfold Slot.writeG; split <;> rfl
@[simp] theorem slot_writeG_vfmt (x : Slot) (i : GIx) (r : Reg 64) : (x.writeG i r).vfmt = x.vfmt := by
  unfold Slot.writeG; split <;> rfl
@[simp] theorem slot_writeG_mdest (x : Slot) (i : GIx) (r : Reg 64) : (x.writeG i r).mdest = x.mdest := by
  unfold Slot.writeG; split <;> rfl
@[simp] theorem slot_writeG_trapvec (x : Slot) (i : GIx) (r : Reg 64) : (x.writeG i r).trapvec = x.trapvec := by
  unfold Slot.writeG; split <;> rfl
@[simp] theorem slot_writeG_trappc (x : Slot) (i : GIx) (r : Reg 64) : (x.writeG i r).trappc = x.trappc := by
  unfold Slot.writeG; split <;> rfl
@[simp] theorem slot_writeG_trapcause (x : Slot) (i : GIx) (r : Reg 64) : (x.writeG i r).trapcause = x.trapcause := by
  unfold Slot.writeG; split <;> rfl
@[simp] theorem slot_writeG_trapaddr (x : Slot) (i : GIx) (r : Reg 64) : (x.writeG i r).trapaddr = x.trapaddr := by
  unfold Slot.writeG; split <;> rfl
@[simp] theorem slot_writeG_trapkeep (x : Slot) (i : GIx) (r : Reg 64) : (x.writeG i r).trapkeep = x.trapkeep := by
  unfold Slot.writeG; split <;> rfl
@[simp] theorem slot_writeG_thr (x : Slot) (i : GIx) (r : Reg 64) : (x.writeG i r).thr = x.thr := by
  unfold Slot.writeG; split <;> rfl
@[simp] theorem slot_writeG_gen (x : Slot) (i : GIx) (r : Reg 64) : (x.writeG i r).gen = x.gen := by
  unfold Slot.writeG; split <;> rfl
@[simp] theorem slot_writeG_caps (x : Slot) (i : GIx) (r : Reg 64) : (x.writeG i r).caps = x.caps := by
  unfold Slot.writeG; split <;> rfl
@[simp] theorem slot_writeG_horizon (x : Slot) (i : GIx) (r : Reg 64) : (x.writeG i r).horizon = x.horizon := by
  unfold Slot.writeG; split <;> rfl
@[simp] theorem slot_writeG_longs (x : Slot) (i : GIx) (r : Reg 64) : (x.writeG i r).longs = x.longs := by
  unfold Slot.writeG; split <;> rfl
@[simp] theorem slot_writeG_busy (x : Slot) (i : GIx) (r : Reg 64) : (x.writeG i r).busy = x.busy := by
  unfold Slot.writeG; split <;> rfl
@[simp] theorem slot_writeG_hubcalls (x : Slot) (i : GIx) (r : Reg 64) : (x.writeG i r).hubcalls = x.hubcalls := by
  unfold Slot.writeG; split <;> rfl
@[simp] theorem slot_writeG_epend (x : Slot) (i : GIx) (r : Reg 64) : (x.writeG i r).epend = x.epend := by
  unfold Slot.writeG; split <;> rfl
@[simp] theorem slot_writeG_ftrap (x : Slot) (i : GIx) (r : Reg 64) : (x.writeG i r).ftrap = x.ftrap := by
  unfold Slot.writeG; split <;> rfl
@[simp] theorem slot_writeG_ranged (x : Slot) (i : GIx) (r : Reg 64) : (x.writeG i r).ranged = x.ranged := by
  unfold Slot.writeG; split <;> rfl
@[simp] theorem slot_writeG_rangedAt (x : Slot) (i : GIx) (r : Reg 64) : (x.writeG i r).rangedAt = x.rangedAt := by
  unfold Slot.writeG; split <;> rfl
@[simp] theorem slot_writeG_mxSince (x : Slot) (i : GIx) (r : Reg 64) : (x.writeG i r).mxSince = x.mxSince := by
  unfold Slot.writeG; split <;> rfl
@[simp] theorem slot_writeG_blk (x : Slot) (i : GIx) (r : Reg 64) : (x.writeG i r).blk = x.blk := by
  unfold Slot.writeG; split <;> rfl
@[simp] theorem slot_writeG_stop (x : Slot) (i : GIx) (r : Reg 64) : (x.writeG i r).stop = x.stop := by
  unfold Slot.writeG; split <;> rfl
@[simp] theorem slot_writeG_stopAt (x : Slot) (i : GIx) (r : Reg 64) : (x.writeG i r).stopAt = x.stopAt := by
  unfold Slot.writeG; split <;> rfl
@[simp] theorem slot_writeG_stopped (x : Slot) (i : GIx) (r : Reg 64) : (x.writeG i r).stopped = x.stopped := by
  unfold Slot.writeG; split <;> rfl
@[simp] theorem slot_writeG_moved (x : Slot) (i : GIx) (r : Reg 64) : (x.writeG i r).moved = x.moved := by
  unfold Slot.writeG; split <;> rfl

/-- A g register that keeps its value reads what was written. -/
theorem readG_writeG (x : Slot) (i : GIx) (r : Reg 64) (h : markless i = false) : (x.writeG i r).readG i = r.val := by
  have h' : i ≠ 0 ∧ i ≠ 60 ∧ i ≠ 62 := by
    simp only [markless, decide_eq_false_iff_not] at h
    exact ⟨fun e => h (.inl e), fun e => h (.inr (.inl e)), fun e => h (.inr (.inr (.inr e)))⟩
  unfold Slot.writeG Slot.readG
  rw [h, if_neg h'.1, if_neg h'.2.1, if_neg h'.2.2]
  simp
@[simp] theorem readP_writeP (x : Slot) (i : PIx) (r : Reg 1) (h : i ≠ 0) : (x.writeP i r).readP i = r.val.getLsbD 0 := by
  unfold Slot.readP Slot.writeP
  rw [if_neg h, if_neg h]
  simp only [Vector.getElem_set_self]
@[simp] theorem readV_writeV (x : Slot) (i : VIx) (r : Reg 256) : (x.writeV i r).readV i = r.val := by
  simp [Slot.writeV, Slot.readV]
@[simp] theorem readM_writeM (x : Slot) (i : MIx) (r : Reg 32) (h : i ≠ 0) : (x.writeM i r).readM i = r.val := by
  unfold Slot.readM Slot.writeM
  rw [if_neg h, if_neg h]
  simp only [Vector.getElem_set_self]
/-- The other g registers keep their values. -/
theorem writeG_other (x : Slot) {i j : GIx} (r : Reg 64) (h : j ≠ i) : (x.writeG i r).g[j.toNat] = x.g[j.toNat] := by
  have h' : i.toNat ≠ j.toNat := fun e => h (BitVec.eq_of_toNat_eq e.symm)
  unfold Slot.writeG
  split <;> simp [Vector.getElem_set_ne, h']

end Sys2Proof.Laws
end

