-- ==== Sys2Proof/Laws/Issue.lean ====
section
/-! SUPPORT. The issue of an instruction (spec/04 R93, R95): what it comes to when nothing stops it, and when its guard is false; what
completing, jumping and trapping do. -/

namespace Sys2Proof.Laws

open Sys2Proof.Machine Sys2Proof.Claims

/-- An instruction that nothing stops has its effect. -/
theorem issue_ready {s : State} {f : Issue} {wait : Bool} {body : Env → Res} (h : Ready s f) (hw : wait = false) :
    s.issue f wait body = .next ((body ⟨taintIn s f, poisIn s f, guardTaint s f⟩).apply f s) := by
  have h7 : (f.sends && s.badDest) = false := by
    cases hu : f.sends
    · rfl
    · simpa using h.sendable hu
  unfold State.issue
  simp only [h.settled, h.guardClean, h.guardOn, h.noWait, hw, h.allowed, h.clean, h7, Bool.not_true,
    Bool.false_eq_true, if_false]
  rfl

/-- While a register that it names is pending, an instruction loses its turn (R8). -/
theorem issue_pending {s : State} {f : Issue} {wait : Bool} {body : Env → Res}
    (h : s.cs.anyPend (.p f.gd.p :: (f.reads ++ f.writes)) = true) : s.issue f wait body = .next s := by
  unfold State.issue
  simp only [h, if_true]

/-- An instruction with a false guard goes on, with its guard's taint in its destinations (R93). -/
theorem issue_skipped {s : State} {f : Issue} {wait : Bool} {body : Env → Res}
    (h : s.cs.anyPend (.p f.gd.p :: (f.reads ++ f.writes)) = false) (hg : (s.cs.mark (.p f.gd.p)).pois = false)
    (hf : s.cs.guard f.gd = false) (hb : f.bad = false) :
    s.issue f wait body =
      .next (s.setCs (Slot.advance
        (if f.ctl then { (s.cs.joinTaint (guardTaint s f) f.writes) with
            ctaint := (s.cs.joinTaint (guardTaint s f) f.writes).ctaint ||| guardTaint s f }
          else s.cs.joinTaint (guardTaint s f) f.writes) f.len)) := by
  unfold State.issue
  simp only [h, hg, hf, hb, Bool.not_false, Bool.false_eq_true, if_false, if_true]
  rfl

@[simp] theorem apply_done (f : Issue) (s t : State) : (Res.done t).apply f s = finish f t := rfl
@[simp] theorem apply_jump (f : Issue) (s t : State) (a : BitVec 48) : (Res.jump t a).apply f s = jumped f t a := rfl
@[simp] theorem apply_lost (f : Issue) (s : State) : Res.lost.apply f s = s := rfl
@[simp] theorem apply_lostWith (f : Issue) (s t : State) : (Res.lostWith t).apply f s = t := rfl
@[simp] theorem apply_trap (f : Issue) (s t : State) (c : Byte) (a : Word) : (Res.trap t c a).apply f s = t.trapHere c a := rfl
@[simp] theorem apply_holds (f : Issue) (s t : State) : (Res.holds t).apply f s = t.took f := rfl
@[simp] theorem apply_ended (f : Issue) (s t : State) : (Res.ended t).apply f s = t.took f := rfl

end Sys2Proof.Laws
end

