-- ==== Sys2Proof/Laws/Memory.lean ====
section
/-! SUPPORT. Memory bytes: a read after a write, and the canonical form, which every write keeps (spec/01 R4, spec/07 R152; log 4: DESIGN CHOICE). -/

namespace Sys2Proof.Laws

open Sys2Proof.Machine

/-- Every listed address is at or above a bound. -/
theorem memory_wf_tail {c : Host.Cell} {m : List Host.Cell} (h : Memory.wf (c :: m) = true) : Memory.wf m = true := by
  obtain ⟨a, b⟩ := c
  cases m with
  | nil => rfl
  | cons d r => obtain ⟨a', b'⟩ := d; simp [Memory.wf] at h; exact h.2

theorem memory_wf_head {a : Nat} {b : Byte} {m : List Host.Cell} (h : Memory.wf ((a, b) :: m) = true) : b ≠ 0 := by
  cases m with
  | nil => simpa [Memory.wf] using h
  | cons d r => obtain ⟨a', b'⟩ := d; simp [Memory.wf] at h; exact h.1.1

theorem memory_wf_above {a : Nat} {b : Byte} {m : List Host.Cell} (h : Memory.wf ((a, b) :: m) = true) :
    ∀ e ∈ m, a < e.1 := by
  induction m generalizing a b with
  | nil => simp
  | cons d r ih =>
    obtain ⟨a', b'⟩ := d
    simp only [Memory.wf, Bool.and_eq_true, decide_eq_true_eq] at h
    intro e he
    rcases List.mem_cons.1 he with rfl | he
    · exact h.1.2
    · exact Nat.lt_trans h.1.2 (ih h.2 e he)

theorem memory_wf_cons {a : Nat} {b : Byte} {m : List Host.Cell} (hb : b ≠ 0) (ha : ∀ e ∈ m, a < e.1)
    (h : Memory.wf m = true) : Memory.wf ((a, b) :: m) = true := by
  cases m with
  | nil => simpa [Memory.wf] using hb
  | cons d r =>
    obtain ⟨a', b'⟩ := d
    simp only [Memory.wf, Bool.and_eq_true, decide_eq_true_eq]
    exact ⟨⟨hb, ha _ (List.mem_cons_self ..)⟩, h⟩

theorem memory_filter_wf (p : Host.Cell → Bool) {m : List Host.Cell} (h : Memory.wf m = true) :
    Memory.wf (m.filter p) = true := by
  induction m with
  | nil => rfl
  | cons c r ih =>
    obtain ⟨a, b⟩ := c
    by_cases hp : p (a, b)
    · rw [List.filter_cons_of_pos hp]
      exact memory_wf_cons (memory_wf_head h) (fun e he => memory_wf_above h e (List.mem_filter.1 he).1) (ih (memory_wf_tail h))
    · rw [List.filter_cons_of_neg hp]; exact ih (memory_wf_tail h)

theorem memory_insert_mem {n : Nat} {v : Byte} {m : List Host.Cell} {e : Host.Cell} :
    e ∈ Memory.insert n v m ↔ e = (n, v) ∨ e ∈ m := by
  induction m with
  | nil => simp [Memory.insert]
  | cons c r ih =>
    obtain ⟨a, b⟩ := c
    simp only [Memory.insert]
    split
    · simp
    · simp [ih, or_left_comm]

theorem memory_insert_wf {n : Nat} {v : Byte} {m : List Host.Cell} (hv : v ≠ 0) (hn : ∀ e ∈ m, e.1 ≠ n)
    (h : Memory.wf m = true) : Memory.wf (Memory.insert n v m) = true := by
  induction m with
  | nil => simpa [Memory.insert, Memory.wf] using hv
  | cons c r ih =>
    obtain ⟨a, b⟩ := c
    simp only [Memory.insert]
    split
    · rename_i hlt
      refine memory_wf_cons hv ?_ h
      intro e he
      rcases List.mem_cons.1 he with rfl | he
      · exact hlt
      · exact Nat.lt_trans hlt (memory_wf_above h e he)
    · rename_i hge
      have hne : a ≠ n := hn (a, b) (List.mem_cons_self ..)
      refine memory_wf_cons (memory_wf_head h) ?_ (ih (fun e he => hn e (List.mem_cons_of_mem _ he)) (memory_wf_tail h))
      intro e he
      rcases memory_insert_mem.1 he with rfl | he
      · omega
      · exact memory_wf_above h e he

/-- A write of a byte keeps the canonical form. -/
theorem memory_write_wf {m : List Host.Cell} (n : Nat) (v : Byte) (h : Memory.wf m = true) :
    Memory.wf (Memory.write m n v) = true := by
  unfold Memory.write
  split
  · exact memory_filter_wf _ h
  · rename_i hv
    refine memory_insert_wf hv ?_ (memory_filter_wf _ h)
    intro e he
    simpa using (List.mem_filter.1 he).2

/-- A write of bytes keeps the canonical form. -/
theorem writeBytes_wf {m : List Host.Cell} (a v n : Nat) (h : Memory.wf m = true) :
    Memory.wf (writeBytes m a v n) = true := by
  induction n generalizing m a v with
  | zero => exact h
  | succ n ih => exact ih _ _ (memory_write_wf a _ h)

theorem writeMem_wf {s : State} (a v n : Nat) (h : Memory.wf s.mem = true) : Memory.wf (s.writeMem a v n).mem = true :=
  writeBytes_wf a v n h

theorem reset_mem_wf : Memory.wf State.reset.mem = true := rfl

theorem memory_read_filter_ne {m : List Host.Cell} {n k : Nat} (h : k ≠ n) :
    Memory.read (m.filter fun e => decide (e.1 ≠ n)) k = Memory.read m k := by
  induction m with
  | nil => rfl
  | cons c r ih =>
    obtain ⟨a, b⟩ := c
    by_cases ha : a = n
    · have hk : ¬ a = k := fun e => h (e ▸ ha)
      rw [List.filter_cons_of_neg (by simp [ha])]
      simp only [Memory.read, if_neg hk, ih]
    · rw [List.filter_cons_of_pos (by simp [ha])]
      simp only [Memory.read, ih]

theorem memory_read_filter_eq {m : List Host.Cell} {n : Nat} :
    Memory.read (m.filter fun e => decide (e.1 ≠ n)) n = 0 := by
  induction m with
  | nil => rfl
  | cons c r ih =>
    obtain ⟨a, b⟩ := c
    by_cases ha : a = n
    · rw [List.filter_cons_of_neg (by simp [ha])]; exact ih
    · rw [List.filter_cons_of_pos (by simp [ha])]; simp only [Memory.read, if_neg ha, ih]

theorem memory_read_insert_eq {m : List Host.Cell} {n : Nat} {v : Byte} (hn : ∀ e ∈ m, e.1 ≠ n) :
    Memory.read (Memory.insert n v m) n = v := by
  induction m with
  | nil => simp [Memory.insert, Memory.read]
  | cons c r ih =>
    obtain ⟨a, b⟩ := c
    simp only [Memory.insert]
    split
    · simp [Memory.read]
    · have hne : a ≠ n := hn (a, b) (List.mem_cons_self ..)
      simp [Memory.read, hne, ih fun e he => hn e (List.mem_cons_of_mem _ he)]

theorem memory_read_insert_ne {m : List Host.Cell} {n k : Nat} {v : Byte} (h : k ≠ n) :
    Memory.read (Memory.insert n v m) k = Memory.read m k := by
  have h' : ¬ n = k := fun e => h e.symm
  induction m with
  | nil => simp [Memory.insert, Memory.read, h']
  | cons c r ih =>
    obtain ⟨a, b⟩ := c
    simp only [Memory.insert]
    split
    · simp [Memory.read, h']
    · simp [Memory.read, ih]

/-- A byte that is written reads back. -/
theorem memory_read_write_eq (m : List Host.Cell) (n : Nat) (v : Byte) : Memory.read (Memory.write m n v) n = v := by
  unfold Memory.write
  split
  · rename_i hv; rw [hv]; exact memory_read_filter_eq
  · exact memory_read_insert_eq fun e he => by simpa using (List.mem_filter.1 he).2

/-- A write of a byte leaves every other byte alone. -/
theorem memory_read_write_ne (m : List Host.Cell) {n k : Nat} (v : Byte) (h : k ≠ n) :
    Memory.read (Memory.write m n v) k = Memory.read m k := by
  unfold Memory.write
  split
  · exact memory_read_filter_ne h
  · simp only [memory_read_insert_ne h]; exact memory_read_filter_ne h

/-- A write of bytes leaves the bytes outside it alone. -/
theorem memory_read_writeBytes_out (m : List Host.Cell) (a v n : Nat) {k : Nat} (h : k < a ∨ a + n ≤ k) :
    Memory.read (writeBytes m a v n) k = Memory.read m k := by
  induction n generalizing m a v with
  | zero => rfl
  | succ n ih =>
    have hk : k ≠ a := by omega
    rw [writeBytes, ih _ _ _ (by omega), memory_read_write_ne _ _ hk]

/-- The bytes of a write read back. -/
theorem memory_read_writeBytes_in (m : List Host.Cell) (a v n : Nat) {i : Nat} (h : i < n) :
    Memory.read (writeBytes m a v n) (a + i) = BitVec.ofNat 8 (v / 256 ^ i) := by
  induction n generalizing m a v i with
  | zero => omega
  | succ n ih =>
    rw [writeBytes]
    cases i with
    | zero =>
      rw [memory_read_writeBytes_out _ _ _ _ (by omega), Nat.add_zero, memory_read_write_eq]; simp
    | succ i =>
      have := ih (Memory.write m a (BitVec.ofNat 8 v)) (a + 1) (v / 256) (i := i) (by omega)
      rw [show a + (i + 1) = a + 1 + i by omega, this, Nat.div_div_eq_div_mul, Nat.pow_succ, Nat.mul_comm 256]

end Sys2Proof.Laws
end

