-- ==== Sys2Proof/Laws/PerInstr.lean ====
section
/-! SUPPORT. The encoding of each instruction, one lemma for each constructor: the fields that the encoder writes are read
back as the instruction itself; a step that is no fetched instruction has no fields (spec/04 R99). -/

set_option Elab.async false

namespace Sys2Proof.Laws

/-- What the encoder writes for the instruction, the row search reads back. -/
def Shape.Statement (i : Instr) : Prop := ∀ f, fieldsOf i = some f → pickRow f = some i

theorem shape_of_pick {i : Instr} (h : (fieldsOf i).bind pickRow = some i) : Shape.Statement i := by
  intro f hf; simpa [hf] using h

theorem shape_of_none {i : Instr} (h : fieldsOf i = none) : Shape.Statement i := by
  intro f hf; simp [h] at hf

theorem Shape.addReg (gd : Guard) (w32 : Bool) (d : GIx) (a : GIx) (b : GIx) : Shape.Statement (.addReg gd w32 d a b) := shape_of_pick (pick_addReg gd w32 d a b)
theorem Shape.addImm (gd : Guard) (w32 : Bool) (d : GIx) (a : GIx) (imm : BitVec 6) : Shape.Statement (.addImm gd w32 d a imm) := shape_of_pick (pick_addImm gd w32 d a imm)
theorem Shape.addLit (gd : Guard) (w32 : Bool) (d : GIx) (a : GIx) (w : Word) : Shape.Statement (.addLit gd w32 d a w) := shape_of_pick (pick_addLit gd w32 d a w)
theorem Shape.subReg (gd : Guard) (w32 : Bool) (d : GIx) (a : GIx) (b : GIx) : Shape.Statement (.subReg gd w32 d a b) := shape_of_pick (pick_subReg gd w32 d a b)
theorem Shape.subImm (gd : Guard) (w32 : Bool) (d : GIx) (a : GIx) (imm : BitVec 6) : Shape.Statement (.subImm gd w32 d a imm) := shape_of_pick (pick_subImm gd w32 d a imm)
theorem Shape.subLit (gd : Guard) (w32 : Bool) (d : GIx) (a : GIx) (w : Word) : Shape.Statement (.subLit gd w32 d a w) := shape_of_pick (pick_subLit gd w32 d a w)
theorem Shape.mulReg (gd : Guard) (w32 : Bool) (d : GIx) (a : GIx) (b : GIx) : Shape.Statement (.mulReg gd w32 d a b) := shape_of_pick (pick_mulReg gd w32 d a b)
theorem Shape.mulImm (gd : Guard) (w32 : Bool) (d : GIx) (a : GIx) (imm : BitVec 6) : Shape.Statement (.mulImm gd w32 d a imm) := shape_of_pick (pick_mulImm gd w32 d a imm)
theorem Shape.mulLit (gd : Guard) (w32 : Bool) (d : GIx) (a : GIx) (w : Word) : Shape.Statement (.mulLit gd w32 d a w) := shape_of_pick (pick_mulLit gd w32 d a w)
theorem Shape.andReg (gd : Guard) (w32 : Bool) (d : GIx) (a : GIx) (b : GIx) : Shape.Statement (.andReg gd w32 d a b) := shape_of_pick (pick_andReg gd w32 d a b)
theorem Shape.andImm (gd : Guard) (w32 : Bool) (d : GIx) (a : GIx) (imm : BitVec 6) : Shape.Statement (.andImm gd w32 d a imm) := shape_of_pick (pick_andImm gd w32 d a imm)
theorem Shape.andLit (gd : Guard) (w32 : Bool) (d : GIx) (a : GIx) (w : Word) : Shape.Statement (.andLit gd w32 d a w) := shape_of_pick (pick_andLit gd w32 d a w)
theorem Shape.orReg (gd : Guard) (w32 : Bool) (d : GIx) (a : GIx) (b : GIx) : Shape.Statement (.orReg gd w32 d a b) := shape_of_pick (pick_orReg gd w32 d a b)
theorem Shape.orImm (gd : Guard) (w32 : Bool) (d : GIx) (a : GIx) (imm : BitVec 6) : Shape.Statement (.orImm gd w32 d a imm) := shape_of_pick (pick_orImm gd w32 d a imm)
theorem Shape.orLit (gd : Guard) (w32 : Bool) (d : GIx) (a : GIx) (w : Word) : Shape.Statement (.orLit gd w32 d a w) := shape_of_pick (pick_orLit gd w32 d a w)
theorem Shape.xorReg (gd : Guard) (w32 : Bool) (d : GIx) (a : GIx) (b : GIx) : Shape.Statement (.xorReg gd w32 d a b) := shape_of_pick (pick_xorReg gd w32 d a b)
theorem Shape.xorImm (gd : Guard) (w32 : Bool) (d : GIx) (a : GIx) (imm : BitVec 6) : Shape.Statement (.xorImm gd w32 d a imm) := shape_of_pick (pick_xorImm gd w32 d a imm)
theorem Shape.xorLit (gd : Guard) (w32 : Bool) (d : GIx) (a : GIx) (w : Word) : Shape.Statement (.xorLit gd w32 d a w) := shape_of_pick (pick_xorLit gd w32 d a w)
theorem Shape.shlReg (gd : Guard) (w32 : Bool) (d : GIx) (a : GIx) (b : GIx) : Shape.Statement (.shlReg gd w32 d a b) := shape_of_pick (pick_shlReg gd w32 d a b)
theorem Shape.shlImm (gd : Guard) (w32 : Bool) (d : GIx) (a : GIx) (imm : BitVec 6) : Shape.Statement (.shlImm gd w32 d a imm) := shape_of_pick (pick_shlImm gd w32 d a imm)
theorem Shape.shlLit (gd : Guard) (w32 : Bool) (d : GIx) (a : GIx) (w : Word) : Shape.Statement (.shlLit gd w32 d a w) := shape_of_pick (pick_shlLit gd w32 d a w)
theorem Shape.shrReg (gd : Guard) (w32 : Bool) (d : GIx) (a : GIx) (b : GIx) : Shape.Statement (.shrReg gd w32 d a b) := shape_of_pick (pick_shrReg gd w32 d a b)
theorem Shape.shrImm (gd : Guard) (w32 : Bool) (d : GIx) (a : GIx) (imm : BitVec 6) : Shape.Statement (.shrImm gd w32 d a imm) := shape_of_pick (pick_shrImm gd w32 d a imm)
theorem Shape.shrLit (gd : Guard) (w32 : Bool) (d : GIx) (a : GIx) (w : Word) : Shape.Statement (.shrLit gd w32 d a w) := shape_of_pick (pick_shrLit gd w32 d a w)
theorem Shape.sraReg (gd : Guard) (w32 : Bool) (d : GIx) (a : GIx) (b : GIx) : Shape.Statement (.sraReg gd w32 d a b) := shape_of_pick (pick_sraReg gd w32 d a b)
theorem Shape.sraImm (gd : Guard) (w32 : Bool) (d : GIx) (a : GIx) (imm : BitVec 6) : Shape.Statement (.sraImm gd w32 d a imm) := shape_of_pick (pick_sraImm gd w32 d a imm)
theorem Shape.sraLit (gd : Guard) (w32 : Bool) (d : GIx) (a : GIx) (w : Word) : Shape.Statement (.sraLit gd w32 d a w) := shape_of_pick (pick_sraLit gd w32 d a w)
theorem Shape.rolReg (gd : Guard) (w32 : Bool) (d : GIx) (a : GIx) (b : GIx) : Shape.Statement (.rolReg gd w32 d a b) := shape_of_pick (pick_rolReg gd w32 d a b)
theorem Shape.rolImm (gd : Guard) (w32 : Bool) (d : GIx) (a : GIx) (imm : BitVec 6) : Shape.Statement (.rolImm gd w32 d a imm) := shape_of_pick (pick_rolImm gd w32 d a imm)
theorem Shape.rolLit (gd : Guard) (w32 : Bool) (d : GIx) (a : GIx) (w : Word) : Shape.Statement (.rolLit gd w32 d a w) := shape_of_pick (pick_rolLit gd w32 d a w)
theorem Shape.minReg (gd : Guard) (w32 : Bool) (d : GIx) (a : GIx) (b : GIx) : Shape.Statement (.minReg gd w32 d a b) := shape_of_pick (pick_minReg gd w32 d a b)
theorem Shape.minImm (gd : Guard) (w32 : Bool) (d : GIx) (a : GIx) (imm : BitVec 6) : Shape.Statement (.minImm gd w32 d a imm) := shape_of_pick (pick_minImm gd w32 d a imm)
theorem Shape.minLit (gd : Guard) (w32 : Bool) (d : GIx) (a : GIx) (w : Word) : Shape.Statement (.minLit gd w32 d a w) := shape_of_pick (pick_minLit gd w32 d a w)
theorem Shape.maxReg (gd : Guard) (w32 : Bool) (d : GIx) (a : GIx) (b : GIx) : Shape.Statement (.maxReg gd w32 d a b) := shape_of_pick (pick_maxReg gd w32 d a b)
theorem Shape.maxImm (gd : Guard) (w32 : Bool) (d : GIx) (a : GIx) (imm : BitVec 6) : Shape.Statement (.maxImm gd w32 d a imm) := shape_of_pick (pick_maxImm gd w32 d a imm)
theorem Shape.maxLit (gd : Guard) (w32 : Bool) (d : GIx) (a : GIx) (w : Word) : Shape.Statement (.maxLit gd w32 d a w) := shape_of_pick (pick_maxLit gd w32 d a w)
theorem Shape.minnReg (gd : Guard) (w32 : Bool) (d : GIx) (a : GIx) (b : GIx) : Shape.Statement (.minnReg gd w32 d a b) := shape_of_pick (pick_minnReg gd w32 d a b)
theorem Shape.minnLit (gd : Guard) (w32 : Bool) (d : GIx) (a : GIx) (w : Word) : Shape.Statement (.minnLit gd w32 d a w) := shape_of_pick (pick_minnLit gd w32 d a w)
theorem Shape.maxnReg (gd : Guard) (w32 : Bool) (d : GIx) (a : GIx) (b : GIx) : Shape.Statement (.maxnReg gd w32 d a b) := shape_of_pick (pick_maxnReg gd w32 d a b)
theorem Shape.maxnLit (gd : Guard) (w32 : Bool) (d : GIx) (a : GIx) (w : Word) : Shape.Statement (.maxnLit gd w32 d a w) := shape_of_pick (pick_maxnLit gd w32 d a w)
theorem Shape.andnReg (gd : Guard) (w32 : Bool) (d : GIx) (a : GIx) (b : GIx) : Shape.Statement (.andnReg gd w32 d a b) := shape_of_pick (pick_andnReg gd w32 d a b)
theorem Shape.andnLit (gd : Guard) (w32 : Bool) (d : GIx) (a : GIx) (w : Word) : Shape.Statement (.andnLit gd w32 d a w) := shape_of_pick (pick_andnLit gd w32 d a w)
theorem Shape.ornReg (gd : Guard) (w32 : Bool) (d : GIx) (a : GIx) (b : GIx) : Shape.Statement (.ornReg gd w32 d a b) := shape_of_pick (pick_ornReg gd w32 d a b)
theorem Shape.ornLit (gd : Guard) (w32 : Bool) (d : GIx) (a : GIx) (w : Word) : Shape.Statement (.ornLit gd w32 d a w) := shape_of_pick (pick_ornLit gd w32 d a w)
theorem Shape.mulh (gd : Guard) (w32 : Bool) (d : GIx) (a : GIx) (b : OpB) : Shape.Statement (.mulh gd w32 d a b) := shape_of_pick (pick_mulh gd w32 d a b)
theorem Shape.mulhn (gd : Guard) (w32 : Bool) (d : GIx) (a : GIx) (b : OpB) : Shape.Statement (.mulhn gd w32 d a b) := shape_of_pick (pick_mulhn gd w32 d a b)
theorem Shape.div (gd : Guard) (w32 : Bool) (d : GIx) (a : GIx) (b : OpB) : Shape.Statement (.div gd w32 d a b) := shape_of_pick (pick_div gd w32 d a b)
theorem Shape.divn (gd : Guard) (w32 : Bool) (d : GIx) (a : GIx) (b : OpB) : Shape.Statement (.divn gd w32 d a b) := shape_of_pick (pick_divn gd w32 d a b)
theorem Shape.rem (gd : Guard) (w32 : Bool) (d : GIx) (a : GIx) (b : OpB) : Shape.Statement (.rem gd w32 d a b) := shape_of_pick (pick_rem gd w32 d a b)
theorem Shape.remn (gd : Guard) (w32 : Bool) (d : GIx) (a : GIx) (b : OpB) : Shape.Statement (.remn gd w32 d a b) := shape_of_pick (pick_remn gd w32 d a b)
theorem Shape.mad (gd : Guard) (w32 : Bool) (d : GIx) (a : GIx) (b : OpB) (c : GIx) : Shape.Statement (.mad gd w32 d a b c) := shape_of_pick (pick_mad gd w32 d a b c)
theorem Shape.clz (gd : Guard) (w32 : Bool) (d : GIx) (a : GIx) : Shape.Statement (.clz gd w32 d a) := shape_of_pick (pick_clz gd w32 d a)
theorem Shape.ctz (gd : Guard) (w32 : Bool) (d : GIx) (a : GIx) : Shape.Statement (.ctz gd w32 d a) := shape_of_pick (pick_ctz gd w32 d a)
theorem Shape.popc (gd : Guard) (w32 : Bool) (d : GIx) (a : GIx) : Shape.Statement (.popc gd w32 d a) := shape_of_pick (pick_popc gd w32 d a)
theorem Shape.brev (gd : Guard) (w32 : Bool) (d : GIx) (a : GIx) : Shape.Statement (.brev gd w32 d a) := shape_of_pick (pick_brev gd w32 d a)
theorem Shape.bswap (gd : Guard) (w32 : Bool) (d : GIx) (a : GIx) : Shape.Statement (.bswap gd w32 d a) := shape_of_pick (pick_bswap gd w32 d a)
theorem Shape.abs (gd : Guard) (w32 : Bool) (d : GIx) (a : GIx) : Shape.Statement (.abs gd w32 d a) := shape_of_pick (pick_abs gd w32 d a)
theorem Shape.bfx (gd : Guard) (w32 : Bool) (d : GIx) (a : GIx) (pos : BitVec 6) (wm : BitVec 6) : Shape.Statement (.bfx gd w32 d a pos wm) := shape_of_pick (pick_bfx gd w32 d a pos wm)
theorem Shape.bfxs (gd : Guard) (w32 : Bool) (d : GIx) (a : GIx) (pos : BitVec 6) (wm : BitVec 6) : Shape.Statement (.bfxs gd w32 d a pos wm) := shape_of_pick (pick_bfxs gd w32 d a pos wm)
theorem Shape.bfi (gd : Guard) (w32 : Bool) (d : GIx) (a : GIx) (pos : BitVec 6) (wm : BitVec 6) : Shape.Statement (.bfi gd w32 d a pos wm) := shape_of_pick (pick_bfi gd w32 d a pos wm)
theorem Shape.sel (gd : Guard) (w32 : Bool) (d : GIx) (q : PIx) (a : GIx) (b : OpB) : Shape.Statement (.sel gd w32 d q a b) := shape_of_pick (pick_sel gd w32 d q a b)
theorem Shape.lea (gd : Guard) (w32 : Bool) (d : GIx) (a : GIx) (b : OpB) (off : BitVec 32) : Shape.Statement (.lea gd w32 d a b off) := shape_of_pick (pick_lea gd w32 d a b off)
theorem Shape.leaPcr (gd : Guard) (w32 : Bool) (d : GIx) (b : OpB) (off : BitVec 32) : Shape.Statement (.leaPcr gd w32 d b off) := shape_of_pick (pick_leaPcr gd w32 d b off)
theorem Shape.cmpSignedReg (gd : Guard) (w32 : Bool) (cc : BitVec 3) (q : PIx) (a : GIx) (b : GIx) : Shape.Statement (.cmpSignedReg gd w32 cc q a b) := shape_of_pick (pick_cmpSignedReg gd w32 cc q a b)
theorem Shape.cmpSignedImm (gd : Guard) (w32 : Bool) (cc : BitVec 3) (q : PIx) (a : GIx) (imm : BitVec 6) : Shape.Statement (.cmpSignedImm gd w32 cc q a imm) := shape_of_pick (pick_cmpSignedImm gd w32 cc q a imm)
theorem Shape.cmpSignedLit (gd : Guard) (w32 : Bool) (cc : BitVec 3) (q : PIx) (a : GIx) (w : Word) : Shape.Statement (.cmpSignedLit gd w32 cc q a w) := shape_of_pick (pick_cmpSignedLit gd w32 cc q a w)
theorem Shape.cmpNaturalReg (gd : Guard) (w32 : Bool) (cc : BitVec 3) (q : PIx) (a : GIx) (b : GIx) : Shape.Statement (.cmpNaturalReg gd w32 cc q a b) := shape_of_pick (pick_cmpNaturalReg gd w32 cc q a b)
theorem Shape.cmpNaturalImm (gd : Guard) (w32 : Bool) (cc : BitVec 3) (q : PIx) (a : GIx) (imm : BitVec 6) : Shape.Statement (.cmpNaturalImm gd w32 cc q a imm) := shape_of_pick (pick_cmpNaturalImm gd w32 cc q a imm)
theorem Shape.cmpNaturalLit (gd : Guard) (w32 : Bool) (cc : BitVec 3) (q : PIx) (a : GIx) (w : Word) : Shape.Statement (.cmpNaturalLit gd w32 cc q a w) := shape_of_pick (pick_cmpNaturalLit gd w32 cc q a w)
theorem Shape.pand (gd : Guard) (w32 : Bool) (d : PIx) (a : PIx) (b : PIx) : Shape.Statement (.pand gd w32 d a b) := shape_of_pick (pick_pand gd w32 d a b)
theorem Shape.por (gd : Guard) (w32 : Bool) (d : PIx) (a : PIx) (b : PIx) : Shape.Statement (.por gd w32 d a b) := shape_of_pick (pick_por gd w32 d a b)
theorem Shape.pxor (gd : Guard) (w32 : Bool) (d : PIx) (a : PIx) (b : PIx) : Shape.Statement (.pxor gd w32 d a b) := shape_of_pick (pick_pxor gd w32 d a b)
theorem Shape.pmov (gd : Guard) (w32 : Bool) (d : PIx) (a : PIx) : Shape.Statement (.pmov gd w32 d a) := shape_of_pick (pick_pmov gd w32 d a)
theorem Shape.bra (gd : Guard) (ob : BitVec 6) (oa : BitVec 6) (od : BitVec 6) : Shape.Statement (.bra gd ob oa od) := shape_of_pick (pick_bra gd ob oa od)
theorem Shape.call (gd : Guard) (ob : BitVec 6) (oa : BitVec 6) (od : BitVec 6) : Shape.Statement (.call gd ob oa od) := shape_of_pick (pick_call gd ob oa od)
theorem Shape.brx (gd : Guard) (a : GIx) : Shape.Statement (.brx gd a) := shape_of_pick (pick_brx gd a)
theorem Shape.callx (gd : Guard) (a : GIx) : Shape.Statement (.callx gd a) := shape_of_pick (pick_callx gd a)
theorem Shape.ret (gd : Guard) : Shape.Statement (.ret gd) := shape_of_pick (pick_ret gd)
theorem Shape.btag (gd : Guard) (tag : Byte) (off : BitVec 32) : Shape.Statement (.btag gd tag off) := shape_of_pick (pick_btag gd tag off)
theorem Shape.loopImm (gd : Guard) (n : BitVec 32) (endo : BitVec 16) : Shape.Statement (.loopImm gd n endo) := shape_of_pick (pick_loopImm gd n endo)
theorem Shape.loopReg (gd : Guard) (a : GIx) (endo : BitVec 16) : Shape.Statement (.loopReg gd a endo) := shape_of_pick (pick_loopReg gd a endo)
theorem Shape.lexit (gd : Guard) : Shape.Statement (.lexit gd) := shape_of_pick (pick_lexit gd)
theorem Shape.tclr (gd : Guard) (dc : BitVec 2) (d : BitVec 6) (mask : Byte) : Shape.Statement (.tclr gd dc d mask) := shape_of_pick (pick_tclr gd dc d mask)
theorem Shape.tdep (gd : Guard) (dc : BitVec 2) (d : BitVec 6) (ac : BitVec 2) (a : BitVec 6) : Shape.Statement (.tdep gd dc d ac a) := shape_of_pick (pick_tdep gd dc d ac a)
theorem Shape.twait (gd : Guard) (mask : Byte) : Shape.Statement (.twait gd mask) := shape_of_pick (pick_twait gd mask)
theorem Shape.tget (gd : Guard) (d : GIx) (ac : BitVec 2) (a : BitVec 6) : Shape.Statement (.tget gd d ac a) := shape_of_pick (pick_tget gd d ac a)
theorem Shape.fadd (gd : Guard) (w32 : Bool) (d : GIx) (a : GIx) (b : GIx) : Shape.Statement (.fadd gd w32 d a b) := shape_of_pick (pick_fadd gd w32 d a b)
theorem Shape.faddLit (gd : Guard) (w32 : Bool) (d : GIx) (a : GIx) (w : Word) : Shape.Statement (.faddLit gd w32 d a w) := shape_of_pick (pick_faddLit gd w32 d a w)
theorem Shape.faddExt (gd : Guard) (ft : BitVec 2) (rmo : BitVec 3) (d : GIx) (a : GIx) (b : OpB) : Shape.Statement (.faddExt gd ft rmo d a b) := shape_of_pick (pick_faddExt gd ft rmo d a b)
theorem Shape.fsub (gd : Guard) (w32 : Bool) (d : GIx) (a : GIx) (b : GIx) : Shape.Statement (.fsub gd w32 d a b) := shape_of_pick (pick_fsub gd w32 d a b)
theorem Shape.fsubLit (gd : Guard) (w32 : Bool) (d : GIx) (a : GIx) (w : Word) : Shape.Statement (.fsubLit gd w32 d a w) := shape_of_pick (pick_fsubLit gd w32 d a w)
theorem Shape.fsubExt (gd : Guard) (ft : BitVec 2) (rmo : BitVec 3) (d : GIx) (a : GIx) (b : OpB) : Shape.Statement (.fsubExt gd ft rmo d a b) := shape_of_pick (pick_fsubExt gd ft rmo d a b)
theorem Shape.fmul (gd : Guard) (w32 : Bool) (d : GIx) (a : GIx) (b : GIx) : Shape.Statement (.fmul gd w32 d a b) := shape_of_pick (pick_fmul gd w32 d a b)
theorem Shape.fmulLit (gd : Guard) (w32 : Bool) (d : GIx) (a : GIx) (w : Word) : Shape.Statement (.fmulLit gd w32 d a w) := shape_of_pick (pick_fmulLit gd w32 d a w)
theorem Shape.fmulExt (gd : Guard) (ft : BitVec 2) (rmo : BitVec 3) (d : GIx) (a : GIx) (b : OpB) : Shape.Statement (.fmulExt gd ft rmo d a b) := shape_of_pick (pick_fmulExt gd ft rmo d a b)
theorem Shape.fdiv (gd : Guard) (w32 : Bool) (d : GIx) (a : GIx) (b : GIx) : Shape.Statement (.fdiv gd w32 d a b) := shape_of_pick (pick_fdiv gd w32 d a b)
theorem Shape.fdivLit (gd : Guard) (w32 : Bool) (d : GIx) (a : GIx) (w : Word) : Shape.Statement (.fdivLit gd w32 d a w) := shape_of_pick (pick_fdivLit gd w32 d a w)
theorem Shape.fdivExt (gd : Guard) (ft : BitVec 2) (rmo : BitVec 3) (d : GIx) (a : GIx) (b : OpB) : Shape.Statement (.fdivExt gd ft rmo d a b) := shape_of_pick (pick_fdivExt gd ft rmo d a b)
theorem Shape.ffma (gd : Guard) (ft : BitVec 2) (rmo : BitVec 3) (d : GIx) (a : GIx) (b : OpB) (c : GIx) : Shape.Statement (.ffma gd ft rmo d a b c) := shape_of_pick (pick_ffma gd ft rmo d a b c)
theorem Shape.fsqrt (gd : Guard) (ft : BitVec 2) (rmo : BitVec 3) (d : GIx) (a : OpB) : Shape.Statement (.fsqrt gd ft rmo d a) := shape_of_pick (pick_fsqrt gd ft rmo d a)
theorem Shape.fmin (gd : Guard) (w32 : Bool) (d : GIx) (a : GIx) (b : GIx) : Shape.Statement (.fmin gd w32 d a b) := shape_of_pick (pick_fmin gd w32 d a b)
theorem Shape.fminLit (gd : Guard) (w32 : Bool) (d : GIx) (a : GIx) (w : Word) : Shape.Statement (.fminLit gd w32 d a w) := shape_of_pick (pick_fminLit gd w32 d a w)
theorem Shape.fminExt (gd : Guard) (ft : BitVec 2) (rmo : BitVec 3) (d : GIx) (a : GIx) (b : OpB) : Shape.Statement (.fminExt gd ft rmo d a b) := shape_of_pick (pick_fminExt gd ft rmo d a b)
theorem Shape.fmax (gd : Guard) (ft : BitVec 2) (rmo : BitVec 3) (d : GIx) (a : GIx) (b : OpB) : Shape.Statement (.fmax gd ft rmo d a b) := shape_of_pick (pick_fmax gd ft rmo d a b)
theorem Shape.fcmp (gd : Guard) (w32 : Bool) (cc : BitVec 3) (q : PIx) (a : GIx) (b : GIx) : Shape.Statement (.fcmp gd w32 cc q a b) := shape_of_pick (pick_fcmp gd w32 cc q a b)
theorem Shape.fcmpLit (gd : Guard) (w32 : Bool) (cc : BitVec 3) (q : PIx) (a : GIx) (w : Word) : Shape.Statement (.fcmpLit gd w32 cc q a w) := shape_of_pick (pick_fcmpLit gd w32 cc q a w)
theorem Shape.fcmpExt (gd : Guard) (ft : BitVec 2) (rmo : BitVec 3) (cc : BitVec 3) (q : PIx) (a : GIx) (b : OpB) : Shape.Statement (.fcmpExt gd ft rmo cc q a b) := shape_of_pick (pick_fcmpExt gd ft rmo cc q a b)
theorem Shape.fcvt (gd : Guard) (rmo : BitVec 3) (dst : BitVec 5) (src : BitVec 5) (d : GIx) (a : GIx) : Shape.Statement (.fcvt gd rmo dst src d a) := shape_of_pick (pick_fcvt gd rmo dst src d a)
theorem Shape.fclass (gd : Guard) (ty : BitVec 5) (d : GIx) (a : GIx) : Shape.Statement (.fclass gd ty d a) := shape_of_pick (pick_fclass gd ty d a)
theorem Shape.rds (gd : Guard) (d : GIx) (h : BitVec 4) (l : BitVec 6) : Shape.Statement (.rds gd d h l) := shape_of_pick (pick_rds gd d h l)
theorem Shape.wrs (gd : Guard) (h : BitVec 4) (l : BitVec 6) (a : GIx) : Shape.Statement (.wrs gd h l a) := shape_of_pick (pick_wrs gd h l a)
theorem Shape.vadd (gd : Guard) (d : VIx) (a : VIx) (b : VIx) : Shape.Statement (.vadd gd d a b) := shape_of_pick (pick_vadd gd d a b)
theorem Shape.vaddExt (gd : Guard) (x : VMask) (rmo : BitVec 3) (d : VIx) (a : VIx) (b : VIx) : Shape.Statement (.vaddExt gd x rmo d a b) := shape_of_pick (pick_vaddExt gd x rmo d a b)
theorem Shape.vsub (gd : Guard) (d : VIx) (a : VIx) (b : VIx) : Shape.Statement (.vsub gd d a b) := shape_of_pick (pick_vsub gd d a b)
theorem Shape.vsubExt (gd : Guard) (x : VMask) (rmo : BitVec 3) (d : VIx) (a : VIx) (b : VIx) : Shape.Statement (.vsubExt gd x rmo d a b) := shape_of_pick (pick_vsubExt gd x rmo d a b)
theorem Shape.vmul (gd : Guard) (d : VIx) (a : VIx) (b : VIx) : Shape.Statement (.vmul gd d a b) := shape_of_pick (pick_vmul gd d a b)
theorem Shape.vmulExt (gd : Guard) (x : VMask) (rmo : BitVec 3) (d : VIx) (a : VIx) (b : VIx) : Shape.Statement (.vmulExt gd x rmo d a b) := shape_of_pick (pick_vmulExt gd x rmo d a b)
theorem Shape.vmin (gd : Guard) (d : VIx) (a : VIx) (b : VIx) : Shape.Statement (.vmin gd d a b) := shape_of_pick (pick_vmin gd d a b)
theorem Shape.vminExt (gd : Guard) (x : VMask) (rmo : BitVec 3) (d : VIx) (a : VIx) (b : VIx) : Shape.Statement (.vminExt gd x rmo d a b) := shape_of_pick (pick_vminExt gd x rmo d a b)
theorem Shape.vmax (gd : Guard) (d : VIx) (a : VIx) (b : VIx) : Shape.Statement (.vmax gd d a b) := shape_of_pick (pick_vmax gd d a b)
theorem Shape.vmaxExt (gd : Guard) (x : VMask) (rmo : BitVec 3) (d : VIx) (a : VIx) (b : VIx) : Shape.Statement (.vmaxExt gd x rmo d a b) := shape_of_pick (pick_vmaxExt gd x rmo d a b)
theorem Shape.vfma (gd : Guard) (x : VMask) (rmo : BitVec 3) (d : VIx) (a : VIx) (b : VIx) (c : VIx) : Shape.Statement (.vfma gd x rmo d a b c) := shape_of_pick (pick_vfma gd x rmo d a b c)
theorem Shape.vabs (gd : Guard) (d : VIx) (a : VIx) : Shape.Statement (.vabs gd d a) := shape_of_pick (pick_vabs gd d a)
theorem Shape.vabsExt (gd : Guard) (x : VMask) (d : VIx) (a : VIx) : Shape.Statement (.vabsExt gd x d a) := shape_of_pick (pick_vabsExt gd x d a)
theorem Shape.vmov (gd : Guard) (d : VIx) (a : VIx) : Shape.Statement (.vmov gd d a) := shape_of_pick (pick_vmov gd d a)
theorem Shape.vmovExt (gd : Guard) (x : VMask) (d : VIx) (a : VIx) : Shape.Statement (.vmovExt gd x d a) := shape_of_pick (pick_vmovExt gd x d a)
theorem Shape.vand (gd : Guard) (d : VIx) (a : VIx) (b : VIx) : Shape.Statement (.vand gd d a b) := shape_of_pick (pick_vand gd d a b)
theorem Shape.vandExt (gd : Guard) (x : VMask) (d : VIx) (a : VIx) (b : VIx) : Shape.Statement (.vandExt gd x d a b) := shape_of_pick (pick_vandExt gd x d a b)
theorem Shape.vor (gd : Guard) (d : VIx) (a : VIx) (b : VIx) : Shape.Statement (.vor gd d a b) := shape_of_pick (pick_vor gd d a b)
theorem Shape.vorExt (gd : Guard) (x : VMask) (d : VIx) (a : VIx) (b : VIx) : Shape.Statement (.vorExt gd x d a b) := shape_of_pick (pick_vorExt gd x d a b)
theorem Shape.vxor (gd : Guard) (d : VIx) (a : VIx) (b : VIx) : Shape.Statement (.vxor gd d a b) := shape_of_pick (pick_vxor gd d a b)
theorem Shape.vxorExt (gd : Guard) (x : VMask) (d : VIx) (a : VIx) (b : VIx) : Shape.Statement (.vxorExt gd x d a b) := shape_of_pick (pick_vxorExt gd x d a b)
theorem Shape.vshlReg (gd : Guard) (d : VIx) (a : VIx) (b : VIx) : Shape.Statement (.vshlReg gd d a b) := shape_of_pick (pick_vshlReg gd d a b)
theorem Shape.vshlImm (gd : Guard) (d : VIx) (a : VIx) (imm : BitVec 6) : Shape.Statement (.vshlImm gd d a imm) := shape_of_pick (pick_vshlImm gd d a imm)
theorem Shape.vshlExt (gd : Guard) (x : VMask) (w32 : Bool) (d : VIx) (a : VIx) (b : BitVec 6) : Shape.Statement (.vshlExt gd x w32 d a b) := shape_of_pick (pick_vshlExt gd x w32 d a b)
theorem Shape.vshrReg (gd : Guard) (d : VIx) (a : VIx) (b : VIx) : Shape.Statement (.vshrReg gd d a b) := shape_of_pick (pick_vshrReg gd d a b)
theorem Shape.vshrImm (gd : Guard) (d : VIx) (a : VIx) (imm : BitVec 6) : Shape.Statement (.vshrImm gd d a imm) := shape_of_pick (pick_vshrImm gd d a imm)
theorem Shape.vshrExt (gd : Guard) (x : VMask) (w32 : Bool) (d : VIx) (a : VIx) (b : BitVec 6) : Shape.Statement (.vshrExt gd x w32 d a b) := shape_of_pick (pick_vshrExt gd x w32 d a b)
theorem Shape.vsraReg (gd : Guard) (d : VIx) (a : VIx) (b : VIx) : Shape.Statement (.vsraReg gd d a b) := shape_of_pick (pick_vsraReg gd d a b)
theorem Shape.vsraImm (gd : Guard) (d : VIx) (a : VIx) (imm : BitVec 6) : Shape.Statement (.vsraImm gd d a imm) := shape_of_pick (pick_vsraImm gd d a imm)
theorem Shape.vsraExt (gd : Guard) (x : VMask) (w32 : Bool) (d : VIx) (a : VIx) (b : BitVec 6) : Shape.Statement (.vsraExt gd x w32 d a b) := shape_of_pick (pick_vsraExt gd x w32 d a b)
theorem Shape.vcmp (gd : Guard) (cc : BitVec 3) (q : MIx) (a : VIx) (b : VIx) : Shape.Statement (.vcmp gd cc q a b) := shape_of_pick (pick_vcmp gd cc q a b)
theorem Shape.vcmpExt (gd : Guard) (x : VMask) (cc : BitVec 3) (q : MIx) (a : VIx) (b : VIx) : Shape.Statement (.vcmpExt gd x cc q a b) := shape_of_pick (pick_vcmpExt gd x cc q a b)
theorem Shape.vsel (gd : Guard) (x : VMask) (d : VIx) (q : MIx) (a : VIx) (b : VIx) : Shape.Statement (.vsel gd x d q a b) := shape_of_pick (pick_vsel gd x d q a b)
theorem Shape.vbcast (gd : Guard) (d : VIx) (a : GIx) : Shape.Statement (.vbcast gd d a) := shape_of_pick (pick_vbcast gd d a)
theorem Shape.vbcastExt (gd : Guard) (x : VMask) (d : VIx) (a : GIx) : Shape.Statement (.vbcastExt gd x d a) := shape_of_pick (pick_vbcastExt gd x d a)
theorem Shape.vins (gd : Guard) (d : VIx) (a : GIx) (lane : BitVec 6) : Shape.Statement (.vins gd d a lane) := shape_of_pick (pick_vins gd d a lane)
theorem Shape.vinsExt (gd : Guard) (d : VIx) (a : GIx) (lane : BitVec 6) : Shape.Statement (.vinsExt gd d a lane) := shape_of_pick (pick_vinsExt gd d a lane)
theorem Shape.vext (gd : Guard) (d : GIx) (a : VIx) (lane : BitVec 6) : Shape.Statement (.vext gd d a lane) := shape_of_pick (pick_vext gd d a lane)
theorem Shape.vextExt (gd : Guard) (d : GIx) (a : VIx) (lane : BitVec 6) : Shape.Statement (.vextExt gd d a lane) := shape_of_pick (pick_vextExt gd d a lane)
theorem Shape.vshuf (gd : Guard) (d : VIx) (a : VIx) (b : VIx) : Shape.Statement (.vshuf gd d a b) := shape_of_pick (pick_vshuf gd d a b)
theorem Shape.vshufExt (gd : Guard) (x : VMask) (d : VIx) (a : VIx) (b : VIx) : Shape.Statement (.vshufExt gd x d a b) := shape_of_pick (pick_vshufExt gd x d a b)
theorem Shape.vslideUp (gd : Guard) (d : VIx) (a : VIx) (n : BitVec 5) : Shape.Statement (.vslideUp gd d a n) := shape_of_pick (pick_vslideUp gd d a n)
theorem Shape.vslideUpExt (gd : Guard) (x : VMask) (d : VIx) (a : VIx) (n : BitVec 5) : Shape.Statement (.vslideUpExt gd x d a n) := shape_of_pick (pick_vslideUpExt gd x d a n)
theorem Shape.vslideDown (gd : Guard) (d : VIx) (a : VIx) (n : BitVec 5) : Shape.Statement (.vslideDown gd d a n) := shape_of_pick (pick_vslideDown gd d a n)
theorem Shape.vslideDownExt (gd : Guard) (x : VMask) (d : VIx) (a : VIx) (n : BitVec 5) : Shape.Statement (.vslideDownExt gd x d a n) := shape_of_pick (pick_vslideDownExt gd x d a n)
theorem Shape.vredadd (gd : Guard) (d : GIx) (a : VIx) : Shape.Statement (.vredadd gd d a) := shape_of_pick (pick_vredadd gd d a)
theorem Shape.vredaddExt (gd : Guard) (vm : MIx) (rmo : BitVec 3) (d : GIx) (a : VIx) : Shape.Statement (.vredaddExt gd vm rmo d a) := shape_of_pick (pick_vredaddExt gd vm rmo d a)
theorem Shape.vredmin (gd : Guard) (d : GIx) (a : VIx) : Shape.Statement (.vredmin gd d a) := shape_of_pick (pick_vredmin gd d a)
theorem Shape.vredminExt (gd : Guard) (vm : MIx) (rmo : BitVec 3) (d : GIx) (a : VIx) : Shape.Statement (.vredminExt gd vm rmo d a) := shape_of_pick (pick_vredminExt gd vm rmo d a)
theorem Shape.vredmax (gd : Guard) (d : GIx) (a : VIx) : Shape.Statement (.vredmax gd d a) := shape_of_pick (pick_vredmax gd d a)
theorem Shape.vredmaxExt (gd : Guard) (vm : MIx) (rmo : BitVec 3) (d : GIx) (a : VIx) : Shape.Statement (.vredmaxExt gd vm rmo d a) := shape_of_pick (pick_vredmaxExt gd vm rmo d a)
theorem Shape.vdot (gd : Guard) (x : VMask) (rmo : BitVec 3) (d : VIx) (a : VIx) (b : VIx) : Shape.Statement (.vdot gd x rmo d a b) := shape_of_pick (pick_vdot gd x rmo d a b)
theorem Shape.vsfu (gd : Guard) (x : VMask) (fn : BitVec 4) (d : VIx) (a : VIx) : Shape.Statement (.vsfu gd x fn d a) := shape_of_pick (pick_vsfu gd x fn d a)
theorem Shape.vcvt (gd : Guard) (x : VMask) (rmo : BitVec 3) (part : BitVec 4) (dst : BitVec 5) (src : BitVec 5) (d : VIx) (a : VIx) : Shape.Statement (.vcvt gd x rmo part dst src d a) := shape_of_pick (pick_vcvt gd x rmo part dst src d a)
theorem Shape.vqnt (gd : Guard) (rmo : BitVec 3) (fmt : BitVec 4) (d : VIx) (a : VIx) (c : GIx) : Shape.Statement (.vqnt gd rmo fmt d a c) := shape_of_pick (pick_vqnt gd rmo fmt d a c)
theorem Shape.vdqnt (gd : Guard) (fmt : BitVec 4) (d : VIx) (a : VIx) (c : GIx) : Shape.Statement (.vdqnt gd fmt d a c) := shape_of_pick (pick_vdqnt gd fmt d a c)
theorem Shape.vhad (gd : Guard) (h32 : Bool) (d : VIx) (a : VIx) : Shape.Statement (.vhad gd h32 d a) := shape_of_pick (pick_vhad gd h32 d a)
theorem Shape.vbaddq (gd : Guard) (rmo : BitVec 3) (fmt : BitVec 4) (d : VIx) (a : VIx) (b : VIx) (c : VIx) : Shape.Statement (.vbaddq gd rmo fmt d a b c) := shape_of_pick (pick_vbaddq gd rmo fmt d a b c)
theorem Shape.mand (gd : Guard) (d : MIx) (a : MIx) (b : MIx) : Shape.Statement (.mand gd d a b) := shape_of_pick (pick_mand gd d a b)
theorem Shape.mor (gd : Guard) (d : MIx) (a : MIx) (b : MIx) : Shape.Statement (.mor gd d a b) := shape_of_pick (pick_mor gd d a b)
theorem Shape.mxor (gd : Guard) (d : MIx) (a : MIx) (b : MIx) : Shape.Statement (.mxor gd d a b) := shape_of_pick (pick_mxor gd d a b)
theorem Shape.mnot (gd : Guard) (d : MIx) (a : MIx) : Shape.Statement (.mnot gd d a) := shape_of_pick (pick_mnot gd d a)
theorem Shape.mpop (gd : Guard) (d : GIx) (a : MIx) : Shape.Statement (.mpop gd d a) := shape_of_pick (pick_mpop gd d a)
theorem Shape.gtom (gd : Guard) (d : MIx) (a : GIx) : Shape.Statement (.gtom gd d a) := shape_of_pick (pick_gtom gd d a)
theorem Shape.mtog (gd : Guard) (d : MIx) (a : GIx) : Shape.Statement (.mtog gd d a) := shape_of_pick (pick_mtog gd d a)
theorem Shape.ld (gd : Guard) (t : MemT) (d : GIx) (ea : MemA) : Shape.Statement (.ld gd t d ea) := shape_of_pick (pick_ld gd t d ea)
theorem Shape.ldro (gd : Guard) (t : MemT) (d : GIx) (ea : MemA) : Shape.Statement (.ldro gd t d ea) := shape_of_pick (pick_ldro gd t d ea)
theorem Shape.ldx (gd : Guard) (t : MemT) (d : GIx) (ea : MemA) : Shape.Statement (.ldx gd t d ea) := shape_of_pick (pick_ldx gd t d ea)
theorem Shape.ldv (gd : Guard) (t : MemT) (d : VIx) (ea : MemA) : Shape.Statement (.ldv gd t d ea) := shape_of_pick (pick_ldv gd t d ea)
theorem Shape.ldvGather (gd : Guard) (t : MemT) (d : VIx) (va : VIx) (b : GIx) (disp : BitVec 32) : Shape.Statement (.ldvGather gd t d va b disp) := shape_of_pick (pick_ldvGather gd t d va b disp)
theorem Shape.lds (gd : Guard) (t : MemT) (d : GIx) (ea : MemA) : Shape.Statement (.lds gd t d ea) := shape_of_pick (pick_lds gd t d ea)
theorem Shape.ldsv (gd : Guard) (d : VIx) (ea : MemA) : Shape.Statement (.ldsv gd d ea) := shape_of_pick (pick_ldsv gd d ea)
theorem Shape.sts (gd : Guard) (t : MemT) (d : GIx) (ea : MemA) : Shape.Statement (.sts gd t d ea) := shape_of_pick (pick_sts gd t d ea)
theorem Shape.stsv (gd : Guard) (d : VIx) (ea : MemA) : Shape.Statement (.stsv gd d ea) := shape_of_pick (pick_stsv gd d ea)
theorem Shape.ldd (gd : Guard) (t : MemT) (d : GIx) (ea : MemA) : Shape.Statement (.ldd gd t d ea) := shape_of_pick (pick_ldd gd t d ea)
theorem Shape.std (gd : Guard) (t : MemT) (d : GIx) (ea : MemA) : Shape.Statement (.std gd t d ea) := shape_of_pick (pick_std gd t d ea)
theorem Shape.upd (gd : Guard) (op : BitVec 4) (t : MemT) (d : GIx) (ea : MemA) : Shape.Statement (.upd gd op t d ea) := shape_of_pick (pick_upd gd op t d ea)
theorem Shape.updx (gd : Guard) (op : BitVec 4) (t : MemT) (d : GIx) (ea : MemA) : Shape.Statement (.updx gd op t d ea) := shape_of_pick (pick_updx gd op t d ea)
theorem Shape.updv (gd : Guard) (op : BitVec 4) (t : MemT) (d : VIx) (ea : MemA) : Shape.Statement (.updv gd op t d ea) := shape_of_pick (pick_updv gd op t d ea)
theorem Shape.updvScatter (gd : Guard) (op : BitVec 4) (t : MemT) (d : VIx) (va : VIx) (b : GIx) (disp : BitVec 32) : Shape.Statement (.updvScatter gd op t d va b disp) := shape_of_pick (pick_updvScatter gd op t d va b disp)
theorem Shape.atom (gd : Guard) (op : BitVec 4) (t : MemT) (d : GIx) (ea : MemA) (c : GIx) : Shape.Statement (.atom gd op t d ea c) := shape_of_pick (pick_atom gd op t d ea c)
theorem Shape.cas (gd : Guard) (t : MemT) (d : GIx) (a : GIx) (disp : BitVec 32) (b : GIx) (c : GIx) : Shape.Statement (.cas gd t d a disp b c) := shape_of_pick (pick_cas gd t d a disp b c)
theorem Shape.drain (gd : Guard) (scope : BitVec 3) (a : GIx) (b : GIx) : Shape.Statement (.drain gd scope a b) := shape_of_pick (pick_drain gd scope a b)
theorem Shape.inval (gd : Guard) (scope : BitVec 3) (a : GIx) (b : GIx) : Shape.Statement (.inval gd scope a b) := shape_of_pick (pick_inval gd scope a b)
theorem Shape.fence (gd : Guard) (scope : BitVec 3) (eng : Bool) : Shape.Statement (.fence gd scope eng) := shape_of_pick (pick_fence gd scope eng)
theorem Shape.syncinit (gd : Guard) (a : GIx) (disp : BitVec 32) (b : GIx) : Shape.Statement (.syncinit gd a disp b) := shape_of_pick (pick_syncinit gd a disp b)
theorem Shape.syncadd (gd : Guard) (a : GIx) (disp : BitVec 32) (b : GIx) : Shape.Statement (.syncadd gd a disp b) := shape_of_pick (pick_syncadd gd a disp b)
theorem Shape.syncwait (gd : Guard) (a : GIx) (disp : BitVec 32) : Shape.Statement (.syncwait gd a disp) := shape_of_pick (pick_syncwait gd a disp)
theorem Shape.syncget (gd : Guard) (d : GIx) (a : GIx) (disp : BitVec 32) : Shape.Statement (.syncget gd d a disp) := shape_of_pick (pick_syncget gd d a disp)
theorem Shape.tdset (gd : Guard) (dd : BitVec 6) (a : GIx) (disp : BitVec 32) : Shape.Statement (.tdset gd dd a disp) := shape_of_pick (pick_tdset gd dd a disp)
theorem Shape.tdget (gd : Guard) (a : GIx) (disp : BitVec 32) (dd : BitVec 6) : Shape.Statement (.tdget gd a disp dd) := shape_of_pick (pick_tdget gd a disp dd)
theorem Shape.ringcfg (gd : Guard) (q : BitVec 3) (a : GIx) (disp : BitVec 32) : Shape.Statement (.ringcfg gd q a disp) := shape_of_pick (pick_ringcfg gd q a disp)
theorem Shape.ringstat (gd : Guard) (d : GIx) (q : BitVec 3) : Shape.Statement (.ringstat gd d q) := shape_of_pick (pick_ringstat gd d q)
theorem Shape.ringdrop (gd : Guard) (q : BitVec 3) (count : BitVec 16) : Shape.Statement (.ringdrop gd q count) := shape_of_pick (pick_ringdrop gd q count)
theorem Shape.tilecfg (gd : Guard) (a : GIx) : Shape.Statement (.tilecfg gd a) := shape_of_pick (pick_tilecfg gd a)
theorem Shape.tilerel (gd : Guard) : Shape.Statement (.tilerel gd) := shape_of_pick (pick_tilerel gd)
theorem Shape.tzero (gd : Guard) (ta : BitVec 5) : Shape.Statement (.tzero gd ta) := shape_of_pick (pick_tzero gd ta)
theorem Shape.tld (gd : Guard) (ta : BitVec 5) (a : GIx) (disp : BitVec 32) : Shape.Statement (.tld gd ta a disp) := shape_of_pick (pick_tld gd ta a disp)
theorem Shape.tsts (gd : Guard) (a : GIx) (disp : BitVec 32) (ta : BitVec 5) : Shape.Statement (.tsts gd a disp ta) := shape_of_pick (pick_tsts gd a disp ta)
theorem Shape.tupd (gd : Guard) (op : BitVec 4) (t : MemT) (ea : MemA) (ta : BitVec 5) : Shape.Statement (.tupd gd op t ea ta) := shape_of_pick (pick_tupd gd op t ea ta)
theorem Shape.mma (gd : Guard) (ta : BitVec 5) (qa : BitVec 3) (qb : BitVec 3) : Shape.Statement (.mma gd ta qa qb) := shape_of_pick (pick_mma gd ta qa qb)
theorem Shape.tcvt (gd : Guard) (q : BitVec 3) (ta : BitVec 5) : Shape.Statement (.tcvt gd q ta) := shape_of_pick (pick_tcvt gd q ta)
theorem Shape.cpy (gd : Guard) (d : GIx) (a : GIx) (disp : BitVec 32) : Shape.Statement (.cpy gd d a disp) := shape_of_pick (pick_cpy gd d a disp)
theorem Shape.cpystat (gd : Guard) (d : GIx) (a : GIx) : Shape.Statement (.cpystat gd d a) := shape_of_pick (pick_cpystat gd d a)
theorem Shape.cpyres (gd : Guard) (a : GIx) : Shape.Statement (.cpyres gd a) := shape_of_pick (pick_cpyres gd a)
theorem Shape.dsmode (gd : Guard) (mode : BitVec 2) (a : GIx) : Shape.Statement (.dsmode gd mode a) := shape_of_pick (pick_dsmode gd mode a)
theorem Shape.bsld (gd : Guard) (idx : BitVec 10) (a : GIx) (disp : BitVec 32) (b : GIx) : Shape.Statement (.bsld gd idx a disp b) := shape_of_pick (pick_bsld gd idx a disp b)
theorem Shape.bsrun (gd : Guard) (a : GIx) (b : GIx) : Shape.Statement (.bsrun gd a b) := shape_of_pick (pick_bsrun gd a b)
theorem Shape.bsres (gd : Guard) : Shape.Statement (.bsres gd) := shape_of_pick (pick_bsres gd)
theorem Shape.bsstat (gd : Guard) (d : GIx) : Shape.Statement (.bsstat gd d) := shape_of_pick (pick_bsstat gd d)
theorem Shape.barcfg (gd : Guard) (bb : BitVec 2) (a : GIx) : Shape.Statement (.barcfg gd bb a) := shape_of_pick (pick_barcfg gd bb a)
theorem Shape.bararr (gd : Guard) (bb : BitVec 2) : Shape.Statement (.bararr gd bb) := shape_of_pick (pick_bararr gd bb)
theorem Shape.barwait (gd : Guard) (bb : BitVec 2) : Shape.Statement (.barwait gd bb) := shape_of_pick (pick_barwait gd bb)
theorem Shape.send (gd : Guard) (tag : Byte) (nw : BitVec 4) (a : GIx) (disp : BitVec 32) : Shape.Statement (.send gd tag nw a disp) := shape_of_pick (pick_send gd tag nw a disp)
theorem Shape.inpop (gd : Guard) (d : GIx) : Shape.Statement (.inpop gd d) := shape_of_pick (pick_inpop gd d)
theorem Shape.gqtake (gd : Guard) (d : GIx) : Shape.Statement (.gqtake gd d) := shape_of_pick (pick_gqtake gd d)
theorem Shape.gqput (gd : Guard) (a : GIx) : Shape.Statement (.gqput gd a) := shape_of_pick (pick_gqput gd a)
theorem Shape.trap (gd : Guard) (code : BitVec 16) : Shape.Statement (.trap gd code) := shape_of_pick (pick_trap gd code)
theorem Shape.tret (gd : Guard) : Shape.Statement (.tret gd) := shape_of_pick (pick_tret gd)
theorem Shape.exit (gd : Guard) : Shape.Statement (.exit gd) := shape_of_pick (pick_exit gd)
theorem Shape.brk (gd : Guard) (code : BitVec 16) : Shape.Statement (.brk gd code) := shape_of_pick (pick_brk gd code)
theorem Shape.hubcall (gd : Guard) (code : BitVec 16) (d : GIx) (a : GIx) : Shape.Statement (.hubcall gd code d a) := shape_of_pick (pick_hubcall gd code d a)
theorem Shape.chkpt (gd : Guard) (a : GIx) : Shape.Statement (.chkpt gd a) := shape_of_pick (pick_chkpt gd a)
theorem Shape.pendingTrapDelivery (c : CoreId) (k : BitVec 4) : Shape.Statement (.pendingTrapDelivery c k) := shape_of_none rfl
theorem Shape.longResultWrite (c : CoreId) (k : BitVec 4) (n : Nat) : Shape.Statement (.longResultWrite c k n) := shape_of_none rfl
theorem Shape.loadReturn (c : CoreId) (k : BitVec 4) (tag : BitVec 3) (elem : BitVec 3) : Shape.Statement (.loadReturn c k tag elem) := shape_of_none rfl
theorem Shape.perform (c : CoreId) (k : BitVec 4) (tag : BitVec 3) : Shape.Statement (.perform c k tag) := shape_of_none rfl
theorem Shape.heldAccessProceed (c : CoreId) (k : BitVec 4) : Shape.Statement (.heldAccessProceed c k) := shape_of_none rfl
theorem Shape.l1SnapshotDrop (c : CoreId) (line : Nat) : Shape.Statement (.l1SnapshotDrop c line) := shape_of_none rfl
theorem Shape.imageReadReturn (c : CoreId) (k : BitVec 4) (n : Nat) : Shape.Statement (.imageReadReturn c k n) := shape_of_none rfl
theorem Shape.tldTileWrite (c : CoreId) (k : BitVec 4) (n : Nat) : Shape.Statement (.tldTileWrite c k n) := shape_of_none rfl
theorem Shape.updateInsertResume (c : CoreId) (k : BitVec 4) : Shape.Statement (.updateInsertResume c k) := shape_of_none rfl
theorem Shape.atomicStep (c : CoreId) (k : BitVec 4) (tag : BitVec 3) : Shape.Statement (.atomicStep c k tag) := shape_of_none rfl
theorem Shape.releaseProceed (c : CoreId) (k : BitVec 4) : Shape.Statement (.releaseProceed c k) := shape_of_none rfl
theorem Shape.releaseComplete (c : CoreId) (k : BitVec 4) : Shape.Statement (.releaseComplete c k) := shape_of_none rfl
theorem Shape.fenceApplyComplete (c : CoreId) (k : BitVec 4) : Shape.Statement (.fenceApplyComplete c k) := shape_of_none rfl
theorem Shape.watermarkPassStart (l : LevelId) : Shape.Statement (.watermarkPassStart l) := shape_of_none rfl
theorem Shape.idlePassStart (l : LevelId) : Shape.Statement (.idlePassStart l) := shape_of_none rfl
theorem Shape.derailleurMove (l : LevelId) : Shape.Statement (.derailleurMove l) := shape_of_none rfl
theorem Shape.recordAccept (n : Nat) : Shape.Statement (.recordAccept n) := shape_of_none rfl
theorem Shape.applyToBase (die : BitVec 3) : Shape.Statement (.applyToBase die) := shape_of_none rfl
theorem Shape.copySlotReserve (c : CoreId) (k : BitVec 4) : Shape.Statement (.copySlotReserve c k) := shape_of_none rfl
theorem Shape.copyUnitDeliver (c : CoreId) (cmd : BitVec 3) : Shape.Statement (.copyUnitDeliver c cmd) := shape_of_none rfl
theorem Shape.copyTranslationFault (c : CoreId) (cmd : BitVec 3) : Shape.Statement (.copyTranslationFault c cmd) := shape_of_none rfl
theorem Shape.engineFaultTrap (c : CoreId) (k : BitVec 4) : Shape.Statement (.engineFaultTrap c k) := shape_of_none rfl
theorem Shape.mmaStart (c : CoreId) : Shape.Statement (.mmaStart c) := shape_of_none rfl
theorem Shape.mmaRetire (c : CoreId) : Shape.Statement (.mmaRetire c) := shape_of_none rfl
theorem Shape.governorWindow (die : BitVec 3) : Shape.Statement (.governorWindow die) := shape_of_none rfl
theorem Shape.tcvtStart (c : CoreId) : Shape.Statement (.tcvtStart c) := shape_of_none rfl
theorem Shape.tcvtRetire (c : CoreId) : Shape.Statement (.tcvtRetire c) := shape_of_none rfl
theorem Shape.dsmodeGroupChangeDone (c : CoreId) (grp : BitVec 4) : Shape.Statement (.dsmodeGroupChangeDone c grp) := shape_of_none rfl
theorem Shape.mzero (u : Micro) : Shape.Statement (.mzero u) := shape_of_none rfl
theorem Shape.mcopy (u : Micro) : Shape.Statement (.mcopy u) := shape_of_none rfl
theorem Shape.microMnot (u : Micro) : Shape.Statement (.microMnot u) := shape_of_none rfl
theorem Shape.microMand (u : Micro) : Shape.Statement (.microMand u) := shape_of_none rfl
theorem Shape.microMor (u : Micro) : Shape.Statement (.microMor u) := shape_of_none rfl
theorem Shape.microMxor (u : Micro) : Shape.Statement (.microMxor u) := shape_of_none rfl
theorem Shape.madd (u : Micro) : Shape.Statement (.madd u) := shape_of_none rfl
theorem Shape.msub (u : Micro) : Shape.Statement (.msub u) := shape_of_none rfl
theorem Shape.mcmp (u : Micro) : Shape.Statement (.mcmp u) := shape_of_none rfl
theorem Shape.msel (u : Micro) : Shape.Statement (.msel u) := shape_of_none rfl
theorem Shape.mshl (u : Micro) : Shape.Statement (.mshl u) := shape_of_none rfl
theorem Shape.mshr (u : Micro) : Shape.Statement (.mshr u) := shape_of_none rfl
theorem Shape.mfadd (u : Micro) : Shape.Statement (.mfadd u) := shape_of_none rfl
theorem Shape.mfmul (u : Micro) : Shape.Statement (.mfmul u) := shape_of_none rfl
theorem Shape.mloop (u : Micro) : Shape.Statement (.mloop u) := shape_of_none rfl
theorem Shape.mend (u : Micro) : Shape.Statement (.mend u) := shape_of_none rfl
theorem Shape.sequencerMessageAccept (c : CoreId) : Shape.Statement (.sequencerMessageAccept c) := shape_of_none rfl
theorem Shape.bitSerialStopTrap (c : CoreId) (k : BitVec 4) : Shape.Statement (.bitSerialStopTrap c k) := shape_of_none rfl
theorem Shape.barrierDoneSignal (c : CoreId) (bb : BitVec 2) (col : Bool) : Shape.Statement (.barrierDoneSignal c bb col) := shape_of_none rfl
theorem Shape.barrierRelease (c : CoreId) (bb : BitVec 2) : Shape.Statement (.barrierRelease c bb) := shape_of_none rfl
theorem Shape.messageAccept (n : Nat) : Shape.Statement (.messageAccept n) := shape_of_none rfl
theorem Shape.collectiveBlock (sp : BitVec 5) (coll : BitVec 16) (idx : BitVec 32) (fin : Bool) (pa : Nat) (data : BlockData) : Shape.Statement (.collectiveBlock sp coll idx fin pa data) := shape_of_none rfl
theorem Shape.gatewayQueueAppend (sp : BitVec 5) : Shape.Statement (.gatewayQueueAppend sp) := shape_of_none rfl
theorem Shape.kick (sp : BitVec 5) (fid : BitVec 18) (q : Byte) (n : Nat) : Shape.Statement (.kick sp fid q n) := shape_of_none rfl
theorem Shape.launchRecordRead (q : Byte) : Shape.Statement (.launchRecordRead q) := shape_of_none rfl
theorem Shape.bindRecordCommit (c : CoreId) (r : BitVec 512) : Shape.Statement (.bindRecordCommit c r) := shape_of_none rfl
theorem Shape.bindRecordWithdraw (c : CoreId) (n : Nat) : Shape.Statement (.bindRecordWithdraw c n) := shape_of_none rfl
theorem Shape.blockComplete (c : CoreId) (n : Nat) : Shape.Statement (.blockComplete c n) := shape_of_none rfl
theorem Shape.launchComplete (q : Byte) : Shape.Statement (.launchComplete q) := shape_of_none rfl
theorem Shape.refusedLaunchComplete (q : Byte) : Shape.Statement (.refusedLaunchComplete q) := shape_of_none rfl
theorem Shape.microTlbFill (c : CoreId) (n : Nat) : Shape.Statement (.microTlbFill c n) := shape_of_none rfl
theorem Shape.pageWalkStart (die : BitVec 3) (n : Nat) : Shape.Statement (.pageWalkStart die n) := shape_of_none rfl
theorem Shape.pageWalkComplete (die : BitVec 3) (n : Nat) : Shape.Statement (.pageWalkComplete die n) := shape_of_none rfl
theorem Shape.faultRecordWrite (ctx : BitVec 6) : Shape.Statement (.faultRecordWrite ctx) := shape_of_none rfl
theorem Shape.hubcallReply (c : CoreId) (k : BitVec 4) (full : Bool) : Shape.Statement (.hubcallReply c k full) := shape_of_none rfl
theorem Shape.saveRequest (c : CoreId) (n : Nat) (pa : Nat) : Shape.Statement (.saveRequest c n pa) := shape_of_none rfl
theorem Shape.preemptStop (c : CoreId) (k : BitVec 4) : Shape.Statement (.preemptStop c k) := shape_of_none rfl
theorem Shape.blockSave (c : CoreId) (n : Nat) : Shape.Statement (.blockSave c n) := shape_of_none rfl
theorem Shape.flitReplay (sp : BitVec 5) : Shape.Statement (.flitReplay sp) := shape_of_none rfl
theorem Shape.spokeFence (sp : Failing) : Shape.Statement (.spokeFence sp) := shape_of_none rfl
theorem Shape.routeChange (die : BitVec 3) : Shape.Statement (.routeChange die) := shape_of_none rfl
theorem Shape.hostRead (pa : Nat) (n : Nat) : Shape.Statement (.hostRead pa n) := shape_of_none rfl
theorem Shape.hostWrite (sp : BitVec 5) (pa : Nat) (data : List (Option Byte)) (pois : Bool) : Shape.Statement (.hostWrite sp pa data pois) := shape_of_none rfl
theorem Shape.hostAgentApply (die : BitVec 3) : Shape.Statement (.hostAgentApply die) := shape_of_none rfl
theorem Shape.remoteReadTimeout (c : CoreId) (k : BitVec 4) (tag : BitVec 3) : Shape.Statement (.remoteReadTimeout c k tag) := shape_of_none rfl
theorem Shape.recordUndeliverable (n : Nat) : Shape.Statement (.recordUndeliverable n) := shape_of_none rfl
theorem Shape.claim (rq : Request) : Shape.Statement (.claim rq) := shape_of_none rfl
theorem Shape.attest (rq : Request) : Shape.Statement (.attest rq) := shape_of_none rfl
theorem Shape.status (rq : Request) : Shape.Statement (.status rq) := shape_of_none rfl
theorem Shape.createContext (rq : Request) : Shape.Statement (.createContext rq) := shape_of_none rfl
theorem Shape.endContext (rq : Request) : Shape.Statement (.endContext rq) := shape_of_none rfl
theorem Shape.setSplit (rq : Request) : Shape.Statement (.setSplit rq) := shape_of_none rfl
theorem Shape.createQueue (rq : Request) : Shape.Statement (.createQueue rq) := shape_of_none rfl
theorem Shape.setWindow (rq : Request) : Shape.Statement (.setWindow rq) := shape_of_none rfl
theorem Shape.invalidateTranslations (rq : Request) : Shape.Statement (.invalidateTranslations rq) := shape_of_none rfl
theorem Shape.faultAnswer (rq : Request) : Shape.Statement (.faultAnswer rq) := shape_of_none rfl
theorem Shape.repair (rq : RepairOf) : Shape.Statement (.repair rq) := shape_of_none rfl
theorem Shape.runtimeDisable (rq : Request) : Shape.Statement (.runtimeDisable rq) := shape_of_none rfl
theorem Shape.raceRing (rq : Request) : Shape.Statement (.raceRing rq) := shape_of_none rfl
theorem Shape.extendMeasurement (rq : Request) : Shape.Statement (.extendMeasurement rq) := shape_of_none rfl
theorem Shape.raiseRollbackCounter (rq : Request) : Shape.Statement (.raiseRollbackCounter rq) := shape_of_none rfl
theorem Shape.correctedError (e : ErrSite) : Shape.Statement (.correctedError e) := shape_of_none rfl
theorem Shape.uncorrectableError (e : ErrSite) : Shape.Statement (.uncorrectableError e) := shape_of_none rfl
theorem Shape.hbmChannelFence (die : BitVec 3) (ch : Failing) : Shape.Statement (.hbmChannelFence die ch) := shape_of_none rfl
theorem Shape.bankGroupFence (c : CoreId) (grp : BitVec 4) : Shape.Statement (.bankGroupFence c grp) := shape_of_none rfl
theorem Shape.patrolScrubRead (e : ErrSite) (err : BitVec 2) : Shape.Statement (.patrolScrubRead e err) := shape_of_none rfl
theorem Shape.scrubWriteback (line : Nat) : Shape.Statement (.scrubWriteback line) := shape_of_none rfl
theorem Shape.hotListExpiry (row : Nat) : Shape.Statement (.hotListExpiry row) := shape_of_none rfl
theorem Shape.retirementScoreDecay (row : Nat) : Shape.Statement (.retirementScoreDecay row) := shape_of_none rfl
theorem Shape.rowRetire (row : Nat) : Shape.Statement (.rowRetire row) := shape_of_none rfl
theorem Shape.powerBudgetUpdate (budgets : List Byte) (actlims : List Nat) : Shape.Statement (.powerBudgetUpdate budgets actlims) := shape_of_none rfl
theorem Shape.actlimWindow (die : BitVec 3) (stack : Bool) : Shape.Statement (.actlimWindow die stack) := shape_of_none rfl
theorem Shape.dieClockStop (die : BitVec 3) : Shape.Statement (.dieClockStop die) := shape_of_none rfl
theorem Shape.dieClockRestart (die : BitVec 3) : Shape.Statement (.dieClockRestart die) := shape_of_none rfl
theorem Shape.tjSample (die : BitVec 3) (tj : Nat) : Shape.Statement (.tjSample die tj) := shape_of_none rfl
theorem Shape.computeDieThermal (die : BitVec 3) (tj : Nat) : Shape.Statement (.computeDieThermal die tj) := shape_of_none rfl
theorem Shape.thermalTrip (die : BitVec 3) (tj : Nat) : Shape.Statement (.thermalTrip die tj) := shape_of_none rfl
theorem Shape.coolantLoss (die : BitVec 3) : Shape.Statement (.coolantLoss die) := shape_of_none rfl
theorem Shape.deviceReset (bundle : BitVec 1) : Shape.Statement (.deviceReset bundle) := shape_of_none rfl
theorem Shape.bootStateEnd (die : BitVec 3) : Shape.Statement (.bootStateEnd die) := shape_of_none rfl
theorem Shape.yieldRequestSet (c : CoreId) (n : Nat) : Shape.Statement (.yieldRequestSet c n) := shape_of_none rfl
theorem Shape.birspi (die : BitVec 3) (line : Nat) (dirty : Option (List Byte)) : Shape.Statement (.birspi die line dirty) := shape_of_none rfl
theorem Shape.globalObservationResponse (die : BitVec 3) : Shape.Statement (.globalObservationResponse die) := shape_of_none rfl

end Sys2Proof.Laws
end

