-- ==== Sys2Proof/Tests/Slice0.lean ====
section
/-! SUPPORT. The model's own tests: for every statement of Certificates/Slice0/Obligations.lean with hypotheses a state and operands
that meet them, clause by clause; one word of every instruction, and the spec's worked examples; an ill-formed term for
every check of WellFormed. -/

open Sys2Proof Sys2Proof.Machine Sys2Proof.Claims

namespace Sys2Proof.Tests

set_option Elab.async false

-- the small state of the tests: slot 0 of core (0, 0) of die 0 runs in a block of context 1

/-- A bind record: scratchpad 4096 to 12287, tiles 2 to 5, rings 1 and 2, descriptors 3 to 7, barrier register 1, window 64 to 8255. -/
def brec : BitVec 512 :=
  BitVec.ofNat 512 (0x10000 + 2 ^ 64 * 0x1234 + 2 ^ 160 * 1 + 2 ^ 168 * 3 + 2 ^ 176 * 1 + 2 ^ 232 * 7 + 2 ^ 256 * 4096 + 2 ^ 276 * 8192
    + 2 ^ 296 * 2 + 2 ^ 301 * 4 + 2 ^ 307 * 1 + 2 ^ 310 * 2 + 2 ^ 314 * 1 + 2 ^ 316 * 1 + 2 ^ 320 * 3 + 2 ^ 326 * 5 + 2 ^ 336 * 64 + 2 ^ 356 * 8192)
/-- A slot of the block. -/
def sl0 : Slot := { st := .running, pc := 0x10000, blk := some 1, trapvec := 0x20000, gen := 5 }
def c0 : CoreId := ⟨0, 0, 0⟩
/-- A core with the slot, the block bound, and a translation of every page to itself. -/
def core0 (x : Slot) : Core :=
  { slots := (Vector.replicate 16 ({} : Slot)).set 0 x, table := [(1, { rec0 := brec, nalloc := 4 })],
    utlb := [⟨1, 0, 2 ^ 36, 0, true, true, true⟩] }
/-- The machine with the slot, the core changed by `k`. -/
def mk (x : Slot) (k : Core → Core := id) : State :=
  { State.reset with
    cores := [(0, k (core0 x))]
    dies := State.reset.dies.set 0 { clock := 1600 }
    ctxs := State.reset.ctxs.set 1 { ent := BitVec.ofNat 256 (16 + 2 ^ 32 * 0x010B + 2 ^ 64) }
    cur := (c0, 0)
    seqno := 17 }
/-- g registers of a slot replaced. -/
def withG (x : Slot) (l : List (Nat × Word)) : Slot := l.foldl (fun y e => { y with g := y.g.setIfInBounds e.1 { val := e.2 } }) x

/-- Whether nothing stops an instruction before its own effect; whether it runs in a state. -/
def readyB (s : State) (f : Issue) : Bool :=
  !s.cs.anyPend (.p f.gd.p :: (f.reads ++ f.writes)) && !(s.cs.mark (.p f.gd.p)).pois && s.cs.guard f.gd && !s.regWait f && !f.bad
    && !s.cs.anyPois f.traps && (!f.sends || !s.badDest)
def runsB (s : State) (i : Instr) : Bool :=
  match issueOf s i with
  | none => false
  | some f => readyB s f && !waitsAt s i

theorem ready_of {s : State} {f : Issue} (h : readyB s f = true) : Ready s f := by
  simp only [readyB, Bool.and_eq_true, Bool.not_eq_true', Bool.or_eq_true] at h
  obtain ⟨⟨⟨⟨⟨⟨h1, h2⟩, h3⟩, h4⟩, h5⟩, h6⟩, h7⟩ := h
  exact ⟨h1, h2, h3, h4, h5, h6, fun hu => by rcases h7 with h | h; rw [hu] at h; cases h; exact h⟩

theorem runs_of {s : State} {i : Instr} (h : runsB s i = true) : ∃ f, Runs s i f := by
  unfold runsB at h
  cases hf : issueOf s i with
  | none => rw [hf] at h; cases h
  | some f =>
    rw [hf] at h
    simp only [Bool.and_eq_true, Bool.not_eq_true'] at h
    exact ⟨f, hf, ready_of h.1, h.2⟩

/-- A state and an instruction that runs in it, with what else a clause asks. -/
theorem wit {P : State → Instr → Prop} (s : State) (i : Instr) [Decidable (P s i)] (h : (runsB s i && decide (P s i)) = true) :
    ∃ s i f, Runs s i f ∧ P s i := by
  simp only [Bool.and_eq_true, decide_eq_true_eq] at h
  obtain ⟨f, hf⟩ := runs_of h.1
  exact ⟨s, i, f, hf, h.2⟩

def on : Guard := ⟨false, 0⟩

/-- A state and an instruction that nothing stops before its own waits, with what else a clause asks. -/
theorem witR {P : State → Instr → Prop} (s : State) (i : Instr) [Decidable (P s i)]
    (h : ((match issueOf s i with | none => false | some f => readyB s f) && decide (P s i)) = true) :
    ∃ s i f, issueOf s i = some f ∧ Ready s f ∧ P s i := by
  simp only [Bool.and_eq_true, decide_eq_true_eq] at h
  cases hf : issueOf s i with
  | none => rw [hf] at h; cases h.1
  | some f => rw [hf] at h; exact ⟨s, i, f, hf, ready_of h.1, h.2⟩

theorem wit2 {P : State → Instr → Prop} (s : State) (i : Instr) (h : runsB s i = true) (h2 : P s i) : ∃ s i f, Runs s i f ∧ P s i := by
  obtain ⟨f, hf⟩ := runs_of h
  exact ⟨s, i, f, hf, h2⟩
/-- A translation that ends in an address. -/
def okAt (x : Trans) (pa : Nat) : Bool := match x with
  | .ok a => decide (a = pa)
  | _ => false
theorem ok_of {x : Trans} {pa : Nat} (h : okAt x pa = true) : x = .ok pa := by
  unfold okAt at h
  split at h
  · rw [of_decide_eq_true h]
  · cases h

/-- The issue of an instruction meets a condition. -/
def meets (s : State) (i : Instr) (p : Issue → Bool) : Bool := match issueOf s i with
  | none => false
  | some f => p f
theorem issue_of {s : State} {i : Instr} {p : Issue → Bool} (h : meets s i p = true) : ∃ f, issueOf s i = some f ∧ p f = true := by
  unfold meets at h
  cases hf : issueOf s i with
  | none => rw [hf] at h; cases h
  | some f => rw [hf] at h; exact ⟨f, rfl, h⟩
theorem wit3 {s : State} {i : Instr} {p : Issue → Bool} (h : (runsB s i && meets s i p) = true) : ∃ f, Runs s i f ∧ p f = true := by
  simp only [Bool.and_eq_true] at h
  obtain ⟨f, hf⟩ := runs_of h.1
  obtain ⟨g, hg, hp⟩ := issue_of h.2
  rw [hf.1] at hg
  cases hg
  exact ⟨f, hf, hp⟩

/-- The next state of an outcome. -/
def nextOf : Host.Outcome State Fault Refusal → Option State
  | .next t => some t
  | _ => none

-- witnesses: integers, issue, control, floating point

theorem wit_TwoOperandIntegerResults : ∃ s i f, Runs s i f ∧ (twoForm i).isSome = true :=
  wit (mk (withG sl0 [(2, 0x7FFFFFFF), (3, 1)])) (.addReg on true 1 2 3) (by decide +kernel)
theorem wit_TwoOperandIntegerResults_g0 : ∃ s i f, Runs s i f ∧ twoForm i = some ⟨.mulh, false, 0, 0, .lit 5⟩ :=
  wit (mk sl0) (.mulh on false 0 0 (.lit 5)) (by decide +kernel)
theorem wit_DivisionResults : ∃ s i f, Runs s i f ∧ quoForm i = some (.div, false, 1, 2, .reg 3) ∧ s.g 3 = 0 :=
  wit (mk (withG sl0 [(2, 7)])) (.div on false 1 2 (.reg 3)) (by decide +kernel)
theorem wit_SelectAddressAndMultiplyAdd : ∃ s i f, Runs s i f ∧ (pickForm s i).isSome = true :=
  wit (mk sl0) (.leaPcr on false 1 (.reg 2) 4) (by decide +kernel)
theorem wit_BitInstructionResults : ∃ s i f, Runs s i f ∧ oneForm i = some (.abs, true, 1, 2) ∧ (s.g 2).setWidth 32 = BitVec.intMin 32 :=
  wit (mk (withG sl0 [(2, 0x80000000)])) (.abs on true 1 2) (by decide +kernel)
theorem wit_BitInstructionResults_wide : ∃ s i f, Runs s i f ∧ oneForm i = some (.clz, false, 1, 2) :=
  wit (mk sl0) (.clz on false 1 2) (by decide +kernel)
theorem wit_BitFieldResults_inside : ∃ s i f, Runs s i f ∧ fieldForm i = some (true, 1, 2, 31, 0) :=
  wit (mk sl0) (.bfxs on true 1 2 31 0) (by decide +kernel)
theorem wit_BitFieldResults_outside : ∃ s i f, Runs s i f ∧ fieldForm i = some (false, 1, 2, 32, 32) :=
  wit (mk sl0) (.bfi on false 1 2 32 32) (by decide +kernel)
theorem wit_CompareResults : ∃ s i f, Runs s i f ∧ (cmpForm i).isSome = true :=
  wit (mk sl0) (.cmpSignedReg on true 5 3 1 2) (by decide +kernel)
theorem wit_PredicateResults : ∃ s i f, Runs s i f ∧ (predForm s.cs i).isSome = true :=
  wit (mk sl0) (.pxor on true 0 1 2) (by decide +kernel)

/-- A slot with a mark of some register changed. -/
def marked (f : Mark → Mark) (r : RegId) : Slot := sl0.mapMark f r
/-- The registers that an issue names are settled. -/
def calm (s : State) (f : Issue) : Bool := !s.cs.anyPend (.p f.gd.p :: (f.reads ++ f.writes))

theorem wit_issue_pending : ∃ f, issueOf (mk (marked (fun m => { m with pend := true }) (.g 2))) (.addReg on false 1 2 3) = some f ∧
    ((mk (marked (fun m => { m with pend := true }) (.g 2))).cs.anyPend (.p f.gd.p :: (f.reads ++ f.writes))) = true :=
  issue_of (by decide +kernel)
theorem wit_issue_guard_poisoned : ∃ f, issueOf (mk (marked (fun m => { m with pois := true }) (.p 3))) (.ldx ⟨false, 3⟩ ⟨false, 3, 0⟩ 2 ⟨4, 0, 0⟩) = some f ∧
    (calm (mk (marked (fun m => { m with pois := true }) (.p 3))) f
      && ((mk (marked (fun m => { m with pois := true }) (.p 3))).cs.mark (.p f.gd.p)).pois) = true :=
  issue_of (by decide +kernel)
theorem wit_issue_guard_false : ∃ f, issueOf (mk sl0) (.addReg ⟨false, 3⟩ false 1 2 3) = some f ∧
    (calm (mk sl0) f && !((mk sl0).cs.mark (.p f.gd.p)).pois && !(mk sl0).cs.guard f.gd && !f.bad) = true :=
  issue_of (by decide +kernel)
theorem wit_issue_guard_false_bad : ∃ f, issueOf (mk sl0) (.ldx ⟨false, 3⟩ ⟨false, 3, 0⟩ 3 ⟨4, 0, 0⟩) = some f ∧
    (calm (mk sl0) f && !((mk sl0).cs.mark (.p f.gd.p)).pois && !(mk sl0).cs.guard f.gd && f.bad) = true :=
  issue_of (by decide +kernel)
theorem wit_issue_waits : ∃ f, issueOf (mk sl0) (.addReg on false 1 60 3) = some f ∧
    (calm (mk sl0) f && !((mk sl0).cs.mark (.p f.gd.p)).pois && (mk sl0).cs.guard f.gd && (mk sl0).regWait f) = true :=
  issue_of (by decide +kernel)
theorem wit_issue_bad : ∃ f, issueOf (mk sl0) (.ldx on ⟨false, 3, 0⟩ 60 ⟨4, 0, 0⟩) = some f ∧
    (calm (mk sl0) f && (mk sl0).cs.guard f.gd && !(mk sl0).regWait f && !waitsAt (mk sl0) (.ldx on ⟨false, 3, 0⟩ 60 ⟨4, 0, 0⟩) && f.bad) = true :=
  issue_of (by decide +kernel)
theorem wit_issue_poison : ∃ f, issueOf (mk (marked (fun m => { m with pois := true }) (.g 2))) (.brx on 2) = some f ∧
    (calm (mk (marked (fun m => { m with pois := true }) (.g 2))) f && !(mk (marked (fun m => { m with pois := true }) (.g 2))).regWait f && !f.bad
      && (mk (marked (fun m => { m with pois := true }) (.g 2))).cs.anyPois f.traps) = true :=
  issue_of (by decide +kernel)
/-- The machine with a core of die 1 disabled, and MDEST beyond its cores. -/
def lame : State := (fun (s : State) => { s with root := { s.root with applied := [2 ^ 16 * 5 + 1] } }) (mk { sl0 with mdest := 2 ^ 20 * 1023 + 2 ^ 30 })
theorem wit_issue_bad_destination : ∃ f, issueOf lame (.addReg on false 61 2 3) = some f ∧
    (uses f.writes (.g 61) && !f.bad && lame.badDest) = true :=
  issue_of (by decide +kernel)

theorem wit_BranchTargets_relative : ∃ s i f, Runs s i f ∧ relForm s i = some (-4, true, true) :=
  wit (mk sl0) (.call on 63 63 63) (by decide +kernel)
theorem wit_BranchTargets_btag : ∃ s i f, Runs s i f ∧ relForm s i = some (8, false, false) :=
  wit (mk sl0) (.btag on 3 8) (by decide +kernel)
theorem wit_BranchTargets_register : ∃ s i f, Runs s i f ∧ regForm i = some (4, true) ∧ (s.g 4).toNat % 4 = 0 ∧ (s.g 4).toNat < 2 ^ 48 :=
  wit (mk (withG sl0 [(4, 0xFFFFFFFFFFFC)])) (.callx on 4) (by decide +kernel)
theorem wit_BranchTargets_misaligned : ∃ s i f, Runs s i f ∧ regForm i = some (59, false) ∧ (s.g 59).toNat % 4 ≠ 0 :=
  wit (mk (withG sl0 [(59, 2)])) (.ret on) (by decide +kernel)
theorem wit_BranchTargets_high : ∃ s i f, Runs s i f ∧ regForm i = some (4, false) ∧ (s.g 4).toNat % 4 = 0 ∧ 2 ^ 48 ≤ (s.g 4).toNat :=
  wit (mk (withG sl0 [(4, 0x1000000000000)])) (.brx on 4) (by decide +kernel)

/-- Four loops that are open. -/
def loops4 : List LoopEntry := List.replicate 4 ⟨0x8000, 0x9000, 5⟩
theorem wit_Loop_overflow : ∃ s i f, Runs s i f ∧ loopForm s i = some (3, 0x10018) ∧ endsHere s.cs = false ∧ s.cs.loops.length = 4 :=
  wit (mk { sl0 with loops := loops4 }) (.loopImm on 3 3) (by decide +kernel)
theorem wit_Loop_own_end : ∃ s i f, Runs s i f ∧ (loopForm s i).isSome = true ∧ endsHere s.cs = true :=
  wit (mk { sl0 with loops := [⟨0x8000, 0x10000, 2⟩] }) (.loopImm on 3 3) (by decide +kernel)
theorem wit_Loop_push : ∃ s i f, Runs s i f ∧ loopForm s i = some (1, 0x1000C) ∧ endsHere s.cs = false ∧ s.cs.loops.length = 3 :=
  wit (mk { withG sl0 [(2, 0x100000001)] with loops := loops4.take 3 }) (.loopReg on 2 0) (by decide +kernel)
theorem wit_Loop_zero : ∃ s i f, Runs s i f ∧ loopForm s i = some (0, 0x10018) ∧ endsHere s.cs = false ∧ s.tr 0x10018 needX = .ok 0x10018 :=
  wit (mk { sl0 with loops := loops4 }) (.loopImm on 0 3) (by decide +kernel)
theorem wit_Loop_zero_fault : ∃ s i f, Runs s i f ∧ loopForm s i = some (0, 0x10018) ∧ endsHere s.cs = false ∧
    (match s.tr 0x10018 needX with | .fault _ _ => true | _ => false) = true :=
  wit (mk sl0 fun k => { k with utlb := [⟨1, 0, 2 ^ 36, 0, false, true, true⟩] }) (.loopImm on 0 3) (by decide +kernel)
theorem wit_Loop_zero_miss : ∃ s i f, Runs s i f ∧ loopForm s i = some (0, 0x10018) ∧ endsHere s.cs = false ∧
    (match s.tr 0x10018 needX with | .miss _ => true | _ => false) = true :=
  wit (mk sl0 fun k => { k with utlb := [] }) (.loopImm on 0 3) (by decide +kernel)
theorem wit_Lexit : ∃ s i f, Runs s i f ∧ i = .lexit on ∧ s.cs.loops = ⟨1, 2, 3⟩ :: [] :=
  wit (mk { sl0 with loops := [⟨1, 2, 3⟩] }) (.lexit on) (by decide +kernel)
theorem wit_Lexit_empty : ∃ s i f, Runs s i f ∧ i = .lexit on ∧ s.cs.loops = [] :=
  wit (mk sl0) (.lexit on) (by decide +kernel)
theorem wit_EndOfBodyTest : ∃ (x : Slot) (e : LoopEntry) (r : List LoopEntry), x.loops = e :: r ∧ e.fin = x.pc ∧ e.count = 1 :=
  ⟨{ sl0 with loops := [⟨0x8000, 0x10000, 1⟩, ⟨0x8000, 0x10000, 2⟩] }, _, _, rfl, rfl, rfl⟩

theorem wit_TaintChange : ∃ s i f, Runs s i f ∧ taintForm s i = some (.g 0, 0x0F) :=
  wit (mk { sl0 with ctaint := 0xFF }) (.tclr on 0 0 0xF0) (by decide +kernel)
theorem wit_Twait : ∃ f, issueOf (mk { sl0 with tags := [(0, { kind := .ld, dst := [], elems := [], scope := 0, w := 3, sext := false, taint := 0, issued := 0, left := 0 })] })
      (.twait on 1) = some f ∧
    readyB (mk { sl0 with tags := [(0, { kind := .ld, dst := [], elems := [], scope := 0, w := 3, sext := false, taint := 0, issued := 0, left := 0 })] }) f = true :=
  issue_of (by decide +kernel)
theorem wit_Tget : ∃ s i f, Runs s i f ∧ i = .tget on 1 2 31 := wit (mk sl0) (.tget on 1 2 31) (by decide +kernel)

theorem wit_Rounding : ∃ (f : FFmt) (mode : RMode) (n : Bool) (m : Nat) (e : Int), m ≠ 0 ∧ (∀ u, mode ≠ .sr u) ∧
    (roundF f mode false false (.num n m e false)).2 &&& flagOF = 0 ∧ (roundF f mode false false (.num n m e false)).2 &&& flagNX ≠ 0 :=
  ⟨.fp16, .rne, true, 2049, 0, by decide, (by intro u h; cases h), by decide +kernel, by decide +kernel⟩
theorem wit_FloatArithmetic : ∃ s i f, Runs s i f ∧ ∃ x, fpForm s i = some x ∧ enabled s x.2.1.2 = 0 :=
  wit (mk (withG sl0 [(2, 0x3FF0000000000000), (3, 0x4008000000000000)])) (.fdiv on false 1 2 3) (by decide +kernel)
theorem wit_FloatArithmetic_trap : ∃ s i f, Runs s i f ∧ ∃ x, fpForm s i = some x ∧ enabled s x.2.1.2 ≠ 0 :=
  wit (mk (withG { sl0 with fpcr := 0x1F00 } [(2, 0x3F800000), (3, 0)])) (.fdiv on true 1 2 3) (by decide +kernel)

-- witnesses: special registers and vectors

/-- The slot with a VFMT. -/
def vf (n : Nat) : Slot := { sl0 with vfmt := BitVec.ofNat 64 n }
theorem wit_Rds : ∃ s i f, Runs s i f ∧ i = .rds on 1 1 0 ∧ (numberOf 1 0) ∈ (specialMap s).map Prod.fst :=
  wit (mk sl0) (.rds on 1 1 0) (by decide +kernel)
theorem wit_Rds_outside : ∃ s i f, Runs s i f ∧ i = .rds on 1 15 63 ∧ (numberOf 15 63) ∉ (specialMap s).map Prod.fst :=
  wit (mk sl0) (.rds on 1 15 63) (by decide +kernel)
theorem wit_Wrs : ∃ s i f, Runs s i f ∧ i = .wrs on 1 16 2 ∧ legalWrite (numberOf 1 16) (s.g 2) = true :=
  wit (mk (withG sl0 [(2, 0x20000)])) (.wrs on 1 16 2) (by decide +kernel)
theorem wit_Wrs_illegal : ∃ s i f, Runs s i f ∧ i = .wrs on 1 16 2 ∧ legalWrite (numberOf 1 16) (s.g 2) = false :=
  wit (mk (withG sl0 [(2, 2 ^ 48)])) (.wrs on 1 16 2) (by decide +kernel)
theorem wit_Wrs_read_back : ∃ s num v, legalWrite num v = true ∧ s.blockOf s.cc s.cs = some s.block ∧
    v ∈ ((specialMap (specialSet s num v)).filter fun e => decide (e.1 = num)).map Prod.snd :=
  ⟨mk sl0, 0x050, 0x20000, by decide +kernel, by decide +kernel, by decide +kernel⟩

theorem wit_Elementwise : ∃ s i f, Runs s i f ∧ (laneForm s i).isSome = true :=
  wit (mk (vf 9)) (.vaddExt on ⟨0, true⟩ 1 1 2 3) (by decide +kernel)
theorem wit_Vcmp_unordered_integer : ∃ s i f, Runs s i f ∧ vcmpForm i = some (1, 0, false, 6, 2, 3) ∧ eInt s = true :=
  wit (mk (vf 2)) (.vcmp on 6 1 2 3) (by decide +kernel)
theorem wit_Vcmp : ∃ s i f, Runs s i f ∧ vcmpForm i = some (1, 2, true, 5, 2, 3) ∧ eInt s = true ∧ ewidth s ∈ [8, 16, 32, 64] :=
  wit (mk (vf 0)) (.vcmpExt on ⟨2, true⟩ 5 1 2 3) (by decide +kernel)
theorem wit_Lane_outside : ∃ s i f, Runs s i f ∧ laneOf i = some 8 ∧ 256 / ewidth s ≤ 8 :=
  wit (mk (vf 9)) (.vext on 1 2 8) (by decide +kernel)
theorem wit_Lane_insert : ∃ s i f, Runs s i f ∧ laneOf i = some 7 ∧ insForm i = some (1, 2) ∧ 7 < 256 / ewidth s :=
  wit (mk (vf 9)) (.vins on 1 2 7) (by decide +kernel)
theorem wit_Lane_extract : ∃ s i f, Runs s i f ∧ laneOf i = some 31 ∧ extForm i = some (1, 2) ∧ 31 < 256 / ewidth s :=
  wit (mk (vf 0)) (.vextExt on 1 2 31) (by decide +kernel)
theorem wit_Reduce_integer : ∃ s i f, Runs s i f ∧ redForm i = some (1, 0, 0, 1, 2) ∧ eInt s = true :=
  wit (mk (vf 4)) (.vredmin on 1 2) (by decide +kernel)
theorem wit_Reduce_float : ∃ s i f, Runs s i f ∧ redForm i = some (0, 0, 2, 1, 2) ∧ eInt s = false :=
  wit (mk (vf 9)) (.vredaddExt on 0 2 1 2) (by decide +kernel)
theorem wit_Reduce_float_max : ∃ s i f, Runs s i f ∧ redForm i = some (2, 0, 0, 1, 2) ∧ eInt s = false :=
  wit (mk (vf 10)) (.vredmax on 1 2) (by decide +kernel)
theorem wit_Vdot : ∃ s i f, Runs s i f ∧ i = .vdot on ⟨0, false⟩ 0 1 2 3 ∧ (etype s).toNat ∈ [0, 1, 4, 5, 10, 11] :=
  wit (mk (vf 11)) (.vdot on ⟨0, false⟩ 0 1 2 3) (by decide +kernel)
theorem wit_Vdot_other_type : ∃ s i f, Runs s i f ∧ i = .vdot on ⟨0, false⟩ 0 1 2 3 ∧ (etype s).toNat ∉ [0, 1, 4, 5, 10, 11] :=
  wit (mk (vf 2)) (.vdot on ⟨0, false⟩ 0 1 2 3) (by decide +kernel)
theorem wit_Vsfu : ∃ s i f, Runs s i f ∧ i = .vsfu on ⟨0, false⟩ 6 1 2 ∧ (etype s).toNat ∈ [9, 10, 11] :=
  wit (mk (vf 9)) (.vsfu on ⟨0, false⟩ 6 1 2) (by decide +kernel)
theorem wit_Vsfu_other_type : ∃ s i f, Runs s i f ∧ i = .vsfu on ⟨0, false⟩ 0 1 2 ∧ (etype s).toNat ∉ [9, 10, 11] :=
  wit (mk (vf 8)) (.vsfu on ⟨0, false⟩ 0 1 2) (by decide +kernel)
theorem wit_Vcvt : ∃ s i f, Runs s i f ∧ i = .vcvt on ⟨0, false⟩ 6 1 11 9 4 5 ∧ i.wf = true :=
  wit (mk sl0) (.vcvt on ⟨0, false⟩ 6 1 11 9 4 5) (by decide +kernel)
theorem wit_Mask : ∃ s i f, Runs s i f ∧ (maskForm s i).isSome = true := wit (mk sl0) (.mnot on 1 2) (by decide +kernel)
theorem wit_Mpop : ∃ s i f, Runs s i f ∧ i = .mpop on 1 2 := wit (mk sl0) (.mpop on 1 2) (by decide +kernel)
theorem wit_Mtog : ∃ s i f, Runs s i f ∧ i = .mtog on 1 2 ∧ (s.g 2).toNat = 31 := wit (mk (withG sl0 [(2, 31)])) (.mtog on 1 2) (by decide +kernel)
theorem wit_Mtog_outside : ∃ s i f, Runs s i f ∧ i = .mtog on 1 2 ∧ (s.g 2).toNat = 32 :=
  wit (mk (withG sl0 [(2, 32)])) (.mtog on 1 2) (by decide +kernel)
theorem wit_Vqnt : ∃ s i f, Runs s i f ∧ i = .vqnt on 0 10 1 4 3 ∧ (etype s).toNat ∈ [9, 10, 11] ∧ 4 % (unitElems 10 * ewidth s / 256) = 0 :=
  wit (mk (vf 9)) (.vqnt on 0 10 1 4 3) (by decide +kernel)
theorem wit_Vqnt_misaligned : ∃ s i f, Runs s i f ∧ i = .vqnt on 0 10 1 5 3 ∧ 5 % (unitElems 10 * ewidth s / 256) ≠ 0 :=
  wit (mk (vf 9)) (.vqnt on 0 10 1 5 3) (by decide +kernel)
theorem wit_Vdqnt : ∃ s i f, Runs s i f ∧ i = .vdqnt on 13 4 1 0 ∧ (etype s).toNat ∈ [9, 10, 11] ∧ 4 % (unitElems 13 * ewidth s / 256) = 0 :=
  wit (mk (vf 10)) (.vdqnt on 13 4 1 0) (by decide +kernel)
theorem wit_Vdqnt_other_type : ∃ s i f, Runs s i f ∧ i = .vdqnt on 13 4 1 0 ∧ (etype s).toNat ∉ [9, 10, 11] :=
  wit (mk (vf 2)) (.vdqnt on 13 4 1 0) (by decide +kernel)
theorem wit_Vhad : ∃ s i f, Runs s i f ∧ i = .vhad on true 4 8 ∧ ¬((eInt s = true ∧ eSigned s = false) ∨ 8 % max 1 (32 * ewidth s / 256) ≠ 0) :=
  wit (mk (vf 9)) (.vhad on true 4 8) (by decide +kernel)
theorem wit_Vhad_natural : ∃ s i f, Runs s i f ∧ i = .vhad on false 4 8 ∧ eInt s = true ∧ eSigned s = false :=
  wit (mk (vf 4)) (.vhad on false 4 8) (by decide +kernel)
theorem wit_Vbaddq : ∃ s i f, Runs s i f ∧ i = .vbaddq on 0 14 1 2 3 9 := wit (mk sl0) (.vbaddq on 0 14 1 2 3 9) (by decide +kernel)

-- witnesses: memory accesses

/-- Every address is aligned and translates, as `Placed` says. -/
def placedB (s : State) (x : Access) (pas : List Nat) : Bool :=
  !x.noDst && x.eas.all (fun a => decide (a.toNat % x.size = 0)) && decide (x.eas.length = pas.length)
    && (List.range pas.length).all fun n => okAt (s.tr (x.eas.getD n 0) x.need) (pas.getD n 0)
theorem placed_of {s : State} {x : Access} {pas : List Nat} (h : placedB s x pas = true) : Placed s x pas := by
  simp only [placedB, Bool.and_eq_true, Bool.not_eq_true', decide_eq_true_eq, List.all_eq_true, List.mem_range] at h
  obtain ⟨⟨⟨h1, h2⟩, h3⟩, h4⟩ := h
  exact ⟨h1, h2, h3, fun n hn => ok_of (h4 n hn)⟩
theorem witA {s : State} {i : Instr} {p : Issue → Bool} (x : Access) (pas : List Nat) (ha : accessOf s i = some x) (hp : placedB s x pas = true)
    (h : (runsB s i && meets s i p) = true) : ∃ f x, Runs s i f ∧ accessOf s i = some x ∧ Placed s x pas ∧ p f = true := by
  obtain ⟨f, hf, hq⟩ := wit3 h
  exact ⟨f, x, hf, ha, placed_of hp, hq⟩

/-- A word access at the width of 8 bytes, core scope; a memory operand. -/
def t64 : MemT := ⟨false, 3, 0⟩
def ea (a : GIx) : MemA := ⟨a, 0, 0⟩
/-- A load in flight, and an entry of the hold queue. -/
def ld0 (pa : Nat) : Load := { kind := .ld, dst := [.g 9], elems := [{ pa := pa, size := 8 }], scope := 0, w := 3, sext := false, taint := 0, issued := 0, left := 0 }
def rec1 (key : Nat) : Rec :=
  { key := key, value := 5, op := 1, w := 3, k := false, mask := 255, ctx := 1, pois := false, sdie := 0, score := 0 }
def held1 (key : Nat) : Held := { mask := 1, loads := 0, keys := [key], op := .upd [rec1 key] 0 .todo }
/-- g2 at an address. -/
def atA (w : Word) : Slot := withG sl0 [(2, w)]

theorem wit_Access_forbidden : ∃ s i f, Runs s i f ∧ (accessOf s i).any fun x => x.noDst :=
  wit (mk sl0) (.ld on t64 61 (ea 2)) (by decide +kernel)
theorem wit_Access_misaligned : ∃ s i f, Runs s i f ∧ (accessOf s i).any fun x => !x.noDst && decide ((x.eas.getD 0 0).toNat % x.size ≠ 0) :=
  wit (mk (atA 4)) (.ld on t64 1 (ea 2)) (by decide +kernel)
theorem wit_Access_misaligned_later : ∃ s i f, Runs s i f ∧ (accessOf s i).any fun x =>
    decide ((x.eas.getD 0 0).toNat % x.size = 0) && decide ((x.eas.getD 1 0).toNat % x.size ≠ 0) :=
  wit (mk { sl0 with v := sl0.v.set 3 { val := 2 ^ 32 * 2 } }) (.ldvGather on ⟨false, 2, 0⟩ 1 3 2 0) (by decide +kernel)
/-- A translation that faults or misses. -/
def faults (x : Trans) : Bool := match x with
  | .fault _ _ => true
  | _ => false
def misses (x : Trans) : Bool := match x with
  | .miss _ => true
  | _ => false
/-- An access whose first address is aligned. -/
theorem placedTo_zero {s : State} {x : Access} (h : (!x.noDst && x.eas.all (fun a => decide (a.toNat % x.size = 0)) && decide (0 < x.eas.length)) = true) :
    PlacedTo s x 0 := by
  simp only [Bool.and_eq_true, Bool.not_eq_true', decide_eq_true_eq, List.all_eq_true] at h
  exact ⟨h.1.1, h.1.2, h.2, fun j hj => absurd hj (Nat.not_lt_zero j)⟩
/-- The machine whose pages may only be read, and the one with no translation. -/
def readOnly : State := mk (atA 0x40) fun k => { k with utlb := [⟨1, 0, 2 ^ 36, 0, true, false, true⟩] }
def noTlb : State := mk (atA 0x40) fun k => { k with utlb := [] }
theorem wit_Access_fault : ∃ f, Runs readOnly (.upd on 1 t64 1 (ea 2)) f ∧
    (accessOf readOnly (.upd on 1 t64 1 (ea 2)) = some ⟨{ w := true }, 8, [0x40], false⟩ ∧ PlacedTo readOnly ⟨{ w := true }, 8, [0x40], false⟩ 0 ∧
      faults (readOnly.tr 0x40 { w := true }) = true) :=
  (runs_of (by decide +kernel)).imp fun _ h => ⟨h, by decide +kernel, placedTo_zero (by decide +kernel), by decide +kernel⟩
theorem wit_Access_miss : ∃ f, Runs noTlb (.tdset on 1 2 0) f ∧
    (accessOf noTlb (.tdset on 1 2 0) = some ⟨{ r := true }, 32, [0x40], false⟩ ∧ PlacedTo noTlb ⟨{ r := true }, 32, [0x40], false⟩ 0 ∧
      misses (noTlb.tr 0x40 { r := true }) = true) :=
  (runs_of (by decide +kernel)).imp fun _ h => ⟨h, by decide +kernel, placedTo_zero (by decide +kernel), by decide +kernel⟩

/-- The machine that may read its first page alone, and the tile's image whose second half lies on the next. -/
def onePage : State := mk (atA 0xE00) fun k => { k with utlb := [⟨1, 0, 1, 0, true, false, true⟩] }
/-- Those before the `n`-th address translate. -/
def placedToB (s : State) (x : Access) (n : Nat) : Bool :=
  !x.noDst && x.eas.all (fun a => decide (a.toNat % x.size = 0)) && decide (n < x.eas.length)
    && (List.range n).all fun j => match s.tr (x.eas.getD j 0) x.need with
      | .ok _ => true
      | _ => false
theorem placedTo_of {s : State} {x : Access} {n : Nat} (h : placedToB s x n = true) : PlacedTo s x n := by
  simp only [placedToB, Bool.and_eq_true, Bool.not_eq_true', decide_eq_true_eq, List.all_eq_true, List.mem_range] at h
  obtain ⟨⟨⟨h1, h2⟩, h3⟩, h4⟩ := h
  refine ⟨h1, h2, h3, fun j hj => ?_⟩
  have := h4 j hj
  split at this
  · exact ⟨_, ‹_›⟩
  · cases this
theorem wit_Access_miss_later : ∃ f, Runs onePage (.tld on 1 2 0) f ∧
    (accessOf onePage (.tld on 1 2 0) = some ⟨{ r := true }, 64, tileLines 0xE00, false⟩ ∧
      PlacedTo onePage ⟨{ r := true }, 64, tileLines 0xE00, false⟩ 8 ∧
      misses (onePage.tr ((tileLines 0xE00).getD 8 0) { r := true }) = true) :=
  (runs_of (by decide +kernel)).imp fun _ h => ⟨h, by decide +kernel, placedTo_of (by decide +kernel), by decide +kernel⟩

theorem wit_Load_goes : ∃ f x, Runs (mk (atA 0x40)) (.ld on t64 1 (ea 2)) f ∧ accessOf (mk (atA 0x40)) (.ld on t64 1 (ea 2)) = some x ∧
    Placed (mk (atA 0x40)) x [0x40] ∧
    ((loadOf (mk (atA 0x40)) 0x40 (.ld on t64 1 (ea 2))).isSome && !mustHold (mk (atA 0x40)) f (keysAt [0x40] 8)) = true :=
  witA ⟨{ r := true }, 8, [0x40], false⟩ [0x40] (by decide +kernel) (by decide +kernel) (by decide +kernel)
/-- The machine with overlapping entries in the hold queue. -/
def heldAt1 (n : Nat) : State := mk { atA 0x40 with hold := List.replicate n (held1 8) }
theorem wit_Load_held : ∃ f x, Runs (heldAt1 7) (.ldx on t64 4 (ea 2)) f ∧ accessOf (heldAt1 7) (.ldx on t64 4 (ea 2)) = some x ∧
    Placed (heldAt1 7) x [0x40] ∧ (mustHold (heldAt1 7) f (keysAt [0x40] 16) && decide ((heldAt1 7).cs.hold.length < 8)) = true :=
  witA ⟨{ r := true }, 16, [0x40], false⟩ [0x40] (by decide +kernel) (by decide +kernel) (by decide +kernel)
theorem wit_Load_turn_lost : ∃ f, Runs (heldAt1 8) (.ld on t64 4 (ea 2)) f ∧ (mustHold (heldAt1 8) f (keysAt [0x40] 8) && decide (8 ≤ (heldAt1 8).cs.hold.length)) = true :=
  wit3 (by decide +kernel)
theorem wit_Load_highest_tag : ∃ s i f, Runs s i f ∧ ((loadOf s 0x40 i).isSome = true ∧ Sparse.find s.cs.tags 7 = none ∧ ∀ t, t < 7 → Sparse.find s.cs.tags t ≠ none) :=
  wit (mk { atA 0x40 with tags := (List.range 7).map fun t => (t, ld0 (0x200 + 8 * t)) }) (.ld on t64 1 (ea 2)) (by decide +kernel)
theorem wit_Atomic_goes : ∃ s i f, Runs s i f ∧ ((loadOf s 0x40 i).any fun y => (inside s.cc y.2.1.scope).all fun l => decide (s.heldAt l 8 = none)) = true :=
  wit (mk (atA 0x40)) (.atom on 1 ⟨false, 3, 3⟩ 1 (ea 2) 3) (by decide +kernel)

/-- The machine with a record of the key at hand, and the same with the run outside it full. -/
def holding0 (n : Nat) : State :=
  let s := mk (atA 0x40) fun k => { k with cog0 := { recs := [{ rec1 8 with op := 2 }] } }
  { s with clusters := [(0, { cog1 := { recs := List.replicate n (rec1 99) } })] }
theorem wit_Atomic_evicts : ∃ s i f, Runs s i f ∧ ((loadOf s 0x40 i).any fun y => isAtomic y.2.2 && (evicted s 8 (inside s.cc y.2.1.scope)).isSome
    && (inside s.cc y.2.1.scope).any fun l => (s.heldAt l 8).isSome) = true :=
  wit (holding0 0) (.atom on 1 ⟨false, 3, 3⟩ 1 (ea 2) 3) (by decide +kernel)
theorem wit_Atomic_evicts_later : ∃ s i f, Runs s i f ∧ ((loadOf s 0x40 i).any fun y => isAtomic y.2.2 && (evicted s 8 (inside s.cc y.2.1.scope)).isNone) = true :=
  wit (holding0 4096) (.cas on ⟨false, 3, 1⟩ 1 2 0 3 4) (by decide +kernel)

theorem wit_Prefetch_misaligned : ∃ s i f, Runs s i f ∧ prefetchOf i = some (t64, ea 2) ∧ (addrOf s (ea 2)).toNat % 8 ≠ 0 :=
  wit (mk (atA 1)) (.ld on t64 0 (ea 2)) (by decide +kernel)
theorem wit_Prefetch_fault : ∃ s i f, Runs s i f ∧ prefetchOf i = some (t64, ea 2) ∧ faults (s.tr (addrOf s (ea 2)) { r := true }) = true :=
  wit (mk (atA 8) fun k => { k with utlb := [⟨1, 0, 2 ^ 36, 0, true, false, false⟩] }) (.ldro on t64 0 (ea 2)) (by decide +kernel)
theorem wit_Prefetch_miss : ∃ s i f, Runs s i f ∧ prefetchOf i = some (t64, ea 2) ∧ misses (s.tr (addrOf s (ea 2)) { r := true }) = true :=
  wit (mk (atA 8) fun k => { k with utlb := [] }) (.ld on t64 0 (ea 2)) (by decide +kernel)
theorem wit_Prefetch_taken : ∃ s i f, Runs s i f ∧ prefetchOf i = some (t64, ea 2) ∧ s.tr (addrOf s (ea 2)) { r := true } = .ok 0x40 ∧
    (s.core s.cc).l1 = [] ∧ s.homeReady s.cc 1 = true ∧ s.lineMoving s.cc.die 1 = false ∧ isHost 64 = false ∧ s.cs.ctaint = 0 :=
  wit (mk (atA 0x40)) (.ld on t64 0 (ea 2)) (by decide +kernel)
theorem wit_Prefetch_dropped : ∃ s i f, Runs s i f ∧ prefetchOf i = some (t64, ea 2) ∧ s.tr (addrOf s (ea 2)) { r := true } = .ok 0x40 ∧ s.cs.ctaint ≠ 0 :=
  wit (mk { atA 0x40 with ctaint := 1 }) (.ld on t64 0 (ea 2)) (by decide +kernel)

/-- An update's records at an address meet a condition. -/
def updAt (s : State) (i : Instr) (pa : Nat) (k : BitVec 3 → List Rec → Bool) : Bool := (recordsOf s [pa] i).any fun y => k y.1 y.2
/-- An access of eight bytes that writes. -/
def wr8 : Access := ⟨{ w := true }, 8, [0x40], false⟩
theorem wit_Update_inserts : ∃ f x, Runs (mk (atA 0x40)) (.updv on 1 t64 1 (ea 2)) f ∧ accessOf (mk (atA 0x40)) (.updv on 1 t64 1 (ea 2)) = some x ∧
    Placed (mk (atA 0x40)) x [0x40] ∧
    (updAt (mk (atA 0x40)) (.updv on 1 t64 1 (ea 2)) 0x40 fun sc rs => decide (sc = 0) && !mustHold (mk (atA 0x40)) f (rs.map fun r => r.key)
      && decide (loadsOver (mk (atA 0x40)) (rs.map fun r => r.key) = 0) && decide (AllRoom (mk (atA 0x40)) rs)) = true :=
  witA ⟨{ w := true }, 32, [0x40], false⟩ [0x40] (by decide +kernel) (by decide +kernel) (by decide +kernel)
/-- The same with a load in flight of its key. -/
def underLoad (n : Nat) : State := mk { atA 0x40 with tags := [(3, ld0 0x40)], hold := List.replicate n (held1 99) }
theorem wit_Update_waits : ∃ f x, Runs (underLoad 0) (.upd on 1 t64 1 (ea 2)) f ∧ accessOf (underLoad 0) (.upd on 1 t64 1 (ea 2)) = some x ∧
    Placed (underLoad 0) x [0x40] ∧
    (updAt (underLoad 0) (.upd on 1 t64 1 (ea 2)) 0x40 fun _ rs => decide (loadsOver (underLoad 0) (rs.map fun r => r.key) ≠ 0)) = true :=
  witA wr8 [0x40] (by decide +kernel) (by decide +kernel) (by decide +kernel)
theorem wit_Update_turn_lost : ∃ f x, Runs (underLoad 8) (.upd on 1 t64 1 (ea 2)) f ∧ accessOf (underLoad 8) (.upd on 1 t64 1 (ea 2)) = some x ∧
    Placed (underLoad 8) x [0x40] ∧
    (updAt (underLoad 8) (.upd on 1 t64 1 (ea 2)) 0x40 fun _ rs => decide (loadsOver (underLoad 8) (rs.map fun r => r.key) ≠ 0)
      && decide (8 ≤ (underLoad 8).cs.hold.length)) = true :=
  witA wr8 [0x40] (by decide +kernel) (by decide +kernel) (by decide +kernel)
theorem wit_Update_release : ∃ f x, Runs (mk (atA 0x40)) (.upd on 1 ⟨false, 3, 2⟩ 1 (ea 2)) f ∧ accessOf (mk (atA 0x40)) (.upd on 1 ⟨false, 3, 2⟩ 1 (ea 2)) = some x ∧
    Placed (mk (atA 0x40)) x [0x40] ∧
    (updAt (mk (atA 0x40)) (.upd on 1 ⟨false, 3, 2⟩ 1 (ea 2)) 0x40 fun sc rs => decide (sc ≠ 0) && !mustHold (mk (atA 0x40)) f (rs.map fun r => r.key)
      && (mk (atA 0x40)).releaseNow sc none && decide (AllRoom (mk (atA 0x40)) rs)) = true :=
  witA wr8 [0x40] (by decide +kernel) (by decide +kernel) (by decide +kernel)
/-- The machine whose cog 0 is full. -/
def fullCog (n : Nat) : State :=
  mk { atA 0x40 with hold := List.replicate n { held1 99 with mask := 0 } } fun k => { k with cog0 := { recs := List.replicate 64 (rec1 99) } }
theorem wit_Update_no_room : ∃ f x, Runs (fullCog 7) (.updx on 1 t64 4 (ea 2)) f ∧ accessOf (fullCog 7) (.updx on 1 t64 4 (ea 2)) = some x ∧
    Placed (fullCog 7) x [0x40] ∧
    (updAt (fullCog 7) (.updx on 1 t64 4 (ea 2)) 0x40 fun sc rs => decide (sc = 0) && !mustHold (fullCog 7) f (rs.map fun r => r.key)
      && decide (AllRoom (fullCog 7) (rs.take 0)) && rs.head?.any fun r => !(inserted (fullCog 7) (rs.take 0)).mayInsert (fullCog 7).cc none r) = true :=
  witA ⟨{ w := true }, 16, [0x40], false⟩ [0x40] (by decide +kernel) (by decide +kernel) (by decide +kernel)
theorem wit_Update_no_room_turn_lost : ∃ f x, Runs (fullCog 8) (.upd on 1 t64 1 (ea 2)) f ∧ accessOf (fullCog 8) (.upd on 1 t64 1 (ea 2)) = some x ∧
    Placed (fullCog 8) x [0x40] ∧
    (updAt (fullCog 8) (.upd on 1 t64 1 (ea 2)) 0x40 fun sc rs => decide (sc = 0) && !mustHold (fullCog 8) f (rs.map fun r => r.key)
      && rs.head?.any fun r => !(fullCog 8).mayInsert (fullCog 8).cc none r) = true :=
  witA wr8 [0x40] (by decide +kernel) (by decide +kernel) (by decide +kernel)
/-- A tile's image over two pages of two places. -/
def twoPages : State := mk (atA 0xE00) fun k => { k with utlb := [⟨1, 0, 1, 5, true, true, true⟩, ⟨1, 1, 1, 9, true, true, true⟩] }
/-- The places of its 16 lines. -/
def twoPlaces : List Nat := (List.range 8).map (fun j => 0x5E00 + 64 * j) ++ (List.range 8).map fun j => 0x9000 + 64 * j
theorem wit_Tupd : ∃ f x, Runs twoPages (.tupd on 0 t64 (ea 2) 0) f ∧ accessOf twoPages (.tupd on 0 t64 (ea 2) 0) = some x ∧ Placed twoPages x twoPlaces ∧
    ((recordsOf twoPages twoPlaces (.tupd on 0 t64 (ea 2) 0)).any fun y => !mustHold twoPages f (y.2.map fun r => r.key)) = true :=
  witA ⟨{ w := true }, 64, tileLines 0xE00, false⟩ twoPlaces (by decide +kernel) (by decide +kernel) (by decide +kernel)
theorem wit_Tupd_records : ((recordsOf twoPages twoPlaces (.tupd on 0 t64 (ea 2) 0)).any fun y => decide ((y.2.map fun r => r.key) =
    (List.range 64).map (fun j => 0x5E00 / 8 + j) ++ (List.range 64).map fun j => 0x9000 / 8 + j)) = true := by decide +kernel

-- witnesses: SRAM, sync words, ranges

/-- The slab with bank group 11 in deep-scratch mode. -/
def deepSlab (s : State) : State := s.setSlab c0 { modes := [(11, 1)] }
/-- The machine with units in the scratchpad. -/
def sram (x : Slot) (us : Sparse Unit8) : State := mk x fun k => { k with scratch := us }

theorem wit_Sram_forbidden : ∃ s i f, Runs s i f ∧ (sramOf s i).any fun x => x.noDst :=
  wit (mk sl0) (.lds on t64 61 (ea 2)) (by decide +kernel)
theorem wit_Sram_misaligned : ∃ s i f, Runs s i f ∧ (sramOf s i).any fun x => !x.noDst && decide (x.ea.toNat % x.size ≠ 0) :=
  wit (mk (atA 8)) (.syncwait on 2 0) (by decide +kernel)
theorem wit_Sram_outside : ∃ s i f, Runs s i f ∧ (sramOf s i).any fun x => !x.deep && decide (x.ea.toNat % x.size = 0) && decide (placeIn s x = none) :=
  wit (mk (atA 8192)) (.lds on t64 1 (ea 2)) (by decide +kernel)
theorem wit_Sram_outside_deep : ∃ s i f, Runs s i f ∧ (sramOf s i).any fun x => x.deep && decide (x.ea.toNat % x.size = 0) && decide (placeIn s x = none) :=
  wit (mk (atA 8)) (.ldd on t64 1 (ea 2)) (by decide +kernel)
theorem wit_Lds : ∃ s i f, Runs s i f ∧ i = .lds on t64 1 (ea 2) ∧ (sramOf s i).any fun x => decide (placeIn s x = some (4096 + 8184)) :=
  wit (mk (atA 8184)) (.lds on t64 1 (ea 2)) (by decide +kernel)
theorem wit_Ldsv : ∃ s i f, Runs s i f ∧ i = .ldsv on 1 (ea 2) ∧ (sramOf s i).any fun x => decide (placeIn s x = some 4096) :=
  wit (mk sl0) (.ldsv on 1 (ea 2)) (by decide +kernel)
theorem wit_Ldd : ∃ s i f, Runs s i f ∧ i = .ldd on t64 1 (ea 2) ∧ (sramOf s i).any fun x => decide (placeIn s x = some (65536 * 11 + 64 + 8)) :=
  wit (deepSlab (mk (atA 8))) (.ldd on t64 1 (ea 2)) (by decide +kernel)
theorem wit_Stored : ∃ s i f, Runs s i f ∧ (stored s i).isSome = true ∧ (sramOf s i).any fun x => !x.deep && (placeIn s x).isSome :=
  wit (mk (atA 32)) (.stsv on 1 (ea 2)) (by decide +kernel)
theorem wit_Stored_deep : ∃ s i f, Runs s i f ∧ (stored s i).isSome = true ∧ (sramOf s i).any fun x => x.deep && (placeIn s x).isSome :=
  wit (deepSlab (mk (atA 8))) (.std on t64 1 (ea 2)) (by decide +kernel)

theorem wit_Syncinit : ∃ s i f, Runs s i f ∧ i = .syncinit on 2 0 3 ∧ (sramOf s i).any fun x => decide (placeIn s x = some 4112) :=
  wit (mk (atA 16)) (.syncinit on 2 0 3) (by decide +kernel)
theorem wit_Syncadd : ∃ s i f, Runs s i f ∧ i = .syncadd on 2 0 3 ∧ (sramOf s i).any fun x => decide (placeIn s x = some 4112) :=
  wit (mk (withG sl0 [(2, 16), (3, -1)])) (.syncadd on 2 0 3) (by decide +kernel)
/-- A sync word at 4112 with count 1 and a target; the same poisoned. -/
def sync1 (t : Nat) (po : Bool) : State := sram (atA 16) [(514, ⟨BitVec.ofNat 64 (1 + 2 ^ 32 * t), po⟩)]
theorem wit_Syncwait_poisoned : ∃ s i f, Runs s i f ∧ i = .syncwait on 2 0 ∧ (sramOf s i).any fun x => decide (placeIn s x = some 4112) && syncPois (scratchOf s) 4112 :=
  wit (sync1 1 true) (.syncwait on 2 0) (by decide +kernel)
theorem wit_Syncwait_done : ∃ s i f, Runs s i f ∧ i = .syncwait on 2 0 ∧ (sramOf s i).any fun x =>
    decide (placeIn s x = some 4112) && !syncPois (scratchOf s) 4112 && decide (syncTarget (scratchOf s) 4112 ≤ syncCount (scratchOf s) 4112) :=
  wit (sync1 1 false) (.syncwait on 2 0) (by decide +kernel)
theorem wit_Syncwait_turn_lost : ∃ s i f, issueOf s i = some f ∧ Ready s f ∧ i = .syncwait on 2 0 ∧ (sramOf s i).any fun x =>
    decide (placeIn s x = some 4112) && !syncPois (scratchOf s) 4112 && decide (syncCount (scratchOf s) 4112 < syncTarget (scratchOf s) 4112) :=
  witR (sync1 2 false) (.syncwait on 2 0) (by decide +kernel)
theorem wit_Syncget : ∃ s i f, Runs s i f ∧ i = .syncget on 1 2 0 ∧ (sramOf s i).any fun x => !x.noDst && decide (placeIn s x = some 4112) :=
  wit (sync1 1 false) (.syncget on 1 2 0) (by decide +kernel)

theorem wit_Range_beyond : ∃ s i f, Runs s i f ∧ rangeForm i = some (3, 2, 3) ∧ 2 ^ 48 < (s.g 2).toNat + (s.g 3).toNat :=
  wit (mk (withG sl0 [(2, 2 ^ 48), (3, 1)])) (.inval on 3 2 3) (by decide +kernel)
theorem wit_Inval_core : ∃ s i f, Runs s i f ∧ i = .inval on 0 2 0 := wit (mk sl0) (.inval on 0 2 0) (by decide +kernel)
theorem wit_Inval_device : ∃ s i f, Runs s i f ∧ i = .inval on 3 2 3 ∧ (s.g 2).toNat + (s.g 3).toNat = 2 ^ 48 :=
  wit (mk (withG sl0 [(2, 2 ^ 48 - 64), (3, 64)])) (.inval on 3 2 3) (by decide +kernel)
/-- Ranges: all of whose pages the micro-TLB has, and one with a page that it has not. -/
def rangeAt (a b : Word) : Slot := withG sl0 [(2, a), (3, b)]
/-- What a scan of a range has come to. -/
def scanOk (x : Scan) (ps : List (Nat × Nat)) : Bool := match x with
  | .ok _ qs => decide (qs = ps)
  | .miss _ _ => false
def scanMiss (x : Scan) (ks : RangePages) : Bool := match x with
  | .ok _ _ => false
  | .miss _ ls => decide (ls = ks)
theorem wit_Range_pages : ∃ s i f, Runs s i f ∧ rangeForm i = some (3, 2, 3) ∧ HasPages s 3 ∧ scanOk (rangeScan s 2 3) [(0x1234, 0x3000)] = true :=
  wit2 (mk (rangeAt 0x1234 0x3000)) (.inval on 3 2 3) (by decide +kernel) ⟨rfl, ⟨by decide, by decide +kernel, by decide +kernel⟩, by decide +kernel⟩
theorem wit_Range_miss : ∃ s i f, Runs s i f ∧ rangeForm i = some (4, 2, 3) ∧ HasPages s 3 ∧ scanMiss (rangeScan s 2 3) [(0, 1, some 5)] = true :=
  wit2 (mk (rangeAt 0xF00 0x200) fun k => { k with utlb := [⟨1, 0, 1, 5, true, true, true⟩] }) (.drain on 4 2 3) (by decide +kernel)
    ⟨rfl, ⟨by decide, by decide +kernel, by decide +kernel⟩, by decide +kernel⟩
/-- A slot's release has nothing to do, as `NothingToRelease` says. -/
def nothingB (s : State) (scope : BitVec 3) (rg : KeyRange) : Bool :=
  let mine (r : Rec) : Bool := (s.names s.cc s.cur.2).any fun n => r.movers.contains n || r.srcs.contains n
  decide (s.cs.tags = []) && decide (s.cs.hold = [])
    && (inside s.cc scope).all (fun lv => (s.run lv).recs.all fun r => !decide (r.ctx = s.block.ctx) || !inRange rg r.key)
    && s.transit.all (fun x => !mine x.r) && s.acceptedRecs.all fun x => !mine x.r
theorem nothing_of {s : State} {scope : BitVec 3} {rg : KeyRange} (h : nothingB s scope rg = true) : NothingToRelease s scope rg := by
  simp only [nothingB, Bool.and_eq_true, Bool.or_eq_true, Bool.not_eq_true', decide_eq_true_eq, decide_eq_false_iff_not, List.all_eq_true,
    List.any_eq_false, List.contains_iff_mem, not_or] at h
  obtain ⟨⟨⟨⟨h1, h2⟩, h3⟩, h4⟩, h5⟩ := h
  refine ⟨h1, h2, fun lv hl r hr hc => (h3 lv hl r hr).resolve_left (fun hn => hn hc), ?_, ?_⟩
  · rintro - x hx ⟨-, n, hn, hm | hm⟩
    · exact (h4 x hx n hn).1 hm
    · exact (h4 x hx n hn).2 hm
  · rintro - x hx ⟨-, n, hn, hm | hm⟩
    · exact (h5 x hx n hn).1 hm
    · exact (h5 x hx n hn).2 hm
theorem wit_Drain_nothing : ∃ s i f, Runs s i f ∧ i = .drain on 4 2 0 ∧ RangeIs s 2 0 s none ∧ NothingToRelease s 4 none ∧ NoFlagsDue s 4 none :=
  wit2 (mk sl0) (.drain on 4 2 0) (by decide +kernel) ⟨rfl, .inl ⟨rfl, rfl, rfl⟩, nothing_of (by decide +kernel),
    fun _ d hd a ha => by
      have h : ∀ d ∈ (mk sl0).dies.toList, d.acceptq ++ d.hostq = [] := by decide +kernel
      rw [h d hd] at ha; cases ha⟩
theorem wit_Range_empty : ∃ s i f, Runs s i f ∧ i = .inval on 3 2 3 ∧ RangeIs s 2 3 s (some []) :=
  wit2 (mk (rangeAt 0x40 0)) (.inval on 3 2 3) (by decide +kernel) ⟨rfl, .inr (.inl ⟨by decide, by decide +kernel, rfl, rfl⟩)⟩
/-- A load of the slot in flight. -/
def loading : State := mk { sl0 with tags := [(3, ld0 0x40)] }
theorem wit_Drain_waits : ∃ s i f, Runs s i f ∧ i = .drain on 2 2 0 ∧ RangeIs s 2 0 s none ∧ ¬NothingToRelease s 2 none :=
  wit2 loading (.drain on 2 2 0) (by decide +kernel) ⟨rfl, .inl ⟨rfl, rfl, rfl⟩, fun h => absurd h.1 (by decide +kernel)⟩
theorem wit_Fence_nothing : ∃ s i f, Runs s i f ∧ i = .fence on 1 false ∧ NothingToRelease s 1 none :=
  wit2 (mk sl0) (.fence on 1 false) (by decide +kernel) ⟨rfl, nothing_of (by decide +kernel)⟩
theorem wit_Fence_engine : ∃ s i f, Runs s i f ∧ i = .fence on 1 true ∧ NothingToRelease s 1 none ∧ s.fenceApplied s.cc s.cur.2 = true :=
  wit2 (mk sl0) (.fence on 1 true) (by decide +kernel) ⟨rfl, nothing_of (by decide +kernel), by decide +kernel⟩
/-- The machine with a copy of the slot still to be performed. -/
def copying : State := mk sl0 fun k => { k with cmds := [(0, {
  blk := 1, slot := 0, ctx := 1, image := 0, prec := 0, gen := 0, fpcr := 0, seed := 0, gsr := 0, sdesc := 0, ddesc := 0, base := 0 })] }
theorem wit_Fence_engine_waits : ∃ s i f, Runs s i f ∧ i = .fence on 1 true ∧ NothingToRelease s 1 none ∧ s.fenceApplied s.cc s.cur.2 = false :=
  wit2 copying (.fence on 1 true) (by decide +kernel) ⟨rfl, nothing_of (by decide +kernel), by decide +kernel⟩
theorem wit_Fence_waits : ∃ s i f, Runs s i f ∧ i = .fence on 2 true ∧ ¬NothingToRelease s 2 none :=
  wit2 loading (.fence on 2 true) (by decide +kernel) ⟨rfl, fun h => absurd h.1 (by decide +kernel)⟩
theorem wit_Range_keys : scanOk ((mk (rangeAt 0x1234 0x3000)).scanRange [] 5 0x1234 0x4234) [(0x1234, 0x3000)] = true := by decide +kernel
theorem wit_Drain_succeeds : ∃ t, drain (mk sl0 fun k => { k with cog0 := { recs := [rec1 8] } }) c0 1 4 none [7] = some t :=
  Option.isSome_iff_exists.mp (by decide +kernel)
/-- The machine with a pass of a drain over two records of its cog 0. -/
def drainPass : State := mk sl0 fun k =>
  { k with cog0 := { recs := [{ rec1 8 with ctx := 2 }, rec1 9], pass := some { cursor := 5, id := 3, sel := some (1, none), who := [7] } } }
theorem wit_Drain_moves : ∃ u, moveAll (drainPass.setRun (.cog0 c0) { drainPass.run (.cog0 c0) with lastMove := 1600, moves := 1 }) (.cog0 c0) [7]
      [rec1 9] = some u ∧
    drainPass.moves (.cog0 c0) = true ∧ (drainPass.run (.cog0 c0)).mustYield (drainPass.now (.cog0 c0)) = false ∧
    (drainPass.run (.cog0 c0)).lastMove < drainPass.now (.cog0 c0) ∧ (drainPass.run (.cog0 c0)).recs = [{ rec1 8 with ctx := 2 }] ++ rec1 9 :: [] :=
  (Option.isSome_iff_exists.mp (by decide +kernel)).imp fun _ h => ⟨h, by decide +kernel, by decide +kernel, by decide +kernel, by decide +kernel⟩

-- witnesses: the matrix engine's instructions

/-- A descriptor image of a format and a Hadamard run. -/
def dsc (f h : Nat) : Desc := { image := BitVec.ofNat 256 (2 ^ 240 * f + 2 ^ 244 * h), valid := true }
/-- The machine with rings 1 and 2 configured. -/
def rings (fa ha fb : Nat) (k : Core → Core := id) : State := mk sl0 fun x => k { x with
  rings := [(1, { cfg := true, slots := 4096, depth := 4, desc := 3, head := 4094, tail := 1, resv := 2, cons := 4095 }),
    (2, { cfg := true, slots := 8192, depth := 4, desc := 4 })],
  descs := [(3, dsc fa ha), (4, dsc fb 0)] }
/-- An operation of a queue. -/
def op1 (tc : Bool) : MxOp :=
  { tcvt := tc, blk := 1, ctx := 1, tile := 2, qa := 1, qb := 2, ca := 4095, cb := 0, da := (dsc 7 0).image, db := (dsc 7 0).image, fpcr := 0, issued := 0 }
/-- The queue is full. -/
def fullQ (x : Core) : Core := { x with mx := List.replicate 4 (op1 false) }
/-- The governor's window is used up. -/
def spent (x : Core) : Core := { x with budget := 3, used := 3 }

theorem wit_Named_no_tile : ∃ s i f, Runs s i f ∧ (namedOf i).any fun x => noTile s x :=
  wit (mk sl0) (.tzero on 4) (by decide +kernel)
theorem wit_Named_no_ring : ∃ s i f, Runs s i f ∧ (namedOf i).any fun x => !noTile s x && noUnit s x :=
  wit (mk sl0) (.mma on 3 1 2) (by decide +kernel)
theorem wit_Named_no_descriptor : ∃ s i f, Runs s i f ∧ (namedOf i).any fun x => !noTile s x && noUnit s x :=
  wit (mk sl0) (.tdget on 2 0 5) (by decide +kernel)

/-- Nothing stops an instruction before its own waits. -/
def waitsB (s : State) (i : Instr) : Bool :=
  meets s i fun f => !s.cs.anyPend (.p f.gd.p :: (f.reads ++ f.writes)) && !(s.cs.mark (.p f.gd.p)).pois && s.cs.guard f.gd
theorem witW {P : State → Instr → Prop} (s : State) (i : Instr) (h : waitsB s i = true) (hp : P s i) :
    ∃ s i f, issueOf s i = some f ∧ Waiting s f ∧ P s i := by
  obtain ⟨f, hf, hw⟩ := issue_of h
  simp only [Bool.and_eq_true, Bool.not_eq_true'] at hw
  exact ⟨s, i, f, hf, ⟨hw.1.1, hw.1.2, hw.2⟩, hp⟩
/-- An instruction that reads an image reads it. -/
def reads (s : State) (i : Instr) (pas : List Nat) : Bool := meets s i fun f => (imageOf s f pas i).isSome
theorem wit_Image : ∃ f x, Runs (mk (atA 0x80)) (.tdset on 4 2 0) f ∧ accessOf (mk (atA 0x80)) (.tdset on 4 2 0) = some x ∧ Placed (mk (atA 0x80)) x [0x80] ∧
    (imageOf (mk (atA 0x80)) f [0x80] (.tdset on 4 2 0)).isSome = true :=
  witA ⟨{ r := true }, 32, [0x80], false⟩ [0x80] (by decide +kernel) (by decide +kernel) (by decide +kernel)
theorem wit_Image_ring : ∃ f x, Runs (mk (atA 0x80)) (.ringcfg on 1 2 0) f ∧ accessOf (mk (atA 0x80)) (.ringcfg on 1 2 0) = some x ∧
    Placed (mk (atA 0x80)) x [0x80] ∧ (imageOf (mk (atA 0x80)) f [0x80] (.ringcfg on 1 2 0)).isSome = true :=
  witA ⟨{ r := true }, 16, [0x80], false⟩ [0x80] (by decide +kernel) (by decide +kernel) (by decide +kernel)
theorem wit_Ringcfg_waits : ∃ s i f, issueOf s i = some f ∧ Waiting s f ∧ i = .ringcfg on 1 2 0 ∧ 1 < s.block.nring ∧ (s.core s.cc).ringIdle 2 = false :=
  witW (mk sl0 fullQ) (.ringcfg on 1 2 0) (by decide +kernel) (by decide +kernel)
theorem wit_Bsld_outside : ∃ s i f, Runs s i f ∧ i = .bsld on 1023 2 0 3 ∧ (s.g 3).toNat = 2 :=
  wit (mk (withG sl0 [(3, 2)])) (.bsld on 1023 2 0 3) (by decide +kernel)
theorem wit_Bsld_none : ∃ s i f, Runs s i f ∧ i = .bsld on 1023 2 0 3 ∧ (s.g 3).toNat = 0 :=
  wit (mk sl0) (.bsld on 1023 2 0 3) (by decide +kernel)

theorem wit_Ringstat : ∃ s i f, Runs s i f ∧ i = .ringstat on 1 0 ∧ (ringIs s 0).cfg = true := wit (rings 7 0 7) (.ringstat on 1 0) (by decide +kernel)
theorem wit_Ringdrop : ∃ s i f, Runs s i f ∧ i = .ringdrop on 0 2 ∧ (s.core s.cc).ringIdle 1 = true ∧ 0 < s.block.nring :=
  wit (rings 7 0 7) (.ringdrop on 0 2) (by decide +kernel)
theorem wit_Ringdrop_waits : ∃ s i f, issueOf s i = some f ∧ Waiting s f ∧ lockedFor s i = true :=
  witW (rings 7 0 7 fullQ) (.ringdrop on 0 2) (by decide +kernel) (by decide +kernel)
/-- The machine whose block has no tiles allocated. -/
def untiled (n : Nat) : State := (fun (s : State) => s.setBlock c0 1 { s.block with nalloc := 0 }) (mk (withG sl0 [(2, BitVec.ofNat 64 n)]))
theorem wit_Tilecfg_allocated : ∃ s i f, Runs s i f ∧ i = .tilecfg on 2 ∧ s.block.nalloc ≠ 0 := wit (mk sl0) (.tilecfg on 2) (by decide +kernel)
theorem wit_Tilecfg_zero : ∃ s i f, Runs s i f ∧ i = .tilecfg on 2 ∧ s.block.nalloc = 0 ∧ (s.g 2).toNat = 0 := wit (untiled 0) (.tilecfg on 2) (by decide +kernel)
theorem wit_Tilecfg_many : ∃ s i f, Runs s i f ∧ i = .tilecfg on 2 ∧ s.block.nalloc = 0 ∧ s.block.ntile < (s.g 2).toNat :=
  wit (untiled 5) (.tilecfg on 2) (by decide +kernel)
theorem wit_Tilecfg : ∃ s i f, Runs s i f ∧ i = .tilecfg on 2 ∧ s.block.nalloc = 0 ∧ 0 < (s.g 2).toNat ∧ (s.g 2).toNat ≤ s.block.ntile :=
  wit (untiled 4) (.tilecfg on 2) (by decide +kernel)
/-- A core whose tile 2 is locked. -/
def lock2 (x : Core) : Core := { x with tiles := [(2, { busy := 1 })] }
theorem wit_Tilerel_waits : ∃ s i f, issueOf s i = some f ∧ Waiting s f ∧ lockedFor s i = true :=
  witW (mk sl0 lock2) (.tilerel on) (by decide +kernel) (by decide +kernel)
theorem wit_Tilerel : ∃ s i f, Runs s i f ∧ i = .tilerel on ∧ (tileIs s 0).busy = 0 := wit (mk sl0) (.tilerel on) (by decide +kernel)
theorem wit_Tzero_waits : ∃ s i f, issueOf s i = some f ∧ Waiting s f ∧ lockedFor s i = true :=
  witW (mk sl0 lock2) (.tzero on 0) (by decide +kernel) (by decide +kernel)
theorem wit_Tzero : ∃ s i f, Runs s i f ∧ i = .tzero on 3 ∧ 3 < s.block.nalloc ∧ (tileIs s 3).busy = 0 := wit (mk sl0) (.tzero on 3) (by decide +kernel)
theorem wit_Tsts_waits : ∃ s i f, issueOf s i = some f ∧ Waiting s f ∧ lockedFor s i = true :=
  witW (mk sl0 lock2) (.tsts on 2 0 0) (by decide +kernel) (by decide +kernel)
theorem wit_Tsts_misaligned : ∃ s i f, Runs s i f ∧ i = .tsts on 2 32 0 ∧ (tileIs s 0).busy = 0 := wit (mk sl0) (.tsts on 2 32 0) (by decide +kernel)
theorem wit_Tsts_outside : ∃ s i f, Runs s i f ∧ i = .tsts on 2 0 0 ∧ (s.g 2).toNat + 1024 = s.block.scrsize + 64 :=
  wit (mk (atA 7232)) (.tsts on 2 0 0) (by decide +kernel)
theorem wit_Tsts : ∃ s i f, Runs s i f ∧ i = .tsts on 2 0 0 ∧ (s.g 2).toNat + 1024 = s.block.scrsize := wit (mk (atA 7168)) (.tsts on 2 0 0) (by decide +kernel)

theorem wit_Mma_not_configured : ∃ s i f, Runs s i f ∧ i = .mma on 3 0 1 ∧ (ringIs s 0).cfg = false := wit (mk sl0) (.mma on 3 0 1) (by decide +kernel)
theorem wit_Mma_unequal : ∃ s i f, Runs s i f ∧ i = .mma on 3 0 1 ∧ (ringIs s 0).cfg = true ∧ fmtK (descFmt (ringDesc s (ringIs s 0))) ≠ fmtK (descFmt (ringDesc s (ringIs s 1))) :=
  wit (rings 7 0 5) (.mma on 3 0 1) (by decide +kernel)
theorem wit_Mma_waits : ∃ s i f, issueOf s i = some f ∧ Ready s f ∧ i = .mma on 3 0 1 ∧ queueRoom s = false := witR (rings 7 0 8 fullQ) (.mma on 3 0 1) (by decide +kernel)
theorem wit_Mma_governed : ∃ s i f, issueOf s i = some f ∧ Ready s f ∧ i = .mma on 3 0 1 ∧ queueRoom s = true ∧ ¬((s.core s.cc).budget = 0 ∨ (s.core s.cc).used.toNat < (s.core s.cc).budget.toNat) :=
  witR (rings 7 0 8 spent) (.mma on 3 0 1) (by decide +kernel)
theorem wit_Mma : ∃ s i f, Runs s i f ∧ i = .mma on 3 0 0 ∧ queueRoom s = true ∧ (s.core s.cc).budget = 0 := wit (rings 7 0 8) (.mma on 3 0 0) (by decide +kernel)
theorem wit_Tcvt_bad : ∃ s i f, issueOf s i = some f ∧ Ready s f ∧ i = .tcvt on 0 3 ∧ descFmt (ringDesc s (ringIs s 0)) = 11 := witR (rings 11 0 7) (.tcvt on 0 3) (by decide +kernel)
theorem wit_Tcvt_waits : ∃ s i f, issueOf s i = some f ∧ Ready s f ∧ i = .tcvt on 1 3 ∧ queueRoom s = false := witR (rings 7 0 7 fullQ) (.tcvt on 1 3) (by decide +kernel)
theorem wit_Tcvt_full : ∃ s i f, issueOf s i = some f ∧ Ready s f ∧ i = .tcvt on 0 3 ∧ queueRoom s = true ∧ (ringIs s 0).iseg = 0 ∧
    (ringIs s 0).depth.toNat ≤ ((ringIs s 0).resv.toNat + 4096 - (ringIs s 0).head.toNat) % 4096 :=
  witR (rings 7 0 7) (.tcvt on 0 3) (by decide +kernel)
theorem wit_Tcvt : ∃ s i f, Runs s i f ∧ i = .tcvt on 1 3 ∧ queueRoom s = true ∧ (ringIs s 1).iseg = 0 ∧
    (ringIs s 1).depth.toNat = 4 ∧ (ringIs s 1).resv = (ringIs s 1).head :=
  wit (rings 7 0 7) (.tcvt on 1 3) (by decide +kernel)
theorem wit_Tcvt_unconfigured : ∃ s i f, Runs s i f ∧ i = .tcvt on 0 3 ∧ (ringIs s 0).cfg = false := wit (mk sl0) (.tcvt on 0 3) (by decide +kernel)
theorem wit_Image_tld : ∃ f x, Runs twoPages (.tld on 3 2 0) f ∧ accessOf twoPages (.tld on 3 2 0) = some x ∧ Placed twoPages x twoPlaces ∧
    (imageOf twoPages f twoPlaces (.tld on 3 2 0)).isSome = true :=
  witA ⟨{ r := true }, 64, tileLines 0xE00, false⟩ twoPlaces (by decide +kernel) (by decide +kernel) (by decide +kernel)

-- witnesses: copy engine, sequencer, barriers, messages, traps

/-- A command of the block; the machine with it in command slot 2. -/
def cmd0 (st : CmdSt) (kind fmt rm : Nat) : Cmd :=
  { blk := 1, slot := 0, ctx := 1, image := BitVec.ofNat 512 (kind + 2 ^ 64 * 0x1000), prec := 64, gen := 5, fpcr := BitVec.ofNat 64 rm, seed := 0, gsr := 0, sdesc := (dsc 7 0).image, ddesc := (dsc fmt 0).image,
    base := 0, st := st }
def cmds (x : Slot) (m : Cmd) : State := mk x fun k => { k with cmds := [(2, m)] }

theorem wit_Cpystat : ∃ s i f, Runs s i f ∧ i = .cpystat on 1 2 ∧ (s.g 2).toNat < 8 ∧ (cmdAt s (s.g 2).toNat).any fun m => decide (m.blk = s.curBlk) :=
  wit (cmds (atA 2) (cmd0 .running 0 7 0)) (.cpystat on 1 2) (by decide +kernel)
theorem wit_Cpystat_high : ∃ s i f, Runs s i f ∧ i = .cpystat on 1 2 ∧ (s.g 2).toNat = 8 := wit (mk (atA 8)) (.cpystat on 1 2) (by decide +kernel)
theorem wit_Cpyres_bad : ∃ s i f, Runs s i f ∧ i = .cpyres on 2 ∧ cmdAt s ((s.g 2).toNat % 8) = none := wit (mk (atA 2)) (.cpyres on 2) (by decide +kernel)
theorem wit_Cpyres_running : ∃ s i f, Runs s i f ∧ i = .cpyres on 2 ∧ (cmdAt s ((s.g 2).toNat % 8)).any fun m => !isFaulted m :=
  wit (cmds (atA 2) (cmd0 .running 0 7 0)) (.cpyres on 2) (by decide +kernel)
theorem wit_Cpyres_abandons : ∃ s i f, Runs s i f ∧ i = .cpyres on 2 ∧ (s.g 2).getLsbD 8 = true ∧
    (cmdAt s ((s.g 2).toNat % 8)).any fun m => isFaulted m && decide (m.blk = s.curBlk) :=
  wit (cmds (atA 258) (cmd0 (.faulted 0x31 0x1000) 0 7 0)) (.cpyres on 2) (by decide +kernel)
theorem wit_Cpyres_goes : ∃ s i f, Runs s i f ∧ i = .cpyres on 2 ∧ (s.g 2).getLsbD 8 = false ∧
    (cmdAt s ((s.g 2).toNat % 8)).any fun m => isFaulted m && decide (m.blk = s.curBlk) && cmdDraws m :=
  wit (cmds (atA 2) (cmd0 (.faulted 0x31 0x1000) 1 7 5)) (.cpyres on 2) (by decide +kernel)

theorem wit_Dsmode_bad : ∃ s i f, Runs s i f ∧ i = .dsmode on 1 2 ∧ (groupsOf (s.g 2)).any (groupBad s) = true :=
  wit (mk (atA 0xC00)) (.dsmode on 1 2) (by decide +kernel)
theorem wit_Dsmode_nothing : ∃ s i f, Runs s i f ∧ i = .dsmode on 1 2 ∧ groupsOf (s.g 2) = [11] ∧ (groupsOf (s.g 2)).any (groupBad s) = false ∧
    s.dsBusy s.cc [11] = false ∧ Sparse.get 0 (slabOf s).modes 11 = 1 :=
  wit (deepSlab (mk (atA 0x800))) (.dsmode on 1 2) (by decide +kernel)
theorem wit_Dsmode_waits : ∃ s i f, issueOf s i = some f ∧ Ready s f ∧ i = .dsmode on 2 2 ∧ groupsOf (s.g 2) = [11] ∧ s.dsBusy s.cc [11] = true :=
  witR ((mk (atA 0x800)).setSlab c0 { seq := { st := .running } }) (.dsmode on 2 2) (by decide +kernel)
theorem wit_Dsmode_starts : ∃ s i f, Runs s i f ∧ i = .dsmode on 2 2 ∧ groupsOf (s.g 2) = [11] ∧ s.dsBusy s.cc [11] = false ∧
    Sparse.get 0 (slabOf s).modes 11 ≠ 2 :=
  wit (deepSlab (mk (atA 0x800))) (.dsmode on 2 2) (by decide +kernel)

/-- The slab with bank group 11 in compute mode and a sequencer. -/
def seqSlab (x : Slot) (q : Sequencer) : State := (mk x).setSlab c0 { modes := [(11, 2)], seq := q }
theorem wit_Bsrun_high : ∃ s i f, Runs s i f ∧ i = .bsrun on 2 3 ∧ (s.g 2).toNat = 1024 := wit (mk (atA 1024)) (.bsrun on 2 3) (by decide +kernel)
theorem wit_Bsrun_no_group : ∃ s i f, Runs s i f ∧ i = .bsrun on 2 3 ∧ s.computeGroups s.cc s.block.ctx = [] := wit (mk sl0) (.bsrun on 2 3) (by decide +kernel)
theorem wit_Bsrun_waits : ∃ s i f, issueOf s i = some f ∧ Ready s f ∧ i = .bsrun on 2 3 ∧ s.computeGroups s.cc s.block.ctx ≠ [] ∧ (slabOf s).seq.st = .stopped ∧ (slabOf s).seq.owner ≠ s.cur.2 :=
  witR (seqSlab sl0 { st := .stopped, owner := 3 }) (.bsrun on 2 3) (by decide +kernel)
theorem wit_Bsrun : ∃ s i f, Runs s i f ∧ i = .bsrun on 2 3 ∧ s.computeGroups s.cc s.block.ctx ≠ [] ∧ (slabOf s).seq.st = .idle :=
  wit (seqSlab (atA 1023) {}) (.bsrun on 2 3) (by decide +kernel)
theorem wit_Bsres : ∃ s i f, Runs s i f ∧ i = .bsres on ∧ (slabOf s).seq.st = .stopped ∧ (slabOf s).seq.owner = s.cur.2 ∧ (slabOf s).seq.scause.toNat ≠ 4 :=
  wit (seqSlab sl0 { st := .stopped, scause := 2 }) (.bsres on) (by decide +kernel)
theorem wit_Bsres_not : ∃ s i f, Runs s i f ∧ i = .bsres on ∧ (slabOf s).seq.st = .idle := wit (mk sl0) (.bsres on) (by decide +kernel)
theorem wit_Bsstat : ∃ s i f, Runs s i f ∧ i = .bsstat on 1 := wit (mk sl0) (.bsstat on 1) (by decide +kernel)

/-- The machine with barrier register 1. -/
def bars (x : Slot) (b : Barrier) : State := mk x fun k => { k with bars := [(1, b)] }
theorem wit_Bar_outside : ∃ s i f, Runs s i f ∧ barOfInstr i = some 1 ∧ s.block.nbar ≤ 1 := wit (mk sl0) (.barwait on 1) (by decide +kernel)
theorem wit_Barcfg_bad : ∃ s i f, Runs s i f ∧ i = .barcfg on 0 2 ∧ (barIs s 0).count ≠ 0 := wit (bars sl0 { count := 1 }) (.barcfg on 0 2) (by decide +kernel)
theorem wit_Barcfg : ∃ s i f, Runs s i f ∧ i = .barcfg on 0 2 ∧ (barIs s 0).count = 0 ∧ (s.g 2).toNat = barFields (s.g 2) ∧ fieldAt (s.g 2) 16 5 = 31 :=
  wit (bars (atA 0x0F1F0000) {}) (.barcfg on 0 2) (by decide +kernel)
theorem wit_Bararr_waits : ∃ s i f, issueOf s i = some f ∧ Ready s f ∧ i = .bararr on 0 ∧ (barIs s 0).narr.toNat < (barIs s 0).count.toNat :=
  witR (bars sl0 { narr := 1, count := 2 }) (.bararr on 0) (by decide +kernel)
theorem wit_Bararr : ∃ s i f, Runs s i f ∧ i = .bararr on 0 ∧ (barIs s 0).count.toNat ≤ (barIs s 0).narr.toNat :=
  wit (bars sl0 { narr := 1, count := 1 }) (.bararr on 0) (by decide +kernel)
theorem wit_Barwait_waits : ∃ s i f, issueOf s i = some f ∧ Ready s f ∧ i = .barwait on 0 ∧ Sparse.find s.cs.caps 0 = some (barIs s 0).phase :=
  witR (bars { sl0 with caps := [(0, 3)] } { phase := 3 }) (.barwait on 0) (by decide +kernel)
theorem wit_Barwait : ∃ s i f, Runs s i f ∧ i = .barwait on 0 ∧ Sparse.find s.cs.caps 0 ≠ some (barIs s 0).phase :=
  wit (bars { sl0 with caps := [(0, 3)] } { phase := 4 }) (.barwait on 0) (by decide +kernel)

/-- A message on its way. -/
def msg0 : Msg :=
  { src := c0, sslot := 0, score := 0, ctx := 1, boot := false, ddie := 0, dcore := 0, dslot := 0, gen := 5, tag := 1, words := [⟨1, false⟩], sent := 1 }
theorem wit_Send_misaligned : ∃ s i f, Runs s i f ∧ i = .send on 1 15 2 4 ∧ s.g 2 = 0 := wit (mk sl0) (.send on 1 15 2 4) (by decide +kernel)
theorem wit_Send_outside : ∃ s i f, Runs s i f ∧ i = .send on 1 15 2 0 ∧ (s.g 2).toNat + 128 = s.block.scrsize + 8 :=
  wit (mk (atA 8072)) (.send on 1 15 2 0) (by decide +kernel)
theorem wit_Send_waits : ∃ s i f, issueOf s i = some f ∧ Waiting s f ∧ queueWait s i = true :=
  witW (mk sl0 fun k => { k with outq := List.replicate 8 msg0 }) (.send on 1 15 2 0) (by decide +kernel) (by decide +kernel)
theorem wit_Send_bad : ∃ s i f, Runs s i f ∧ i = .send on 1 15 2 0 ∧ (s.core s.cc).outq = [] ∧ s.badDest = true :=
  wit lame (.send on 1 15 2 0) (by decide +kernel)
theorem wit_Send : ∃ s i f, Runs s i f ∧ i = .send on 1 15 2 0 ∧ (s.g 2).toNat + 128 = s.block.scrsize ∧ (s.core s.cc).outq.length = 7 ∧ s.badDest = false :=
  wit (mk (atA 8064) fun k => { k with outq := List.replicate 7 msg0 }) (.send on 1 15 2 0) (by decide +kernel)
/-- A message in an inbox. -/
def in0 : InMsg := ⟨0, 0, 3, 2, 9, 1, [⟨7, false⟩]⟩
theorem wit_Inpop_waits : ∃ s i f, issueOf s i = some f ∧ Waiting s f ∧ queueWait s i = true :=
  witW (mk sl0) (.inpop on 1) (by decide +kernel) (by decide +kernel)
theorem wit_Inpop : ∃ s i f, Runs s i f ∧ i = .inpop on 1 ∧ s.cs.inbox = [in0] := wit (mk { sl0 with inbox := [in0] }) (.inpop on 1) (by decide +kernel)
/-- The machine whose core 0 is the gateway of spoke 1, with words that came in a cycle in the queue. -/
def gate (n m : Nat) : State := { mk sl0 with spokes := State.reset.spokes.set 1 { gates := [c0], gq := List.replicate n (5, m) } }
theorem wit_Gqtake_no_gateway : ∃ s i f, Runs s i f ∧ i = .gqtake on 1 ∧ gateOf s = none := wit (mk sl0) (.gqtake on 1) (by decide +kernel)
theorem wit_Gqtake_waits : ∃ s i f, issueOf s i = some f ∧ Waiting s f ∧ queueWait s i = true :=
  witW (gate 1 1600) (.gqtake on 1) (by decide +kernel) (by decide +kernel)
theorem wit_Gqtake : ∃ s i f, Runs s i f ∧ i = .gqtake on 1 ∧ gateOf s = some 1 ∧ gqOf s 1 = [(5, 3)] := wit (gate 1 3) (.gqtake on 1) (by decide +kernel)
theorem wit_Gqput_no_gateway : ∃ s i f, Runs s i f ∧ i = .gqput on 1 ∧ gateOf s = none := wit (mk sl0) (.gqput on 1) (by decide +kernel)
theorem wit_Gqput_waits : ∃ s i f, issueOf s i = some f ∧ Waiting s f ∧ queueWait s i = true :=
  witW (gate 64 3) (.gqput on 1) (by decide +kernel) (by decide +kernel)
theorem wit_Gqput : ∃ s i f, Runs s i f ∧ i = .gqput on 1 ∧ gateOf s = some 1 ∧ (gqOf s 1).length = 63 := wit (gate 63 3) (.gqput on 1) (by decide +kernel)

/-- The slot's block as boot state's. -/
def inBoot (s : State) : State := s.setBlock c0 1 { s.block with boot := true }
/-- The slot's block, and a condition of it. -/
theorem may_trap {s : State} {c : CoreId} {k : BitVec 4} (h : ((s.blockOf c (s.slot c k)).any fun b => !b.boot) = true)
    (h2 : (!(s.slot c k).trapcause.getLsbD 8 && decide ((s.slot c k).trapvec ≠ 0)) = true) : MayTrap s c k := by
  simp only [Bool.and_eq_true, Bool.not_eq_true', decide_eq_true_eq] at h2
  cases hb : s.blockOf c (s.slot c k) with
  | none => rw [hb] at h; cases h
  | some b =>
    rw [hb] at h
    simp only [Option.any_some, Bool.not_eq_true'] at h
    exact ⟨⟨b, hb, h⟩, h2.1, h2.2⟩
theorem wit_Trap_taken : MayTrap (mk sl0) c0 0 := may_trap (by decide +kernel) (by decide +kernel)
theorem wit_Trap_ends : ((mk { sl0 with trapvec := 0 }).blockOf c0 ((mk { sl0 with trapvec := 0 }).slot c0 0)).any fun b => !b.boot := by decide +kernel
theorem wit_Trap_in_boot : ((inBoot (mk sl0)).blockOf c0 ((inBoot (mk sl0)).slot c0 0)).any fun b => b.boot := by decide +kernel
theorem wit_Trap : ∃ s i f, Runs s i f ∧ i = .trap on 7 ∧ MayTrap s s.cc s.cur.2 :=
  wit2 (mk sl0) (.trap on 7) (by decide +kernel) ⟨rfl, may_trap (by decide +kernel) (by decide +kernel)⟩
theorem wit_Brk : ∃ s i f, Runs s i f ∧ i = .brk on 7 ∧ (s.ctx s.block.ctx).ent.getLsbD 10 = false ∧ MayTrap s s.cc s.cur.2 :=
  wit2 (mk sl0) (.brk on 7) (by decide +kernel) ⟨rfl, by decide +kernel, may_trap (by decide +kernel) (by decide +kernel)⟩
/-- The machine whose context has replayable faults, a debugger and a fault queue. -/
def debugged (x : Slot) : State := { mk x with
  ctxs := State.reset.ctxs.set 1 { ent := BitVec.ofNat 256 (16 + 2 ^ 9 + 2 ^ 10 + 2 ^ 32 * 0x010B + 2 ^ 64 + 2 ^ 208 * 0x4000) } }
theorem wit_Brk_told : ∃ s i f, Runs s i f ∧ i = .brk on 7 ∧ (s.ctx s.block.ctx).ent.getLsbD 10 = true ∧ (s.ctx s.block.ctx).ent.toNat / 2 ^ 208 % 2 ^ 48 ≠ 0 ∧
    s.block.boot = false :=
  wit (debugged sl0) (.brk on 7) (by decide +kernel)
theorem wit_Tret : ∃ s i f, Runs s i f ∧ i = .tret on ∧ s.cs.trapcause.getLsbD 8 = true := wit (mk { sl0 with trapcause := 0x10D, trappc := 0x1000C }) (.tret on) (by decide +kernel)
theorem wit_Tret_outside : ∃ s i f, Runs s i f ∧ i = .tret on ∧ s.cs.trapcause.getLsbD 8 = false := wit (mk sl0) (.tret on) (by decide +kernel)
theorem wit_Exit : ∃ s i f, Runs s i f ∧ i = .exit on := wit (mk sl0) (.exit on) (by decide +kernel)
theorem wit_Hubcall : ∃ s i f, Runs s i f ∧ i = .hubcall on 2 4 5 := wit (mk sl0) (.hubcall on 2 4 5) (by decide +kernel)
theorem wit_Chkpt : ∃ s i f, Runs s i f ∧ i = .chkpt on 6 ∧ s.block.yieldReq = false := wit (mk sl0) (.chkpt on 6) (by decide +kernel)
theorem wit_Chkpt_yield : ∃ s i f, Runs s i f ∧ i = .chkpt on 6 ∧ s.block.yieldReq = true :=
  wit ((fun (s : State) => s.setBlock c0 1 { s.block with yieldReq := true }) (mk sl0)) (.chkpt on 6) (by decide +kernel)

-- witnesses: microinstructions, loads in flight, the hold queue, releases

/-- A microinstruction's fields; the sequencer runs at an index in a loop. -/
def mi (wm1 : BitVec 6) (d a b c : Byte) (imm : BitVec 18) : Micro := ⟨wm1, d, a, b, c, false, false, false, imm⟩
def runs2 (pc : BitVec 10) (lact : Bool) (lidx : BitVec 10) (lc : Byte) : State :=
  seqSlab sl0 { st := .running, pc := pc, lact := lact, lidx := lidx, lc := lc, ctx := 1 }

theorem wit_Micro : ∃ s i, (microForm (slabOf s).seq.ofs i).any (fun x => x.u.wfFor x.op && decide (rowD x.u 0 + x.dw = 256)
    && x.srcs.all fun y => decide (y.1 + y.2 ≤ 256)) = true ∧ SeqReady s ∧ (slabOf s).seq.pc.toNat = 1022 ∧ computes s 11 :=
  ⟨runs2 1022 false 0 0, .mfadd (mi 31 224 0 32 0 2), by decide +kernel, by decide +kernel, by decide +kernel, by decide +kernel⟩
theorem wit_Micro_not_ready : ∃ s i, (microOf i).isSome = true ∧ ¬SeqReady s := ⟨mk sl0, .mzero (mi 0 0 0 0 0 0), by decide +kernel, by decide +kernel⟩
theorem wit_Micro_bad : ∃ s i, (microOf i).any (fun x => !x.2.wfFor x.1) = true ∧ SeqReady s :=
  ⟨runs2 0 false 0 0, .mend (mi 1 0 0 0 0 0), by decide +kernel, by decide +kernel⟩
theorem wit_Micro_row : ∃ s i, (microForm (slabOf s).seq.ofs i).any (fun x => x.u.wfFor x.op && decide (256 < rowD x.u (slabOf s).seq.ofs + x.dw)) = true ∧ SeqReady s :=
  ⟨runs2 0 false 0 0, .mzero (mi 1 255 0 0 0 0), by decide +kernel, by decide +kernel⟩
theorem wit_Mloop_target : SeqReady (runs2 5 false 0 0) ∧ (mi 0 0 2 0 3 6).wfFor .mloop = true ∧ (slabOf (runs2 5 false 0 0)).seq.pc.toNat < 6 := by decide +kernel
theorem wit_Mloop_nested : SeqReady (runs2 5 true 4 0) ∧ (mi 0 0 2 0 3 5).wfFor .mloop = true ∧ (slabOf (runs2 5 true 4 0)).seq.lidx ≠ (slabOf (runs2 5 true 4 0)).seq.pc := by
  decide +kernel
theorem wit_Mloop_goes : SeqReady (runs2 5 false 0 0) ∧ (mi 0 0 2 0 3 5).wfFor .mloop = true ∧ (slabOf (runs2 5 false 0 0)).seq.lact = false := by decide +kernel
theorem wit_Mloop_ends : SeqReady (runs2 1022 true 1022 0) ∧ (mi 0 0 2 0 3 5).wfFor .mloop = true ∧ (slabOf (runs2 1022 true 1022 0)).seq.lidx = 1022 ∧
    (slabOf (runs2 1022 true 1022 0)).seq.lc = 0 := by decide +kernel
theorem wit_Mend : SeqReady (runs2 1023 false 0 0) ∧ (mi 0 0 0 0 0 0).wfFor .mend = true := by decide +kernel

theorem wit_Long_result : ((mk { sl0 with longs := [⟨.g 61, 5, 0, false, 1601, false⟩] }).slot c0 0).longs[0]? = some ⟨.g 61, 5, 0, false, 1601, false⟩ ∧
    1601 ≤ (mk { sl0 with longs := [⟨.g 61, 5, 0, false, 1601, false⟩] }).instant c0 ∧
    ((mk { sl0 with longs := [⟨.g 61, 5, 0, false, 1601, false⟩] }).core c0).outq.length < 8 := by decide +kernel
/-- The machine with a load in flight under tag 3; with a snapshot of line 1; a load at a scope. -/
def fly (l : Load) (k : Core → Core := id) : State := mk { sl0 with tags := [(3, l)] } k
def snap1 (x : Core) : Core := { x with l1 := [⟨1, List.replicate 64 0, 0, 5, 0⟩] }
def ld1 (scope : BitVec 3) : Load := { ld0 0x40 with scope := scope, left := 4 }
/-- Least rotations are at most 169, whatever lies in the memory-side cache; a row opens where its stack has no limit. -/
theorem homeRot_le (d : BitVec 3) (pa m : Nat) : homeRot d pa m ≤ 169 := by
  unfold homeRot; repeat' split
  all_goals decide
theorem openRow_some (s : State) (line m : Nat) (h : (s.die (homeDie (64 * line))).actlim = Vector.replicate 2 none) : s.openRow line m = some s := by
  have hz (i : Fin 2) : (s.die (homeDie (64 * line))).actlim[i] = none := by rw [h]; revert i; decide
  unfold State.openRow
  simp only [hz]
theorem wit_Return_snapshot : InFlight (fly (ld1 4) snap1) c0 0 3 (ld1 4) ∧ (ld1 4).st = .going ∧ baseOnly (ld1 4).kind = some false ∧
    Unblocked (fly (ld1 4) snap1) c0 0 (ld1 4) ∧ (ld1 4).issued + 16 * (2 + (fly (ld1 4) snap1).filterRot c0 1) ≤ (fly (ld1 4) snap1).instant c0 ∧
    MayLook (fly (ld1 4) snap1) c0 false 1 ∧ isHost 0x40 = false ∧ ((fly (ld1 4) snap1).snapshotFor c0 4 false 0 1).isSome = true := by decide +kernel
/-- An atomic in flight, its element read or not; a compare and swap. -/
def at0 (scope : BitVec 3) (got : Option (Nat × Bool)) : Load :=
  { ld0 0x40 with kind := .atom (rec1 8), elems := [{ pa := 0x40, size := 8, got := got }], scope := scope }
def cas0 (scope : BitVec 3) (v : Word) : Load := { at0 scope none with kind := .cas v (rec1 8) }
theorem wit_Return_atomic : InFlight (fly (at0 1 (some (0, false)))) c0 0 3 (at0 1 (some (0, false))) ∧ baseOnly (at0 1 (some (0, false))).kind = none ∧
    (at0 1 (some (0, false))).elems = [{ pa := 0x40, size := 8, got := some (0, false) }] ∧
    (at0 1 (some (0, false))).issued + 16 * (atomRot 0 1 0x40 4 + (at0 1 (some (0, false))).moves) ≤ (fly (at0 1 (some (0, false)))).instant c0 := by decide +kernel
/-- A load with its piece read, one that waits for a validation, one at a peer. -/
def ld2 : Load := { ld0 0x40 with elems := [{ pa := 0x40, size := 8, got := some (7, true) }] }
def ld3 : Load := { ld2 with st := .returned, valid := [1], scope := 3 }
def ldp : Load := { ld0 (2 ^ 40) with left := 4 }
/-- The machine 600,000 cycles on. -/
def late (s : State) : State := { s with dies := s.dies.set 0 { (s.die 0) with clock := 600000 } }
/-- The load 600,000 cycles after its issue. -/
def flown : State := late (fly (ld1 0))
theorem wit_Return_home : InFlight flown c0 0 3 (ld1 0) ∧ flown.coreRuns c0 = true ∧ (ld1 0).st = .going ∧ baseOnly (ld1 0).kind = some false ∧
    (ld1 0).elems[0]? = some { pa := 0x40, size := 8 } ∧ Unblocked flown c0 0 (ld1 0) ∧ MayLook flown c0 false 1 ∧
    flown.snapshotFor c0 0 false 0 1 = none ∧ flown.homeReady c0 1 = true ∧ flown.lineMoving 0 1 = false ∧
    HomeTime flown c0 (ld1 0) false 0x40 ∧ flown.openRow 1 4 = some flown := by
  refine ⟨by decide +kernel, by decide +kernel, rfl, rfl, rfl, by decide +kernel, by decide +kernel, by decide +kernel, by decide +kernel,
    by decide +kernel, ?_, openRow_some _ _ _ (by decide +kernel)⟩
  have h := homeRot_le 0 0x40 4
  have hf : flown.filterRot c0 1 = 0 := by decide +kernel
  have hi : flown.instant c0 = 600001 := by decide +kernel
  show 0 + 16 * (homeRot 0 0x40 4 + flown.filterRot c0 1) ≤ _
  omega
theorem wit_Finish_waits : ∃ e ∈ (ld1 0).elems, e.got = none := by decide +kernel
theorem wit_Finish : ∀ e ∈ ld2.elems, e.got ≠ none := by decide +kernel
theorem wit_Write_load : ld2.kind ≠ .gather ∧ ld2.dst = [.g 9] ∧ markless 9 = false ∧ ld2.elems = [{ pa := 0x40, size := 8, got := some (7, true) }] ∧
    7 < 2 ^ (8 * 2 ^ ld2.w.toNat) := by decide +kernel
theorem wit_Perform : InFlight (late (fly ld3 snap1)) c0 0 3 ld3 ∧ ld3.st = .returned ∧
    (late (fly ld3 snap1)).coreRuns c0 = true ∧ (∀ n ∈ ld3.valid, Validates (late (fly ld3 snap1)) c0 ld3 n) ∧
    (late (fly ld3 snap1)).openRows ld3.left ld3.valid = some (late (fly ld3 snap1)) := by
  refine ⟨by decide +kernel, rfl, by decide +kernel, fun n hn => ⟨?_, ?_⟩, ?_⟩
  · obtain rfl : n = 1 := by simpa [ld3] using hn
    decide +kernel
  · have h := homeRot_le c0.die (64 * n) ld3.left
    have hi : (late (fly ld3 snap1)).instant c0 = 600001 := by decide +kernel
    show 0 + _ ≤ _
    omega
  · show ((late (fly ld3 snap1)).openRow 1 ld3.left).bind _ = _
    rw [openRow_some _ _ _ (by decide +kernel)]; rfl
theorem wit_Validate : ∃ y ∈ ((fly ld3 snap1).validate c0 4 1 |>.core c0).l1, y.line = 1 := by decide +kernel
theorem wit_Timeout : InFlight (late (fly ldp)) c0 0 3 ldp ∧ ldp.issued + 600000 ≤ (late (fly ldp)).instant c0 ∧ ldp.st = .going ∧
    (late (fly ldp)).coreRuns c0 = true ∧ ∃ e ∈ ldp.elems, unanswered (late (fly ldp)) 0 e = true := by decide +kernel
/-- A validation that waits for a peer. -/
def ld4 : Load := { ld3 with valid := [2 ^ 34] }
theorem wit_Timeout_validation : InFlight (late (fly ld4)) c0 0 3 ld4 ∧ ld4.issued + 600000 ≤ (late (fly ld4)).instant c0 ∧ ld4.st = .returned ∧
    (late (fly ld4)).coreRuns c0 = true ∧ (∃ n ∈ ld4.valid, silent (late (fly ld4)) 0 (64 * n) = true) ∧
    (∀ n ∈ ld4.valid, silent (late (fly ld4)) 0 (64 * n) = true) ∧
    ld4.valid.filter (fun n => !silent (late (fly ld4)) 0 (64 * n)) = [] := by decide +kernel
theorem wit_Drop : ∃ e ∈ ((fly ld3 snap1).core c0).l1, e.line = 1 := by decide +kernel

/-- An atomic's step can be taken; at a level with room for its record, at a level with none, at the home. -/
def atomAt (s : State) (l : Load) (k : State → Bool) : Bool :=
  decide (InFlight s c0 0 3 l) && decide (Unblocked s c0 0 l) && (s.evictKey c0 l.scope 8).any fun y =>
    y.1.homeReady c0 1 && !y.1.lineMoving 0 1 && decide ((y.1.die (homeDie 64)).actlim = Vector.replicate 2 none) && k y.1
theorem wit_Atomic_level : atomAt (fly (at0 1 none)) (at0 1 none) (fun t => decide ((t.snapshotFor c0 1 false 0 1) = none)
    && (shotIn { t with seqno := t.seqno + 1 } c0 1 0 0).room (level1 c0) (rec1 8)) = true ∧ levelOf c0 1 = some (level1 c0) := by decide +kernel
theorem wit_Atomic_snapshot : atomAt (fly (at0 1 none) snap1) (at0 1 none) (fun t => (t.snapshotFor c0 1 false 0 1).isSome
    && t.room (level1 c0) (rec1 8)) = true := by decide +kernel
theorem wit_Atomic_none : atomAt (fly (cas0 0 3)) (cas0 0 3) (fun t => decide ((t.snapshotFor c0 0 false 0 1) = none)) = true ∧ levelOf c0 0 = some (level0 c0) ∧
    newRecord (cas0 0 3) 0 (cas0 0 3).kind = none := by decide +kernel
theorem wit_Atomic_home : atomAt (fly (cas0 3 0)) (cas0 3 0) (fun t => !(t.die (homeDie 64)).snoop.contains 1) = true ∧ levelOf c0 3 = none ∧
    newRecord (cas0 3 0) 0 (cas0 3 0).kind = some (rec1 8) := by decide +kernel
theorem wit_Atomic_home_none : atomAt (fly (cas0 4 1)) (cas0 4 1) (fun t => !(t.die (homeDie 64)).snoop.contains 1) = true ∧ levelOf c0 4 = none ∧
    newRecord (cas0 4 1) 0 (cas0 4 1).kind = none := by decide +kernel

/-- Entries of a hold queue: a load, an update of two records, a release. -/
def hl : Held := { mask := 0, loads := 0, keys := [8], op := .load 3 }
def hu (op : HeldOp) : Held := { mask := 0, loads := 0, keys := [8, 9], op := op }
def hup : Held := hu (.upd [rec1 8, rec1 9] 0 .todo)
def hrel (ph : DrainSt) : Held := hu (.upd [rec1 8] 4 ph)
def queue (q : List Held) (k : Core → Core := id) : State := mk { sl0 with hold := q, tags := [(3, { ld1 0 with st := .held })] } k
/-- Cog 0 with a number of records. -/
def cog (n : Nat) (x : Core) : Core := { x with cog0 := { recs := (List.range n).map fun j => rec1 (100 + j) } }
theorem wit_Held_load : NextIs (queue [held1 8, hl, held1 9]) c0 0 [held1 8] hl [held1 9] ∧ InFlight (queue [held1 8, hl, held1 9]) c0 0 3 { ld1 0 with st := .held } := by
  refine ⟨⟨by decide +kernel, rfl, rfl, fun x hx => ?_⟩, by decide +kernel⟩
  obtain rfl : x = held1 8 := by simpa using hx
  exact ⟨.inl (by decide), fun rs scope ph h => by injection h with _ h; exact h.symm⟩
theorem wit_Held_update : NextIs (queue [hup]) c0 0 [] hup [] ∧ FirstRoom (queue [hup]) c0 none [rec1 8, rec1 9] 2 :=
  ⟨⟨by decide +kernel, rfl, rfl, fun x hx => by cases hx⟩, by decide +kernel⟩
theorem wit_Held_update_waits : NextIs (queue [hup] (cog 63)) c0 0 [] hup [] ∧ FirstRoom (queue [hup] (cog 63)) c0 none [rec1 8, rec1 9] 1 ∧
    (insertedAt (queue [hup] (cog 63)) c0 [rec1 8]).mayInsert c0 none (rec1 9) = false :=
  ⟨⟨by decide +kernel, rfl, rfl, fun x hx => by cases hx⟩, by decide +kernel, by decide +kernel⟩
/-- Every step of a drain: the steps that need no level, and those of cog 0 with a record of the context. -/
theorem wit_Release_drains : ((queue [hrel .todo]).slot c0 0).hold = [hrel .todo] ∧ (hrel .todo).mask = 0 ∧ (hrel .todo).loads = 0 ∧
    DrainMoves (queue [hrel .todo]) c0 1 4 none [] .todo (.level 0 none) (queue [hrel .todo]) :=
  ⟨by decide +kernel, rfl, rfl, .start⟩
theorem wit_Release_passes : ∃ t, DrainMoves (mk sl0 (cog 1)) c0 1 4 none [] (.level 0 none) (.level 0 (some 17)) t :=
  ⟨_, .pass 0 (.cog0 c0) rfl ⟨rec1 100, by decide +kernel⟩ (by decide +kernel) (by decide +kernel)⟩
theorem wit_Release_over : DrainMoves (mk sl0) c0 1 4 none [] (.level 3 none) .sent (mk sl0) ∧
    DrainMoves (mk sl0) c0 1 4 none [] (.level 1 none) (.level 2 none) (mk sl0) ∧
    DrainMoves (mk sl0) c0 1 4 none [] (.level 1 (some 7)) (.level 2 none) (mk sl0) :=
  ⟨.over 3 (by decide), .empty 1 (level1 c0) rfl (by decide +kernel), .past 1 (level1 c0) 7 rfl (fun p h => by
    have : ((mk sl0).run (level1 c0)).pass = none := by decide +kernel
    rw [this] at h; cases h)⟩
theorem wit_Release_completes : (hrel .sent).op = .upd [rec1 8] 4 .sent ∧ CameHome (queue [hrel .sent]) 4 [7] ∧ FirstRoom (queue [hrel .sent]) c0 none [rec1 8] 1 :=
  ⟨rfl, fun _ => ⟨fun x hx => absurd hx (by
    have : (queue [hrel .sent]).transit = [] := by decide +kernel
    rw [this]; exact List.not_mem_nil), fun _ x hx => absurd hx (by
    have : (queue [hrel .sent]).acceptedRecs = [] := by decide +kernel
    rw [this]; exact List.not_mem_nil)⟩, by decide +kernel⟩
/-- A slot held by a drain or by the end of a fence. -/
def holds (b : Busy) : State := mk { sl0 with busy := some b }
def dr (fence : Option Bool) (ph : DrainSt) : State := holds (.drain 2 none fence ph 0)
theorem wit_Drain_goes : ((dr none .todo).slot c0 0).busy = some (.drain 2 none none .todo 0) ∧ ((dr none .todo).slot c0 0).tags = [] ∧
    ((dr none .todo).slot c0 0).hold = [] := by decide +kernel
theorem wit_Drain_completes : ((dr none .sent).slot c0 0).busy = some (.drain 2 none none .sent 0) ∧ CameHome (dr none .sent) 2 [7] ∧
    FlagsRaised (dr none .sent) 2 none [7] ∧ ((dr none .sent).slot c0 0).hold = [] :=
  ⟨by decide +kernel, fun h => absurd h (by decide), fun h => absurd h (by decide), by decide +kernel⟩
theorem wit_Fence_completes : ((dr (some false) .sent).slot c0 0).busy = some (.drain 2 none (some false) .sent 0) := by decide +kernel
theorem wit_Fence_engine_completes : ((dr (some true) .sent).slot c0 0).busy = some (.drain 2 none (some true) .sent 0) ∧
    (dr (some true) .sent).fenceApplied c0 0 = true := by decide +kernel
/-- The same with a record that the slot's release moved on its way. -/
def sent1 (s : State) : State := { s with transit := [{ id := 99, die := 0, r := { rec1 8 with movers := [slotName c0 0 sl0] } }] }
theorem wit_Fence_engine_waits_on : ((sent1 (dr (some true) .sent)).slot c0 0).busy = some (.drain 2 none (some true) .sent 0) ∧
    (sent1 (dr (some true) .sent)).fenceApplied c0 0 = false := by decide +kernel
theorem wit_Fence_applied : ((holds .fenceApply).slot c0 0).busy = some .fenceApply ∧ (holds .fenceApply).fenceApplied c0 0 = true := by decide +kernel

-- witnesses: records, passes, the base, the host, turns, translation, saves

/-- Two records of one key word, of whole elements, that combine. -/
def ra : Rec := { rec1 8 with op := 0 }
def rb : Rec := { rec1 8 with op := 1 }
theorem wit_Combine : WholeElements ra ∧ WholeElements rb ∧ ra.key = rb.key ∧ bothFloat ra rb = false ∧ (combine ra rb).isSome = true := by decide +kernel
theorem wit_Combine_contexts : ra.ctx ≠ ({ rb with ctx := 2 } : Rec).ctx := by decide
/-- Cog 0 of core 0 with records and a pass. -/
def run0 (rs : List Rec) (pass : Option Pass) : State := mk sl0 fun x => { x with cog0 := { recs := rs, pass := pass } }
theorem wit_Insert_new : (run0 [] none).heldAt (.cog0 c0) rb.key = none := by decide +kernel
theorem wit_Insert_combines : (run0 [ra] none).heldAt (.cog0 c0) rb.key = some ra ∧ (combine ra rb).isSome = true ∧ isRace (.cog0 c0) ra rb = false := by decide +kernel
/-- A record that no other combines with; cog 1 full of other keys. -/
def rx : Rec := { rb with op := 3 }
theorem wit_Insert_evicts : (run0 [rx] none).heldAt (.cog0 c0) rb.key = some rx ∧ combine rx rb = none := by decide +kernel
theorem wit_Watermark : Works (run0 ((List.range 48).map fun j => rec1 j) none) (.cog0 c0) ∧
    markOf (run0 ((List.range 48).map fun j => rec1 j) none) (.cog0 c0) ≤ ((run0 ((List.range 48).map fun j => rec1 j) none).run (.cog0 c0)).recs.length := by decide +kernel
/-- The machine at cycle 2,048. -/
def idle (s : State) : State := { s with dies := s.dies.set 0 { (s.die 0) with clock := 2048 } }
theorem wit_Idle_pass : Works (idle (run0 [ra] none)) (.cog0 c0) ∧ ((idle (run0 [ra] none)).run (.cog0 c0)).recs ≠ [] ∧
    ((idle (run0 [ra] none)).run (.cog0 c0)).lastIns + 2048 ≤ ((idle (run0 [ra] none)).die 0).clock := by decide +kernel
theorem wit_Move_ends : Works (run0 [ra] (some { cursor := 9 })) (.cog0 c0) ∧ ∀ r ∈ ((run0 [ra] (some { cursor := 9 })).run (.cog0 c0)).recs, r.key < 9 := by decide +kernel
theorem wit_Move : Works (run0 [rec1 3, ra] (some { cursor := 4 })) (.cog0 c0) ∧
    ((run0 [rec1 3, ra] (some { cursor := 4 })).run (.cog0 c0)).recs = [rec1 3] ++ ra :: [] ∧ ¬Yields ((run0 [rec1 3, ra] none).run (.cog0 c0)) 1600 ∧
    (let s := run0 [rec1 3, ra] (some { cursor := 4 })
     (State.removeRec (s.setRun (.cog0 c0) { s.run (.cog0 c0) with lastMove := 1600, moves := 1 }) (.cog0 c0) 8).roomOut (.cog0 c0) ra) = true := by decide +kernel
theorem wit_Move_yields : Works (run0 [ra] (some {})) (.cog0 c0) ∧ Yields { ((run0 [ra] (some {})).run (.cog0 c0)) with looked := 1601 } 1600 := by decide +kernel
/-- A die with a race trace ring of one entry for context 1, full or not. -/
def ring1 (prod : Nat) : State := (mk sl0).setDie 0 { (mk sl0).die 0 with race := some { ctx := 1, base := 0x1000, len := 1, prod := prod, cons := 0 } }
theorem wit_Race_logs : ((ring1 0).die 0).race = some { ctx := 1, base := 0x1000, len := 1, prod := 0, cons := 0 } ∧ ra.ctx = 1 ∧ 0 - 0 < 1 := by decide +kernel
theorem wit_Race_drops : ((ring1 1).die 0).race = some { ctx := 1, base := 0x1000, len := 1, prod := 1, cons := 0 } ∧ 1 ≤ 1 - 0 ∧
    (ring1 1).hubWrite 1 0x1010 = none := by decide +kernel
theorem wit_Race_of_no_ring : ∀ q, ((mk sl0).die 0).race = some q → q.ctx ≠ ra.ctx := fun q h => by
  have : ((mk sl0).die 0).race = none := by decide +kernel
  rw [this] at h; cases h
/-- A record on its way to a key; the machine at cycle 600,000. -/
def tr1 (key : Nat) : Transit := { id := 1, die := 0, r := rec1 key, since := 0 }
def away (key : Nat) : State := { mk sl0 with transit := [tr1 key] }
theorem wit_Accept : (away 8).transit[0]? = some (tr1 8) ∧ (∀ y ∈ (away 8).transit.take 0, y.src = (tr1 8).src → y.r.eng = (tr1 8).r.eng → y.r.key ≠ 8) ∧
    (away 8).unapplied (tr1 8).after = false ∧ place 64 = 0 ∧ ((away 8).die (homeDie 64)).held = false ∧
    ((away 8).die (homeDie 64)).accAt ≤ ((away 8).die (homeDie 64)).clock ∧ ∀ y ∈ (away 8).transit, y.arrived = false := by decide +kernel
/-- A record of a spoke beside it that the home's rotation prefers. -/
theorem wit_Accept_turn : wait 3 8 = 4 ∧ wait 3 0 = 37 ∧ wait 40 0 = 0 ∧ wait 0 0 = 40 := by decide
/-- The home has accepted a record in this cycle. -/
def taken1 : State := (away 8).setDie 0 { (away 8).die 0 with accAt := 1601 }
theorem wit_Accept_waits : taken1.transit[0]? = some (tr1 8) ∧ ¬(taken1.die (homeDie 64)).accAt ≤ (taken1.die (homeDie 64)).clock := by decide +kernel
/-- The machine with a CXL spoke at die 0, one with a route and no window fenced. -/
def cxl (s : State) : State := s.setSpoke 0 { cxl := true }
def routed (s : State) : State := s.setDie 0 { s.die 0 with routes := 15 }
theorem wit_Accept_host : (cxl (away (2 ^ 37 * 0xFFF))).transit[0]? = some (tr1 (2 ^ 37 * 0xFFF)) ∧ place (2 ^ 40 * 0xFFF) = 0xFFF ∧
    (cxl (away (2 ^ 37 * 0xFFF))).hostDie 0 = some 0 := by decide +kernel
theorem wit_Accept_peer : (routed (away (2 ^ 37))).transit[0]? = some (tr1 (2 ^ 37)) ∧ place (2 ^ 40) = 1 ∧ (routed (away (2 ^ 37))).peerLive 0 (2 ^ 40) = true := by
  decide +kernel
/-- A die with an accepted record, and lines the host may hold. -/
def ready1 (snoop snooped : List Nat) : State := (mk sl0).setDie 0 { (mk sl0).die 0 with acceptq := [⟨1, rec1 8⟩], snoop := snoop, snooped := snooped }
theorem wit_Apply : ((ready1 [] []).die 0).acceptq = [⟨1, rec1 8⟩] ∧ ((ready1 [] []).die (homeDie 64)).snoop.contains 1 = false ∧
    (ready1 [] []).openRow 1 1 = some (ready1 [] []) := ⟨by decide +kernel, by decide +kernel, openRow_some _ _ _ (by decide +kernel)⟩
theorem wit_Apply_snoops : ((ready1 [1] []).die 0).acceptq = [⟨1, rec1 8⟩] ∧ ((ready1 [1] []).die (homeDie 64)).snoop.contains 1 = true ∧
    ((ready1 [1] []).die (homeDie 64)).snooped.contains 1 = false := by decide +kernel
theorem wit_Birspi : ((ready1 [1] [1]).die 0).snooped.contains 1 = true ∧ (List.replicate 64 (0 : Byte)).length = 64 := by decide +kernel
/-- A die with a record for the host, one that awaits its observation. -/
def hostq1 : State := (mk sl0).setDie 0 { (mk sl0).die 0 with hostq := [⟨1, rec1 (2 ^ 37 * 0xFFF)⟩], hostGo := [⟨2, rec1 (2 ^ 37 * 0xFFF + 1)⟩] }
theorem wit_Host_agent : (hostq1.die 0).hostq = [⟨1, rec1 (2 ^ 37 * 0xFFF)⟩] ∧ (hostq1.die 0).held = false ∧ (hostq1.die 0).hostGo = [⟨2, rec1 (2 ^ 37 * 0xFFF + 1)⟩] := by decide +kernel
theorem wit_Undeliverable : (late (away (2 ^ 37))).transit[0]? = some (tr1 (2 ^ 37)) ∧ 600000 ≤ ((late (away (2 ^ 37))).die 0).clock ∧ isPeer (2 ^ 40) = true := by
  decide +kernel

/-- The device ready. -/
def on1 (s : State) : State := { s with root := { s.root with trained := true, ready := true } }
theorem not_half (s : State) (line : Nat) (h : (s.die (homeDie (64 * line))).begun = []) : ¬HalfDone s line := by
  rintro ⟨r, -, -, hb⟩
  rw [h] at hb
  exact absurd hb (List.not_mem_nil)
theorem openRows_some (s : State) (m : Nat) (ls : List Nat) (h : ∀ l ∈ ls, (s.die (homeDie (64 * l))).actlim = Vector.replicate 2 none) : s.openRows m ls = some s := by
  induction ls with
  | nil => rfl
  | cons l ls ih =>
    rw [State.openRows, openRow_some s l m (h l (by simp))]
    exact ih fun x hx => h x (by simp [hx])
theorem wit_Host_read : 2 ^ 40 - 1 + 1 ≤ 2 ^ 40 ∧ HomesLive (on1 (mk sl0)) (2 ^ 40 - 1) 1 ∧
    ((on1 (mk sl0)).die (homeDie (2 ^ 40 - 1))).snooped.contains ((2 ^ 40 - 1) / 64) = false ∧ ¬HalfDone (on1 (mk sl0)) ((2 ^ 40 - 1) / 64) ∧
    (on1 (mk sl0)).root.ready = true ∧ ((on1 (mk sl0)).openRows 17 [(2 ^ 40 - 1) / 64]).isSome = true ∧
    (∀ sp, sp < 32 → ((on1 (mk sl0)).spoke sp).cxl = false) ∧ ((cxl (on1 (mk sl0))).spoke 0).cxl = true :=
  ⟨by decide, by decide +kernel, by decide +kernel, not_half _ _ (by decide +kernel), by decide +kernel, by decide +kernel, by decide +kernel, by decide +kernel⟩
theorem wit_Host_write : (∃ b, some b ∈ [none, some (7 : Byte)]) ∧ 0x40 + 2 ≤ 2 ^ 40 ∧ SpokeOpen (on1 (mk sl0)) 3 :=
  ⟨⟨7, by simp⟩, by decide, by decide +kernel⟩
theorem wit_Host_outside : 2 ^ 40 < 2 ^ 40 - 1 + [(0 : Byte), 0].length := by decide

theorem wit_Turn : HasTurn (mk sl0) c0 0 ∧ GoesOn (mk sl0) c0 0 ∧ MayTrap (mk sl0) c0 0 ∧ ((mk { sl0 with trapcause := 0x200 }).slot c0 0).trapcause.getLsbD 9 = true :=
  ⟨by decide +kernel, by decide +kernel, wit_Trap_taken, by decide +kernel⟩
/-- The machine with a trap that waits, an engine fault that does, or a bit-serial stop. -/
def pend1 : State := mk { sl0 with trapcause := 0x200 }
def pendE (cause : Byte) (addr : Nat) (busy : Option Busy) : State := mk { sl0 with epend := [(cause, BitVec.ofNat 64 addr)], busy := busy }
theorem wit_Turn_pending : HasTurn pend1 c0 0 ∧ GoesOn pend1 c0 0 ∧ (pend1.slot c0 0).busy = none ∧ MayTrap pend1 c0 0 :=
  ⟨by decide +kernel, by decide +kernel, by decide +kernel, may_trap (by decide +kernel) (by decide +kernel)⟩
theorem wit_Turn_engine : HasTurn (pendE 0x0E 64 none) c0 0 ∧ GoesOn (pendE 0x0E 64 none) c0 0 ∧ MayLeave (pendE 0x0E 64 none) c0 0 ∧ MayTrap (pendE 0x0E 64 none) c0 0 :=
  ⟨by decide +kernel, by decide +kernel, .inl (by decide +kernel), may_trap (by decide +kernel) (by decide +kernel)⟩
/-- The same out of a FENCE. -/
theorem wit_Turn_engine_fence : HasTurn (pendE 0x0E 64 (some .fenceApply)) c0 0 ∧ GoesOn (pendE 0x0E 64 (some .fenceApply)) c0 0 ∧
    MayLeave (pendE 0x0E 64 (some .fenceApply)) c0 0 ∧ MayTrap (pendE 0x0E 64 (some .fenceApply)) c0 0 :=
  ⟨by decide +kernel, by decide +kernel, .inr (.inl (by decide +kernel)), may_trap (by decide +kernel) (by decide +kernel)⟩
theorem wit_Turn_sequencer : HasTurn (pendE 0x09 5 none) c0 0 ∧ GoesOn (pendE 0x09 5 none) c0 0 ∧ MayLeave (pendE 0x09 5 none) c0 0 ∧ MayTrap (pendE 0x09 5 none) c0 0 :=
  ⟨by decide +kernel, by decide +kernel, .inl (by decide +kernel), may_trap (by decide +kernel) (by decide +kernel)⟩
theorem wit_Turn_stops : HasTurn (mk { sl0 with stop := true }) c0 0 ∧ ((mk { sl0 with stop := true }).slot c0 0).stopAt ≤ (mk { sl0 with stop := true }).clock c0 ∧
    ((mk { sl0 with stop := true }).slot c0 0).stopped = false := by decide +kernel
theorem wit_Hubcall_reply : ((mk { sl0 with hubcalls := [(61, 1, 7, 0)] }).slot c0 0).hubcalls = [(61, 1, 7, 0)] ∧ ((mk { sl0 with hubcalls := [(61, 1, 7, 0)] }).core c0).outq.length < 8 ∧
    CoreWorks (mk { sl0 with hubcalls := [(61, 1, 7, 0)] }) c0 ∧ ((mk { sl0 with hubcalls := [(61, 1, 7, 0)] }).slot c0 0).blk = some 1 := by decide +kernel
theorem wit_Yield_request : Sparse.find ((mk sl0).core c0).table 1 = some { rec0 := brec, nalloc := 4 } := by decide +kernel

/-- A miss, and tables that map page 1 alone. -/
def miss1 (vpn : Nat) : Miss := { core := c0, ctx := 1, vpn := vpn, since := 0 }
def tables (fqbase : Nat) : State :=
  (((((mk sl0).setCtx 1 { ent := BitVec.ofNat 256 (16 + 2 ^ 9 + 2 ^ 64 + 2 ^ 76 * 0x100 + 2 ^ 208 * fqbase) }).writeMem 0x100000 0x101001 8).writeMem 0x101000 0x102001 8).writeMem
    0x102000 0x103001 8).writeMem 0x103008 (0x20001B + 2 ^ 20) 8
/-- A race that waits for the ring, with the ring's pages in hub working memory; the agenda names it. -/
def raced1 : State :=
  let s := turnGiven (tables 0) c0
  { s.setDie 0 { s.die 0 with race := some { ctx := 1, base := 0x1000, len := 1, prod := 0, cons := 0 }, raced := [(ra, rb, 1, 5)] } with agenda := [.race 0] }
theorem wit_Race_agenda : raced1.agenda = .race 0 :: [] ∧ ({ raced1 with agenda := [] } : State).turnWaits = false ∧
    (raced1.die 0).raced = (ra, rb, 1, 5) :: [] ∧ (raced1.die 0).held = false ∧
    (({ raced1 with agenda := [] } : State).hubWalk 0 1 0x1000).isSome = true ∧
    ((({ raced1 with agenda := [] } : State).hubWalk 0 1 0x1000).bind (·.hubWalk 0 1 0x1040)).isSome = true := by decide +kernel
def missing (vpn : Nat) (ws : List Walk) : State := (tables 0).setDie 0 { (tables 0).die 0 with misses := [miss1 vpn], walks := ws }
/-- The same with the page in the cluster's TLB. -/
def filled : State := (missing 5 []).setCluster (CoreId.clusterKey c0) { tlb := [⟨1, 4, 2, 9, true, true, true⟩] }
theorem wit_Tlb_fill : (filled.die 0).misses[0]? = some (miss1 5) ∧ (filled.die 0).held = false ∧ (filled.die 0).stopped = false ∧
    inCluster filled (miss1 5) = some ⟨1, 4, 2, 9, true, true, true⟩ ∧ (miss1 5).since + 32 ≤ filled.instant c0 := by decide +kernel
theorem wit_Walk_start : ((missing 1 []).die 0).misses[0]? = some (miss1 1) ∧ wantsWalk (missing 1 []) 0 (miss1 1) ∧ ((missing 1 []).die 0).walks.length < 64 := by decide +kernel
/-- A walk of a page that is under way since the reset. -/
def walking (vpn : Nat) : State := missing vpn [⟨1, vpn, 0⟩]
theorem walkRot_le (d : BitVec 3) (m pa : Nat) : walkRot d m pa ≤ 169 := by
  unfold walkRot; repeat' split
  all_goals decide
theorem walks_le (d : BitVec 3) (m : Nat) (l : List Nat) : (l.map (walkRot d m)).sum ≤ 169 * l.length := by
  induction l with
  | nil => simp
  | cons x l ih =>
    have := walkRot_le d m x
    simp only [List.map_cons, List.sum_cons, List.length_cons]
    omega
/-- The walk 600,000 cycles on. -/
def walked : State := late (walking 1)
theorem wit_Walk_end : (walked.die 0).walks[0]? = some ⟨1, 1, 0⟩ ∧ (∀ m ∈ (walked.die 0).misses, m.core.die = 0) ∧ (walked.die 0).held = false ∧
    (∀ pa ∈ walked.walkPath 1 3 (walked.ctx 1).ptroot, walked.lineWaits (pa / 64) = false ∧ (place pa = 0 → (walked.die (homeDie pa)).held = false)) ∧
    (match walked.walkTables 1 1 with | .page e => e.ppn | .fault _ => 0) = 0x300 ∧
    0 + 16 * ((walked.walkPath 1 3 (walked.ctx 1).ptroot).map (walkRot 0 0)).sum ≤ (walked.die 0).clock + 1 := by
  refine ⟨by decide +kernel, by decide +kernel, by decide +kernel, by decide +kernel, by decide +kernel, ?_⟩
  have h := walks_le 0 0 (walked.walkPath 1 3 (walked.ctx 1).ptroot)
  have hl : (walked.walkPath 1 3 (walked.ctx 1).ptroot).length = 4 := by decide +kernel
  have hc : (walked.die 0).clock = 600000 := by decide +kernel
  omega
theorem wit_Walk_faults : ((walking 2).die 0).walks[0]? = some ⟨1, 2, 0⟩ ∧ (match (walking 2).walkTables 1 2 with | .page _ => 0 | .fault c => c.toNat) ≠ 0 := by decide +kernel
/-- A fault that is not yet written. -/
def fr0 : FaultRec := { seq := 0, kind := 1, cause := 0x31, va := 0x5000, pc := 0x10000, core := c0, slot := 0, score := 0, cmd := 0, gen := 5, clock := 7 }
def faulted (fqbase : Nat) : State := (fun (s : State) => s.setCtx 1 { s.ctx 1 with fseq := 1, faults := [fr0] }) (tables fqbase)
/-- The writes of a fault's record and of the queue's count. -/
def writes (s : State) : Bool × Bool :=
  let r := s.statusWrite 0 1 0 ((s.ctx 1).fqbase + 64) fr0.words
  (r.1, (r.2.statusWrite 0 1 0 (s.ctx 1).fqbase [1]).1)
theorem wit_Fault_written : ((faulted 0x1000).ctx 1).faults = [fr0] ∧ ((faulted 0x1000).ctx 1).fprod < ((faulted 0x1000).ctx 1).fqsize ∧
    (faulted 0x1000).hubRead 1 0x1008 = some 0x300008 ∧ (faulted 0x1000).readMem 0x300008 8 = 0 ∧ writes (faulted 0x1000) = (true, true) := by decide +kernel
theorem wit_Fault_not_written : ((faulted 0x4000).ctx 1).faults = [fr0] ∧ writes (faulted 0x4000) = (false, false) := by decide +kernel
theorem wit_Fault_not_counted : ((faulted 0xFC0).ctx 1).faults = [fr0] ∧ writes (faulted 0xFC0) = (true, false) := by decide +kernel

/-- The block of the small machine. -/
def blk1 : Block := { rec0 := brec, nalloc := 4 }
theorem wit_Save_request : Sparse.find ((mk sl0).core c0).table 1 = some blk1 ∧ hubWorkingRange (0xFFC4000000) ((mk sl0).saveSize c0 1 blk1) = true := by decide +kernel
theorem wit_Stop_waits : OfBlock (mk sl0) c0 1 0 ∧ ((mk sl0).slot c0 0).st = .running ∧ ((mk sl0).slot c0 0).stopped = false := by decide +kernel
/-- The machine whose slot has stopped, with a save request and its drain at some point. -/
def stopping (ph : DrainSt) (k : Core → Core) : State :=
  mk { sl0 with stop := true, stopped := true } fun x => k { x with table := [(1, { blk1 with saveReq := some (0xFFC4000000), ph := ph })] }
def between (x : Core) : Core := { x with cmds := [(2, cmd0 .running 0 7 0)] }
theorem wit_Stop_goes : (∀ k, OfBlock (stopping .todo between) c0 1 k → (((stopping .todo between).slot c0 k).st ≠ .running ∨
      ((stopping .todo between).slot c0 k).stopped = true) ∧ ((stopping .todo between).slot c0 k).tags = [] ∧
      ((stopping .todo between).slot c0 k).hold = [] ∧ ((stopping .todo between).slot c0 k).longs = []) ∧
    ((stopping .todo between).slab c0).changing = [] ∧ ∃ e ∈ ((stopping .todo between).core c0).cmds, e.2.between 1 = true := by decide +kernel
theorem wit_Save_goes : CoreWorks (stopping .todo between) c0 ∧
    (match (stopping .todo between).stopStep c0 1 { blk1 with saveReq := some (0xFFC4000000) } with | .go _ => true | _ => false) = true := by decide +kernel
/-- The same with its records drained. -/
def blk2 : Block := { blk1 with saveReq := some 0xFFC4000000, ph := .sent }
theorem wit_Save_ends : CoreWorks (stopping .sent id) c0 ∧ (stopping .sent id).ownsSeq c0 1 = false ∧ (stopping .sent id).wholeStarted blk2 = false ∧
    Sparse.find ((stopping .sent id).core c0).table 1 = some blk2 ∧
    (match (stopping .sent id).stopStep c0 1 blk2 with | .finished => true | _ => false) = true := by decide +kernel
/-- The block owns a sequencer that runs: its microinstruction is under way, or is over and not the store's last, or is. -/
def owning (due : Nat) (last : Bool) : State := seqSlab { sl0 with stop := true, stopped := true } { st := .running, owner := 0, due := due, last := last }
theorem wit_Stop_owner : (owning (2 ^ 20) false).ownsSeq c0 1 = true ∧ ((owning (2 ^ 20) false).slab c0).seq.st = .running ∧
    (owning (2 ^ 20) false).instant c0 < ((owning (2 ^ 20) false).slab c0).seq.due ∧ (owning 5 false).ownsSeq c0 1 = true ∧
    ((owning 5 false).slab c0).seq.due ≤ (owning 5 false).instant c0 ∧ ((owning 5 true).slab c0).seq.last = true ∧ ((owning 5 true).die 0).held = false := by decide +kernel
/-- The release of the block's barrier register has still to reach the position east of it. -/
def released1 : State := { stopping .sent id with cores := [(0, { core0 sl0 with bars := [(1, { ctx := 1, x1 := 1 })] }), (1, { bars := [(1, { ctx := 1, x1 := 1, rel := true })] })] }
theorem wit_Stop_release : released1.ownsSeq c0 1 = false ∧ blk2.ph = .sent ∧ 0 < blk2.nbar ∧ SameBar (barAt released1 ⟨0, 1, 0⟩ (blk2.bar0 + 0)) (barAt released1 c0 (blk2.bar0 + 0)) ∧
    (barAt released1 ⟨0, 1, 0⟩ (blk2.bar0 + 0)).rel = true := by decide +kernel

-- witnesses: held reads, copy commands, the matrix engine, barriers, messages

/-- A slot that reads an image of `n` words at 0x100, or the words of a TLD. -/
def wordsAt (n : Nat) : List WordRead := (List.range n).map fun j => { pa := 0x100 + 8 * j }
def image0 (what : ImageFor) (n : Nat) : Busy := .image what 0 0 (wordsAt n) 0
/-- The machine with the rings, that slot, and the image's line in a snapshot, with the poison of its key words. -/
def imageS (b : Busy) (v : Nat) (po : Byte := 0) : State :=
  (rings 7 0 7 fun x => { x with l1 := [⟨4, (List.range 64).map fun j => BitVec.ofNat 8 (v / 256 ^ j), po, 0, 0⟩] }).setSlot c0 0 { sl0 with busy := some b }
/-- What it reads. -/
def readBack (s : State) (n : Nat) (k : Nat → Bool → State → Bool) : Bool :=
  (s.readPiece c0 { kind := .ld, dst := [], elems := [], scope := 0, w := 3, sext := false, taint := 0, issued := 0, left := 0 } false 0x100 (8 * n)).any
    fun y => k y.1 y.2.1 y.2.2.2
/-- The slot reads an image and meets a condition. -/
def held (what : ImageFor) (n v : Nat) (k : Nat → Bool → State → Bool) : Prop :=
  ((imageS (image0 what n) v).slot c0 0).busy = some (image0 what n) ∧ ((imageS (image0 what n) v).slot c0 0).hold = [] ∧
    readBack (imageS (image0 what n) v) n k = true
theorem wit_Image_poisoned : ((imageS (image0 (.tdset 3) 4) 0 8).slot c0 0).busy = some (image0 (.tdset 3) 4) ∧
    readBack (imageS (image0 (.tdset 3) 4) 0 8) 4 (fun _ po _ => po) = true := by decide +kernel
theorem wit_Tdset_bad : held (.tdset 3) 4 (2 ^ 244 * 3) (fun v po _ => !po && descBad (BitVec.ofNat 256 v)) := ⟨by decide +kernel, by decide +kernel, by decide +kernel⟩
theorem wit_Tdset : held (.tdset 3) 4 (2 ^ 240 * 7) (fun v po _ => !po && decide (v < 2 ^ 256) && !descBad (BitVec.ofNat 256 v)) :=
  ⟨by decide +kernel, by decide +kernel, by decide +kernel⟩
theorem wit_Ringcfg_bad : held (.ringcfg 1) 2 0 (fun v po t => !po && t.ringBad c0 (blockOn t c0 0) (BitVec.ofNat 128 v)) :=
  ⟨by decide +kernel, by decide +kernel, by decide +kernel⟩
theorem wit_Ringcfg : held (.ringcfg 1) 2 (2 ^ 24 * 4) (fun v po t => !po && !t.ringBad c0 (blockOn t c0 0) (BitVec.ofNat 128 v) && (t.core c0).ringIdle 2) :=
  ⟨by decide +kernel, by decide +kernel, by decide +kernel⟩
/-- A copy command within the scratchpad, from a space. -/
def copyImage (ssp saddr prec : Nat) : Nat := 2 ^ 4 * ssp + 2 ^ 6 + 2 ^ 64 * (2 ^ 32 - 1) + 2 ^ 96 * 104 + 2 ^ 192 * saddr + 2 ^ 256 * 64 + 2 ^ 320 * prec
theorem wit_Cpy_bad : held (.cpy 9) 8 5 (fun v po t => !po && (t.cpyBad c0 (blockOn t c0 0) (BitVec.ofNat 512 v)).isSome) := ⟨by decide +kernel, by decide +kernel, by decide +kernel⟩
theorem wit_Cpy : held (.cpy 9) 8 (copyImage 1 0 64) (fun v po t => !po && (t.cpyBad c0 (blockOn t c0 0) (BitVec.ofNat 512 v)).isNone &&
    okAt (t.translate c0 0 false 1 (BitVec.ofNat 64 (cmdPrec (BitVec.ofNat 512 v))) { w := true }) 64) := ⟨by decide +kernel, by decide +kernel, by decide +kernel⟩
theorem wit_Bsld_reads : held (.bsld 5) 1 7 (fun v po _ => !po && decide (v = 7)) := ⟨by decide +kernel, by decide +kernel, by decide +kernel⟩
theorem wit_Bsld_stores : ((mk { sl0 with busy := some (.bsld 5 [⟨7, false⟩]) }).slot c0 0).busy = some (.bsld 5 [⟨7, false⟩]) ∧
    ((mk { sl0 with busy := some (.bsld 5 [⟨7, false⟩]) }).slab c0).seq.st ≠ .running := by decide +kernel
theorem wit_Tld_reads : ((imageS (.tld 2 0 0 (wordsAt 128) 0) 5).slot c0 0).busy = some (.tld 2 0 0 (wordsAt 128) 0) ∧ (wordsAt 128)[0]? = some { pa := 0x100 } ∧
    readBack (imageS (.tld 2 0 0 (wordsAt 128) 0) 5) 1 (fun v _ _ => decide (v = 5)) = true := by decide +kernel
/-- Every word but the first has been read. -/
def almost : List WordRead := { pa := 0x100 } :: ((wordsAt 128).drop 1).map fun w => { w with got := some (0, false) }
theorem wit_Tld_ends : almost.length = 128 ∧ (∀ x ∈ almost.set 0 { pa := 0x100, got := some (5, false) }, x.got ≠ none) ∧
    readBack (imageS (.tld 2 0 0 almost 0) 5) 1 (fun v _ _ => decide (v = 5)) = true := by decide +kernel

/-- A slot at the last wait of a CPY; a command of an image. -/
def cpySt (im : Nat) : State := mk { sl0 with busy := some (.cpy 9 (BitVec.ofNat 512 im) 0 4) }
def cmdI (im : Nat) : Cmd := { cmd0 .running 0 7 0 with image := BitVec.ofNat 512 im, prec := 0 }
theorem wit_Cpy_starts : ((cpySt (copyImage 1 0 0)).slot c0 0).busy = some (.cpy 9 (BitVec.ofNat 512 (copyImage 1 0 0)) 0 4) ∧ CoreWorks (cpySt (copyImage 1 0 0)) c0 ∧
    Sparse.find ((cpySt (copyImage 1 0 0)).core c0).cmds 0 = none ∧ ringWanted (cpySt (copyImage 1 0 0)) c0 0 (BitVec.ofNat 512 (copyImage 1 0 0)) = none ∧
    ∀ j : BitVec 4, j ≠ 0 → ((cpySt (copyImage 1 0 0)).slot c0 j).busy = none := by decide +kernel
/-- A TILE copy behind an older one for the same ring. -/
def cpy2 : State := (cpySt 1).setSlot c0 2 { sl0 with busy := some (.cpy 9 1 0 3) }
theorem wit_Cpy_behind : BehindForRing cpy2 c0 (ringWanted cpy2 c0 0 1) 4 :=
  ⟨by decide +kernel, 2, 9, 1, 0, 3, by decide +kernel, by decide, by decide +kernel⟩
theorem wit_Cmd_closing : ∃ s m, Sparse.find ((s : State).core c0).cmds 2 = some m ∧ m.closing = true ∧ s.unapplied m.out = false :=
  ⟨cmds sl0 { cmdI 0 with closing := true }, { cmdI 0 with closing := true }, by decide +kernel⟩
/-- A unit's pieces: bytes for the scratchpad, a row of lanes, a key word; a row that a microinstruction is writing. -/
def cmdP (ps : List Piece) : Cmd := { cmdI (copyImage 1 0 0) with sent := true, pieces := ps }
theorem wit_Piece_bytes : ∃ s m, Sparse.find ((s : State).core c0).cmds 2 = some m ∧ m.closing = false ∧ m.pieces = [.bytes false 0 [(7, true)]] ∧ CoreWorks s c0 ∧
    (s.core c0).cpyFree ≤ s.clock c0 ∧ ItsTurn s c0 2 :=
  ⟨cmds sl0 (cmdP [.bytes false 0 [(7, true)]]), cmdP [.bytes false 0 [(7, true)]], by decide +kernel⟩
theorem wit_Piece_rows : ∃ s m, Sparse.find ((s : State).core c0).cmds 2 = some m ∧ m.pieces = [.rows 5 0 240 [0, 7] [(3, false)]] ∧ CoreWorks s c0 ∧
    (s.slab c0).seq.wr = [] ∧ (s.core c0).cpyFree ≤ s.clock c0 ∧ ItsTurn s c0 2 :=
  ⟨cmds sl0 (cmdP [.rows 5 0 240 [0, 7] [(3, false)]]), cmdP [.rows 5 0 240 [0, 7] [(3, false)]], by decide +kernel⟩
theorem wit_Piece_words : ∃ s m, Sparse.find ((s : State).core c0).cmds 2 = some m ∧ m.pieces = [.words [(8, 255, 7, false)]] ∧ CoreWorks s c0 ∧ ItsTurn s c0 2 ∧
    s.clock c0 < (s.core c0).cpyFree :=
  ⟨mk sl0 fun k => { k with cmds := [(2, cmdP [.words [(8, 255, 7, false)]])], cpyFree := 1601 }, cmdP [.words [(8, 255, 7, false)]], by decide +kernel⟩
theorem wit_Unit_delivered : ∃ s m, Sparse.find ((s : State).core c0).cmds 2 = some m ∧ m.closing = false ∧ m.pieces = [] ∧ m.sent = true ∧ s.unapplied m.out = false ∧
    m.upto ≤ s.clock c0 ∧ CoreWorks s c0 := ⟨cmds sl0 (cmdP []), cmdP [], by decide +kernel⟩
/-- A unit of lanes that a microinstruction writes is found as it was, or as it becomes. -/
theorem wit_Lanes_found : LanesFound { seq := { wr := [(7, ⟨5, false⟩)] } } [(7, ⟨4, false⟩)] ∧ Between ⟨0, false⟩ ⟨5, false⟩ ⟨4, false⟩ := by
  have h : Between ⟨0, false⟩ ⟨5, false⟩ ⟨4, false⟩ := ⟨by decide, by decide⟩
  refine ⟨fun i => ?_, h⟩
  by_cases hi : i = 7
  · subst hi; exact h
  · simp [Sparse.find, unitAt, Sparse.get, Ne.symm hi]
theorem wit_Cmd_ends : ∃ s m, Sparse.find ((s : State).core c0).cmds 2 = some m ∧ Due s c0 m ∧ cmdTotal m.image ≤ m.done ∧ m.prec = 0 :=
  ⟨cmds sl0 { cmdI (copyImage 1 0 0) with done := 2 }, { cmdI (copyImage 1 0 0) with done := 2 }, by decide +kernel⟩
theorem wit_Cmd_unit : ∃ s m, Sparse.find ((s : State).core c0).cmds 2 = some m ∧ Due s c0 m ∧ m.done < cmdTotal m.image ∧ cmdKind m.image = 0 ∧ cmdNat m.image 4 2 = 1 ∧
    cmdNat m.image 6 2 = 1 :=
  ⟨cmds sl0 { cmdI (copyImage 1 0 0) with done := 1 }, { cmdI (copyImage 1 0 0) with done := 1 }, by decide +kernel⟩
/-- A command stops at a translation fault. -/
def stopsAt (s : State) (m : Cmd) : Bool := match s.unit c0 2 m with
  | .error (.fault _ _ va) => decide (va = 2 ^ 48)
  | _ => false
theorem wit_Cmd_fault : ∃ s m, Sparse.find ((s : State).core c0).cmds 2 = some m ∧ Due s c0 m ∧ m.prec = 0 ∧ stopsAt s m = true ∧ (s.ctx m.ctx).rply = false :=
  ⟨cmds sl0 (cmdI (copyImage 0 (2 ^ 48) 0)), cmdI (copyImage 0 (2 ^ 48) 0), by decide +kernel⟩
theorem wit_Cmd_fault_replay : ∃ s m, Sparse.find ((s : State).core c0).cmds 2 = some m ∧ Due s c0 m ∧ m.prec = 0 ∧ stopsAt s m = true ∧ (s.ctx m.ctx).rply = true ∧
    (s.ctx m.ctx).fqbase ≠ 0 :=
  ⟨{ cmds sl0 (cmdI (copyImage 0 (2 ^ 48) 0)) with ctxs := (debugged sl0).ctxs }, cmdI (copyImage 0 (2 ^ 48) 0), by decide +kernel⟩

/-- The engine with one operation. -/
def mxs (o : MxOp) : State := rings 7 0 7 fun x => { x with mx := [o] }
theorem wit_Mma_starts : ∃ s o, ((s : State).core c0).mx = [o] ∧ o.started = none ∧ o.issued < s.clock c0 ∧ (s.core c0).mxFree ≤ s.clock c0 ∧ o.tcvt = false ∧
    committedIn ((s.core c0).ring o.qa) o.ca ∧ o.qa = o.qb :=
  ⟨mxs { op1 false with qb := 1 }, { op1 false with qb := 1 }, by decide +kernel⟩
theorem wit_Tcvt_starts : ∃ s o, ((s : State).core c0).mx = [o] ∧ o.started = none ∧ o.issued < s.clock c0 ∧ (s.core c0).mxFree ≤ s.clock c0 ∧ o.tcvt = true :=
  ⟨mxs (op1 true), op1 true, by decide +kernel⟩
theorem wit_Mma_retires : ∃ s o, ((s : State).core c0).mx = [o] ∧ o.started = some 0 ∧ o.tcvt = false ∧ 0 + 64 ≤ s.clock c0 ∧ fmtInt (descFmt o.da) = true :=
  ⟨mxs { op1 false with started := some 0, da := 0, db := 0 }, { op1 false with started := some 0, da := 0, db := 0 }, by decide +kernel⟩
theorem wit_Tcvt_retires : ∃ s o, ((s : State).core c0).mx = [o] ∧ o.started = some 0 ∧ o.tcvt = true ∧ o.seg.toNat + 1 = fmtK (descFmt o.da) / 16 ∧
    ((s.core c0).ring o.qa).tail = o.ca :=
  ⟨mxs { op1 true with started := some 0, seg := 3, ca := 1 }, { op1 true with started := some 0, seg := 3, ca := 1 }, by decide +kernel⟩
theorem wit_Governor : 3000 * (((late (mk sl0)).die 0).govWin + 1) ≤ ((late (mk sl0)).die 0).clock ∧ (late (mk sl0)).cores ≠ [] := by decide +kernel

/-- A barrier register of the rectangle (0, 0) to (1, 1) at a core, with every arrival of one slot. -/
def bar1 : Barrier := { ctx := 1, x1 := 1, y1 := 1, count := 1 }
def barS (c : CoreId) (b : Barrier) : State := (mk sl0).setCore c { bars := [(0, b)] }
theorem wit_Row_done : RowDone (barS ⟨0, 1, 0⟩ bar1) ⟨0, 1, 0⟩ 0 ∧ bar1.rowOut = false ∧ bar1.x0.toNat < 1 :=
  ⟨⟨by decide +kernel, by decide +kernel, by decide +kernel, by decide +kernel, by decide +kernel, by decide +kernel,
    .inr fun _ h h2 => absurd (Nat.lt_of_lt_of_le h h2) (by decide +kernel)⟩, rfl, by decide⟩
/-- The rows east of the first column are done. -/
def bar2 : Barrier := { bar1 with east := true }
theorem wit_Column_done : RowDone (barS ⟨0, 0, 1⟩ bar2) ⟨0, 0, 1⟩ 0 ∧ offBelow (barS ⟨0, 0, 1⟩ bar2) ⟨0, 0, 1⟩ bar2 ∧ bar2.colOut = false ∧ bar2.y0.toNat < 1 :=
  ⟨⟨by decide +kernel, by decide +kernel, by decide +kernel, by decide +kernel, by decide +kernel, by decide +kernel, .inl (by decide +kernel)⟩,
    fun _ _ h h2 => absurd (Nat.lt_of_lt_of_le h h2) (by decide), rfl, by decide⟩
/-- The corner of a rectangle that is done. -/
def bar3 : Barrier := { bar2 with below := true }
theorem wit_Corner_done : RowDone (barS c0 bar3) c0 0 ∧ (barAt (barS c0 bar3) c0 0).below = true :=
  ⟨⟨by decide +kernel, by decide +kernel, by decide +kernel, by decide +kernel, by decide +kernel, by decide +kernel, .inl (by decide +kernel)⟩, by decide +kernel⟩
theorem wit_Release_arrived : (barAt (barS ⟨0, 1, 1⟩ { bar1 with rel := true }) ⟨0, 1, 1⟩ 0).rel = true := by decide +kernel

theorem takes_of {s : State} {c : CoreId} {k : BitVec 4} {gen : BitVec 16} {n : BitVec 6} (h : ((s.blockOf c (s.slot c k)).any fun b => decide (b.ctx = n)) = true)
    (h2 : (s.slot c k).st = .running ∧ (s.slot c k).gen = gen) : Takes s c k gen n := by
  cases hb : s.blockOf c (s.slot c k) with
  | none => rw [hb] at h; cases h
  | some b =>
    rw [hb] at h
    exact ⟨.inl h2.1, h2.2, b, hb, by simpa using h⟩
/-- A message on its way; one for another generation, one for a core that is not there. -/
def msgS (m : Msg) : State := { mk sl0 with msgs := [m] }
theorem not_earlier (s : State) (c : CoreId) (k : BitVec 4) (a : Option Nat) (h : ∀ m ∈ s.msgs, m.arrived = none) (h2 : ∀ m ∈ (s.slab c).seq.msgs, m.arrived = none) :
    ¬EarlierWaits s c k a := by
  rintro ⟨b, -, ⟨m, hm, e, -⟩ | ⟨m, hm, e, -⟩⟩
  · rw [h m hm] at e; cases e
  · rw [h2 m hm] at e; cases e
theorem wit_Message : (msgS msg0).msgs[0]? = some msg0 ∧ (msgS msg0).coreOfLnum 0 0 = some c0 ∧ Takes (msgS msg0) c0 0 5 1 ∧ ((msgS msg0).slot c0 0).stop = false ∧
    ((msgS msg0).slot c0 0).stopped = false ∧ inboxCount (msgS msg0) c0 0 + 1 ≤ 16 ∧ ¬EarlierWaits (msgS msg0) c0 0 none :=
  ⟨by decide +kernel, by decide +kernel, takes_of (by decide +kernel) (by decide +kernel), by decide +kernel, by decide +kernel, by decide +kernel,
    not_earlier _ _ _ _ (by decide +kernel) (by decide +kernel)⟩
/-- A second message, behind one that arrived before it. -/
def behind1 : State := { mk sl0 with msgs := [{ msg0 with arrived := some 3, sslot := 2 }, msg0] }
theorem wit_Message_waits : behind1.msgs[1]? = some msg0 ∧ EarlierWaits behind1 c0 0 none ∧ msg0.arrived = none :=
  ⟨rfl, ⟨3, (fun b h => by cases h), .inl ⟨{ msg0 with arrived := some 3, sslot := 2 }, by decide +kernel, rfl, by decide +kernel⟩⟩, rfl⟩
theorem wit_Message_dropped : (msgS { msg0 with gen := 6 }).coreOfLnum 0 0 = some c0 ∧ ¬Takes (msgS { msg0 with gen := 6 }) c0 0 6 1 :=
  ⟨by decide +kernel, fun h => absurd h.2.1 (by decide +kernel)⟩
theorem wit_Message_no_core : (msgS { msg0 with dcore := 3 }).msgs[0]? = some { msg0 with dcore := 3 } ∧ (msgS { msg0 with dcore := 3 }).coreOfLnum 0 3 = none := by
  decide +kernel
/-- A message of the sequencer to the slot. -/
def sm1 (gen : BitVec 16) : SeqMsg := { slot := 0, gen := gen, ctx := 1, w0 := ⟨1, false⟩, w1 := ⟨2, false⟩ }
theorem wit_Sequencer_message : ∃ s : State, ((s.slab c0).seq.msgs = [sm1 5] ∧ CoreWorks s c0) ∧ Takes s c0 0 5 1 ∧ (s.slot c0 0).stopped = false ∧ inboxCount s c0 0 + 2 ≤ 16 ∧
    ¬EarlierWaits s c0 0 none :=
  ⟨seqSlab sl0 { msgs := [sm1 5] }, by decide +kernel, takes_of (by decide +kernel) (by decide +kernel), by decide +kernel, by decide +kernel,
    not_earlier _ _ _ _ (by decide +kernel) (by decide +kernel)⟩
theorem wit_Sequencer_message_dropped : ∃ s : State, ((s.slab c0).seq.msgs = [sm1 6] ∧ CoreWorks s c0) ∧ ¬Takes s c0 0 6 1 :=
  ⟨seqSlab sl0 { msgs := [sm1 6] }, by decide +kernel, fun h => absurd h.2.1 (by decide +kernel)⟩
theorem wit_Collective : SpokeOpen (on1 (mk sl0)) 3 ∧ ((on1 (mk sl0)).spoke 3).cxl = false ∧ [(0 : Byte), 1, 2].length ≤ 256 ∧ 0x40 + 3 ≤ 2 ^ 40 := by decide +kernel
theorem wit_Gateway_append : ∃ s : State, (s.spoke 3).colls = [] ++ ⟨1, 2, true, []⟩ :: [] ∧ s.unapplied [] = false ∧ (s.spoke 3).gq.length < 64 :=
  ⟨(mk sl0).setSpoke 3 { colls := [⟨1, 2, true, []⟩] }, by decide +kernel⟩
theorem wit_Group_changed : ∃ s : State, Sparse.find (s.slab c0).changing 11 = some 2 ∧ (s.die 0).held = false ∧ (s.slot c0 0).busy = some (.dsmode 0x800) ∧
    ∀ j, j < 12 → j ≠ 11 → Sparse.find (s.slab c0).changing j = none :=
  ⟨(holds (.dsmode 0x800)).setSlab c0 { changing := [(11, 2)] }, by decide +kernel⟩
theorem wit_Group_changed_others : ∃ s : State, Sparse.find (s.slab c0).changing 11 = some 2 ∧ (s.slot c0 0).busy = some (.dsmode 0xC00) ∧
    Sparse.find (s.slab c0).changing 10 ≠ none :=
  ⟨(holds (.dsmode 0xC00)).setSlab c0 { changing := [(10, 2), (11, 2)] }, by decide +kernel⟩
theorem wit_Cmd_turn : ∃ s m, Sparse.find ((s : State).core c0).cmds 2 = some m ∧ Due s c0 m ∧ m.done < cmdTotal m.image ∧ ItsTurn s c0 2 ∧ cmdKind m.image = 0 :=
  ⟨cmds sl0 { cmdI (copyImage 1 0 0) with done := 1 }, { cmdI (copyImage 1 0 0) with done := 1 }, by decide +kernel⟩
/-- A command of 300 elements of 16 bits from the scratchpad into lanes, and one from lanes into the scratchpad. -/
def compImage (kind : Nat) : Nat := kind + 2 ^ 4 + 2 ^ 6 + 2 ^ 48 * 240 + 2 ^ 56 + 2 ^ 64 * (2 ^ 32 - 1) + 2 ^ 96 * 300
theorem wit_Cmd_tocomp : ∃ s m, Sparse.find ((s : State).core c0).cmds 2 = some m ∧ Due s c0 m ∧ m.done < cmdTotal m.image ∧ ItsTurn s c0 2 ∧ cmdKind m.image = 2 ∧
    cmdNat m.image 4 2 = 1 ∧ m.image.toNat / 2 ^ 48 % 2 ^ 8 + 8 * 2 ^ (m.image.toNat / 2 ^ 56 % 4) ≤ 256 ∧ compLen m.image 1 = 44 :=
  ⟨cmds sl0 { cmdI (compImage 2) with done := 1 }, { cmdI (compImage 2) with done := 1 }, by decide +kernel⟩
theorem wit_Cmd_fromcomp : ∃ s m, Sparse.find ((s : State).core c0).cmds 2 = some m ∧ Due s c0 m ∧ m.done < cmdTotal m.image ∧ ItsTurn s c0 2 ∧ cmdKind m.image = 3 ∧
    cmdNat m.image 6 2 = 1 :=
  ⟨cmds sl0 { cmdI (compImage 3) with done := 1 }, { cmdI (compImage 3) with done := 1 }, by decide +kernel⟩
theorem wit_Cpy_fits : CpyFits (cpySt (copyImage 1 0 0)) c0 1 false 0 9 ∧ CpyFits (rings 7 0 7) c0 2 true 2 61 := by decide +kernel
theorem wit_Mma_float_retires : ∃ s o, ((s : State).core c0).mx = [o] ∧ o.started = some 0 ∧ o.tcvt = false ∧ 0 + 64 ≤ s.instant c0 ∧ CoreWorks s c0 ∧
    fmtInt (descFmt o.da) = false ∧ o.qa ≠ o.qb :=
  ⟨mxs { op1 false with started := some 0 }, { op1 false with started := some 0 }, by decide +kernel⟩
theorem wit_Tcvt_written : ∃ s o, ((s : State).core c0).mx = [o] ∧ o.started = some 0 ∧ o.tcvt = true ∧ CoreWorks s c0 ∧ (descFmt o.da < 10 ∨ 13 ≤ descFmt o.da) ∧
    o.seg.toNat + 1 < fmtK (descFmt o.da) / 16 :=
  ⟨mxs { op1 true with started := some 0, seg := 2 }, { op1 true with started := some 0, seg := 2 }, by decide +kernel⟩
theorem wit_Tcvt_written_sx : ∃ s o, ((s : State).core c0).mx = [o] ∧ o.started = some 0 ∧ o.tcvt = true ∧ CoreWorks s c0 ∧ 13 ≤ descFmt o.da ∧
    o.seg.toNat < fmtK (descFmt o.da) / 16 ∧ o.fpcr.toNat % 8 ≠ 5 :=
  ⟨mxs { op1 true with started := some 0, da := (dsc 13 0).image }, { op1 true with started := some 0, da := (dsc 13 0).image }, by decide +kernel⟩
/-- A read that gets no answer: of a peer that no route reaches. -/
def image1 : Busy := .image (.tdset 3) 0 0 ((List.range 4).map fun j => { pa := 2 ^ 40 + 8 * j }) 0
def deaf : State := late (mk { sl0 with busy := some image1 })
theorem wit_Returns_lost : (deaf.slot c0 0).busy = some image1 ∧ CoreWorks deaf c0 ∧ deaf.mayBeLost 0 (2 ^ 40) = true ∧ 0 + 600000 ≤ deaf.instant c0 := by decide +kernel

-- witnesses: queues, launches, blocks, requests

/-- A queue of context 1 with launches; the machine with it as queue 3. -/
def q0 (ls : List Launch) : Queue := { ctx := 1, pri := 0, qbase := 0x1000, qlen := 16, ksrc := 7, target := 1, launches := ls }
def queueS (y : Queue) (k : Core → Core := id) : State := { tables 0 with queues := [(3, y)], cores := [(0, k (core0 sl0))] }
theorem wit_Kick_no_queue : SpokeOpen (on1 (mk sl0)) 1 ∧ ((mk sl0).die (homeOf 3)).held = false ∧ Sparse.find (mk sl0).queues 3 = none := by decide +kernel
theorem wit_Kick_other : Sparse.find (queueS (q0 [])).queues 3 = some (q0 []) ∧ (q0 []).ksrc ≠ 8 := by decide +kernel
/-- The hub's walks: one that can go, one of a table line that has an accepted record. -/
theorem wit_Hub : ((queueS (q0 [])).hubFetch 3 1 0x1000).isSome = true ∧ ((queueS (q0 [])).hubFetch 3 1 0x1040).isSome = true ∧
    ((queueS (q0 [])).hubWalk 3 1 0x1008).isSome = true ∧ ((queueS (q0 [])).hubWalk 3 1 0x1010).isSome = true := by decide +kernel
def tableRec : State := (tables 0).setDie 0 { (tables 0).die 0 with acceptq := [⟨1, rec1 (0x100000 / 8)⟩] }
theorem wit_Hub_waits : 0x100000 ∈ tableRec.walkPath 1 3 (tableRec.ctx 1).ptroot ∧ ¬TableAnswers tableRec 0 0x100000 :=
  ⟨by decide +kernel, fun h => absurd h.1 (by decide +kernel)⟩
def lineRec : State := (tables 0).setDie 0 { (tables 0).die 0 with acceptq := [⟨1, rec1 (0x300000 / 8)⟩] }
theorem wit_Hub_read_waits : lineRec.hubRead 1 0x1000 = some 0x300000 ∧ ¬TableAnswers lineRec 0 0x300000 := ⟨by decide +kernel, fun h => absurd h.1 (by decide +kernel)⟩
theorem wit_Kick : Sparse.find (queueS (q0 [])).queues 3 = some (q0 []) ∧ (q0 []).ksrc = 7 ∧ ((queueS (q0 [])).ctx 1).state = 1 ∧
    ((queueS (q0 [])).die (homeOf 3)).held = false ∧ (q0 []).taken < 1 ∧ 0 ≤ (q0 []).taken := by decide +kernel
theorem wit_Record_read : (q0 []).taken < (q0 []).target ∧ (queueS (q0 [])).hubRead 1 0x1040 = some 0x300040 ∧ (queueS (q0 [])).lineWaits (0x300040 / 64) = false := by
  decide +kernel
/-- A launch's last steps: with no place for its status word, with one, with it written. -/
theorem wit_Finishes : recNat 0 128 48 = 0 ∧ recNat (2 ^ 128 * 0x1030) 128 48 = 0x1030 ∧ ((queueS (q0 [])).hubWalk 3 1 0x1030).isSome = true ∧
    (queueS (q0 [])).unapplied [7] = false := by decide +kernel
theorem wit_Record_unreadable : (queueS { q0 [] with qbase := 0x2000 }).hubRead 1 0x2040 = none := by decide +kernel
theorem wit_Launch_refused : (q0 [{ n := 0, rec0 := 0, refused := some 1 }]).launches = [] ++ { n := 0, rec0 := 0, refused := some 1 } :: [] ∧ (q0 []).fin = 0 := by decide +kernel
theorem wit_Launch_ended : (queueS (q0 [{ n := 0, rec0 := 0, ended := some 6 }])).movedWaits [] = false ∧
    (queueS (q0 [{ n := 0, rec0 := 0, ended := some 6 }])).launchBound 3 { n := 0, rec0 := 0, ended := some 6 } = false ∧
    ((queueS (q0 [{ n := 0, rec0 := 0, ended := some 6 }])).ctx 1).state = 1 := by decide +kernel
theorem wit_Launch_told : (queueS (q0 [{ n := 0, rec0 := 0, csw := some [7] }])).unapplied [7] = false := by decide +kernel
theorem wit_Launch_done : ({ n := 0, rec0 := 0, blocks := 1 } : Launch).blocks = (recNat 0 196 4 + 1) * (recNat 0 200 9 + 1) * (recNat 0 209 4 + 1) ∧
    (queueS (q0 [{ n := 0, rec0 := 0, blocks := 1 }])).movedWaits [] = false := by decide +kernel

/-- A launch record and a bind record of it for slot 1: one block, or the first of two of a whole launch. -/
def lrec (w : Nat) : BitVec 512 := BitVec.ofNat 512 (0x10000 + 2 ^ 64 * 0x1234 + 2 ^ 196 * w + 2 ^ 213 * w)
def bind1 (w : Nat) : BitVec 512 := BitVec.ofNat 512
  (0x10000 + 2 ^ 64 * 0x1234 + 2 ^ 160 + 2 ^ 168 * 3 + 2 ^ 176 * 2 + 2 ^ 196 * w + 2 ^ 226 * w + 2 ^ 256 * 16384 + 2 ^ 276 * 2048)
def bindS (w : Nat) : State := queueS (q0 [{ n := 0, rec0 := lrec w }])
theorem wit_Bind_refused : ((mk sl0).guardCode c0 { rec0 := 0 }).isSome = true := by decide +kernel
/-- A fenced bank group of the context's window. -/
theorem wit_Bind_fenced : ∃ s : State, ∃ g ∈ (s.slab c0).fenced, share (65536 * (s.ctx 1).first + 4, 8) (65536 * g, 65536) :=
  ⟨((mk sl0).setCtx 1 { ent := BitVec.ofNat 256 (16 + 2 ^ 32 * 0x010B) }).setSlab c0 { fenced := [11] }, 11, by decide +kernel, 65536 * 11 + 4, by decide +kernel⟩
theorem wit_Bind_starts : (bindS 0).guardCode c0 { rec0 := bind1 0, held := (bind1 0).getLsbD 226 } = none ∧ (bind1 0).getLsbD 226 = false ∧
    (bind1 0).extractLsb' 384 48 = 0 ∧ LowestFree (bindS 0) c0 0 ∧ ((bind1 0).extractLsb' 176 16).getLsbD 1 = true := by decide +kernel
/-- The machine after a bind record of a whole launch has taken its slots. -/
def claimed1 : State := (fun (s : State) (b : Block) =>
  let x := (s.core c0).claimSlots 0 b.smask
  s.setCore c0 { x with table := Sparse.set x.table 0 b }) (bindS 1) { rec0 := bind1 1, held := true }
theorem wit_Bind_held : (bindS 1).guardCode c0 { rec0 := bind1 1, held := (bind1 1).getLsbD 226 } = none ∧ (bind1 1).getLsbD 226 = true ∧ LowestFree (bindS 1) c0 0 ∧
    (claimed1.heldOf { rec0 := bind1 1, held := true }).length < 2 := by decide +kernel
theorem wit_Bind_withdrawn : Sparse.find (claimed1.core c0).table 0 = some { rec0 := bind1 1, held := true } := by decide +kernel
/-- The machine whose slot has exited, its block changed. -/
def exitedS (b : Block) : State := mk { sl0 with st := .exited } fun x => { x with table := [(1, b)] }
theorem wit_Refusal : (queueS (q0 [])).refusal 1 (BitVec.ofNat 512 (2 ^ 48)) = some 1 ∧ (queueS (q0 [])).refusal 1 (lrec 0) = none := by decide +kernel
theorem wit_Block_drains : CoreWorks (exitedS blk1) c0 ∧ blk1.closing = none ∧ blk1.boot = false ∧ blk1.held = false ∧ (exitedS blk1).blockIdle c0 1 = true ∧
    DrainMoves (exitedS blk1) c0 1 3 none ((exitedS blk1).blockNames c0 1) .todo (.level 0 none) (exitedS blk1) :=
  ⟨by decide +kernel, rfl, by decide, rfl, by decide +kernel, .start⟩
/-- The same with its records drained. -/
def blk3 : Block := { blk1 with ph := .sent }
theorem wit_Block_completes : Sparse.find ((exitedS blk3).core c0).table 1 = some blk3 ∧ (exitedS blk3).blockIdle c0 1 = true ∧
    CameHome (exitedS blk3) 3 ((exitedS blk3).blockNames c0 1) :=
  ⟨by decide +kernel, by decide +kernel, fun _ => ⟨fun x hx => absurd hx (by
    have : (exitedS blk3).transit = [] := by decide +kernel
    rw [this]; exact List.not_mem_nil), fun h => absurd h (by decide)⟩⟩
theorem wit_Block_closes : (match (exitedS { blk1 with closing := some 6 }).stopStep c0 1 { blk1 with closing := some 6 } with | .go _ => true | _ => false) = true ∧
    (match (exitedS { blk3 with closing := some 6 }).stopStep c0 1 { blk3 with closing := some 6 } with | .finished => true | _ => false) = true := by
  decide +kernel
/-- The bind record of the second block of the whole launch, for a core of the same cluster. -/
def bind2 : BitVec 512 := bind1 1 + BitVec.ofNat 512 (2 ^ 192)
def c1 : CoreId := ⟨0, 1, 0⟩
theorem wit_Bind_last : claimed1.guardCode c1 { rec0 := bind2, held := bind2.getLsbD 226 } = none ∧ bind2.getLsbD 226 = true ∧ LowestFree claimed1 c1 0 ∧
    2 ≤ ((heldThere claimed1 c1 0 { rec0 := bind2, held := true }).heldOf { rec0 := bind2, held := true }).length ∧
    (((heldThere claimed1 c1 0 { rec0 := bind2, held := true }).heldOf { rec0 := bind2, held := true }).map fun h => (h.1, h.2.1)).Nodup ∧
    ∀ h ∈ (heldThere claimed1 c1 0 { rec0 := bind2, held := true }).heldOf { rec0 := bind2, held := true }, h.2.2.save = 0 := by decide +kernel

/-- The bytes of a signed request up to its signature, with its sequence number and the dwords of its body; the request, from a message to the
root, with a key's signature over them. -/
def unsigned (o sn : Nat) (ds : List Nat) : List Byte :=
  le 4 0x56525131 ++ le 2 o ++ le 2 0 ++ le 8 sn ++ le 4 (8 * ds.length) ++ List.replicate 12 0 ++ ds.flatMap (le 8)
def req (o sn : Nat) (ds : List Nat) : Request :=
  { cxl := false, sp := 3, fid := 9,
    bytes := unsigned o sn ds ++ le 1280 (Config.falconSign 5 (Config.shake256 (unsigned o sn ds))).toNat }
theorem le_succ (n v : Nat) : le (n + 1) v = BitVec.ofNat 8 v :: le n (v / 256) := by
  simp only [le, List.range_succ_eq_map, List.map_cons, List.map_map, Nat.pow_zero, Nat.div_one, Function.comp_def]
  congr 1
  exact List.map_congr_left fun i _ => by rw [Nat.pow_succ, Nat.mul_comm, Nat.div_div_eq_div_mul]
theorem leNat_le (n v : Nat) : leNat (le n v) = v % 256 ^ n := by
  induction n generalizing v with
  | zero => simp [le, leNat, Nat.mod_one]
  | succ n ih =>
    rw [le_succ]
    show (BitVec.ofNat 8 v).toNat + 256 * leNat (le n (v / 256)) = _
    rw [ih, BitVec.toNat_ofNat, show 256 ^ (n + 1) = 256 * 256 ^ n from Nat.pow_succ', Nat.mod_mul]
theorem pow256 : 256 ^ 1280 = 2 ^ 10240 := by decide +kernel
/-- Such a request carries the owner's signature. -/
theorem signed_of {s : State} {o sn : Nat} {ds : List Nat} (hk : s.root.ownerKey = 5)
    (hn : 32 + Request.field (req o sn ds) 16 4 = (unsigned o sn ds).length) : signedByOwner s (req o sn ds) = true := by
  unfold signedByOwner
  rw [hk, hn]
  have hs (X : BitVec 10240) (pre : List Byte) : BitVec.ofNat 10240 (leNat (((pre ++ le 1280 X.toNat).drop pre.length).take 1280)) = X := by
    rw [List.drop_left, List.take_of_length_le (by simp [le]), leNat_le, pow256]
    exact BitVec.eq_of_toNat_eq (by rw [BitVec.toNat_ofNat, Nat.mod_mod, Nat.mod_eq_of_lt X.isLt])
  unfold Request.field req
  simp only []
  rw [hs, List.take_left]
  simp [Config.verifies]
/-- What `Passes` asks, but for the signature. -/
def passesB (s : State) (o sn : Nat) (ds : List Nat) : Bool :=
  decide (Taken s o (req o sn ds)) && !Request.malformed (req o sn ds) && s.root.ready && s.root.claimed
    && decide (s.root.seq.toNat < Request.field (req o sn ds) 8 8) && decide (s.root.ownerKey = 5)
    && decide (32 + Request.field (req o sn ds) 16 4 = (unsigned o sn ds).length)
theorem passes_of {s : State} {o sn : Nat} {ds : List Nat} (h : passesB s o sn ds = true) : Passes s o (req o sn ds) := by
  simp only [passesB, Bool.and_eq_true, Bool.not_eq_true', decide_eq_true_eq] at h
  obtain ⟨⟨⟨⟨⟨⟨h1, h2⟩, h3⟩, h4⟩, h5⟩, h6⟩, h7⟩ := h
  exact ⟨h1, h2, h3, h4, h5, signed_of h6 h7⟩
/-- The machine with a root-of-trust core that is ready and claimed. -/
def owned : State := (fun (s : State) => { s with root := { s.root with trained := true, ready := true, claimed := true, seq := 3, ownerKey := 5 } }) (mk sl0)
theorem wit_Request_busy : requestOf (.claim (req 1 0 [])) = some (1, req 1 0 []) ∧ Arrives (withRoot owned { owned.root with serving := some { rq := req 1 0 [] } }) (req 1 0 []) ∧
    Request.field (req 1 0 []) 4 2 = 1 := ⟨rfl, by decide +kernel, by decide +kernel⟩
theorem wit_Request_malformed : Taken owned 0x11 (req 0x11 4 []) ∧ Request.malformed (req 0x11 4 []) = true := by decide +kernel
/-- The root-of-trust core before its boot's end, the spokes trained. -/
def booting : State := withRoot (mk sl0) { (mk sl0).root with trained := true }
theorem wit_Request_not_ready : Taken booting 0x11 (req 0x11 4 [1]) ∧ booting.root.ready = false := by decide +kernel
theorem wit_Request_claimed : Taken owned 1 (req 1 0 (List.replicate 225 0)) ∧ Request.malformed (req 1 0 (List.replicate 225 0)) = false ∧
    owned.root.claimed = true := by decide +kernel
theorem wit_Request_old : Taken owned 0x11 (req 0x11 3 [1]) ∧ Request.malformed (req 0x11 3 [1]) = false ∧ Request.field (req 0x11 3 [1]) 8 8 ≤ owned.root.seq.toNat := by
  decide +kernel
theorem wit_Request_checks : passesB owned 0x11 4 [1] = true := by decide +kernel
theorem wit_Request_unknown : Arrives owned (req 0x99 4 []) ∧ Request.malformed (req 0x99 4 []) = false ∧ Request.field (req 0x99 4 []) 4 2 = 0x99 := by decide +kernel
/-- A request in the buffer of a CXL spoke. -/
def cxlReq : Request := { req 3 0 [] with cxl := true, sp := 0 }
theorem wit_Request_cxl : Taken ((cxl owned).setSpoke 0 { (cxl owned).spoke 0 with reqBuf := cxlReq.bytes }) 3 cxlReq := by
  have e : (((cxl owned).setSpoke 0 { (cxl owned).spoke 0 with reqBuf := cxlReq.bytes }).spoke 0) = { (cxl owned).spoke 0 with reqBuf := cxlReq.bytes } := by rfl
  exact ⟨⟨by decide +kernel, by decide +kernel, by decide +kernel, by decide +kernel, fun _ => by show cxlReq.bytes = _; rw [show (cxlReq.sp.toNat) = 0 from rfl, e]⟩,
    by decide +kernel, by decide +kernel⟩
theorem wit_Claim : Taken (withRoot owned { owned.root with claimed := false }) 1 (req 1 0 (List.replicate 225 0)) ∧ Request.malformed (req 1 0 (List.replicate 225 0)) = false := by
  decide +kernel
theorem wit_Status : Taken owned 3 (req 3 0 []) ∧ Request.malformed (req 3 0 []) = false ∧ Taken owned 2 (req 2 0 [0, 0, 0, 0]) ∧ Request.malformed (req 2 0 [0, 0, 0, 0]) = false := by
  decide +kernel
theorem wit_Extend : Passes owned 0x60 (req 0x60 4 (7 :: List.replicate 8 0)) := passes_of (by decide +kernel)
theorem wit_Raise : Passes owned 0x61 (req 0x61 4 [3]) := passes_of (by decide +kernel)

/-- The machine of one core position on each die. -/
def lone : State := { owned with meshW := 1, meshH := 1 }
theorem flood_nil (w h : Nat) (en : Nat → Bool) (f : Nat) (seen : List Nat) : flood w h en f [] seen = seen := by cases f <;> rfl
theorem connected_lone (en : Nat → Bool) (h : (List.range 1024).filter en = [0]) : connected 1 1 en = true := by
  unfold connected
  rw [h]
  show decide ((flood 1 1 en 2048 [0] [0]).length = 1) = true
  have : neighbours 1 1 0 = [] := by decide +kernel
  rw [flood, this]
  simp [flood_nil]
theorem wit_Disable : Passes lone 0x41 (req 0x41 4 [1, 0x100]) ∧ disableOk 0x100 = true ∧
    ∀ d, d < 8 → connected lone.meshW lone.meshH (lone.enabledWith (lone.root.disable ++ [0x100]) (BitVec.ofNat 3 d)) = true :=
  ⟨passes_of (by decide +kernel), by decide, fun d hd => connected_lone _ (by
    have := (by decide +kernel : ∀ d, d < 8 → (List.range 1024).filter (lone.enabledWith (lone.root.disable ++ [0x100]) (BitVec.ofNat 3 d)) = [0])
    exact this d hd)⟩
theorem wit_Window : Passes owned 0x30 (req 0x30 4 [5, 2 ^ 63]) ∧ (Sparse.get (0 : Word) owned.root.windows 5).getLsbD 63 = false ∧
    (Sparse.get (0 : Word) [(5, 0x8000000000000000)] 5).getLsbD 63 = true := ⟨passes_of (by decide +kernel), by decide +kernel, by decide +kernel⟩
theorem wit_Invalidate : Passes owned 0x31 (req 0x31 4 [1, 0, 4096]) ∧ Passes owned 0x31 (req 0x31 4 [1, 0, 0]) :=
  ⟨passes_of (by decide +kernel), passes_of (by decide +kernel)⟩

/-- The device with context 1 active and nothing bound. -/
def idleS : State := { owned with cores := [] }
theorem wit_Create_context : Passes owned 0x10 (req 0x10 4 [2, 16, 1, 0, 0]) ∧ (owned.ctx (reqCtx (req 0x10 4 [2, 16, 1, 0, 0]))).state = 0 ∧
    ctxReserved (reqEntry (req 0x10 4 [2, 16, 1, 0, 0])) = false ∧ ({ ent := reqEntry (req 0x10 4 [2, 16, 1, 0, 0]) } : Ctx).state = 1 ∧ owned.splitOk 2 0 = true :=
  ⟨passes_of (by decide +kernel), by decide +kernel, by decide +kernel, by decide +kernel, by decide +kernel⟩
theorem wit_End_context : Passes owned 0x11 (req 0x11 4 [1]) ∧ (owned.ctx (reqCtx (req 0x11 4 [1]))).state = 1 := ⟨passes_of (by decide +kernel), by decide +kernel⟩
/-- A split beside a fenced group: one that leaves another group to the cache, one that does not. -/
theorem wit_Split : (∀ m, (idleS.ctx m).state = 1 → (idleS.ctx m).first + (idleS.ctx m).count ≤ 12) ∧
    (idleS.setSlab c0 { fenced := [0] }).splitOk 1 0xA02 = true ∧ (idleS.setSlab c0 { fenced := [0] }).splitOk 1 0xB01 = false ∧ idleS.splitOk 1 0xB01 = true := by
  decide +kernel
theorem wit_Set_split : Passes idleS 0x12 (req 0x12 4 [1, 0x205]) ∧ splitRange 0x205 = true ∧ (idleS.ctx 1).state = 1 ∧ idleS.hasBlock 1 = false ∧ idleS.splitOk 1 0x205 = true :=
  ⟨passes_of (by decide +kernel), by decide +kernel, by decide +kernel, by decide +kernel, by decide +kernel⟩
theorem wit_Create_queue : Passes owned 0x20 (req 0x20 4 [3, 1, 0, 4096, 16, 7]) ∧ Request.dword (req 0x20 4 [3, 1, 0, 4096, 16, 7]) 4 = 2 ^ 4 ∧ Sparse.find owned.queues 3 = none :=
  ⟨passes_of (by decide +kernel), by decide +kernel, by decide +kernel⟩
theorem wit_Fault_answer : Passes (owned.setCtx 1 { owned.ctx 1 with faults := [{ fr0 with written := true }] }) 0x32 (req 0x32 4 [1, 0, 0]) ∧
    ((owned.setCtx 1 { owned.ctx 1 with faults := [{ fr0 with written := true }] }).ctx 1).faults = [] ++ { fr0 with written := true } :: [] :=
  ⟨passes_of (by decide +kernel), by decide +kernel⟩
theorem wit_Repair : Passes owned 0x40 (req 0x40 4 ([64, 64] ++ List.replicate 8 0)) ∧ hubReserved 64 = false := ⟨passes_of (by decide +kernel), by decide +kernel⟩
theorem wit_Repair_refused : Passes owned 0x40 (req 0x40 4 ([0xFFC0000000, 64] ++ List.replicate 8 0)) ∧ hubReserved 0xFFC0000000 = true ∧ hubWorking 0xFFC0000000 = false :=
  ⟨passes_of (by decide +kernel), by decide +kernel, by decide +kernel⟩
theorem wit_Race_ring : Passes owned 0x50 (req 0x50 4 [7, 1, 64, 16, 1]) ∧ Passes owned 0x50 (req 0x50 4 [7, 1, 64, 16, 0]) ∧ Request.dword (req 0x50 4 [7, 1, 64, 16, 1]) 3 = 2 ^ 4 ∧
    (owned.ctx 1).state = 1 := ⟨passes_of (by decide +kernel), passes_of (by decide +kernel), by decide +kernel, by decide +kernel⟩

-- witnesses: errors, fences, heat, boot, frames, the step

theorem wit_Error_line : (2 ^ 40 - 1 < 2 ^ 40) ∧ Sparse.find (mk sl0).hot (rowKey 64) = none ∧
    Sparse.find ({ mk sl0 with hot := [(rowKey 64, 5)] } : State).hot (rowKey 64) = some 5 := ⟨by decide, by decide +kernel, by simp [Sparse.find]⟩
theorem wit_Error_record : ∃ s : State, (s.run (.cog0 c0)).recs[0]? = some ra ∧ (s.run (.cog0 c0)).recs.Pairwise (fun a b => a.key < b.key) ∧
    (s.cores.map Prod.fst).filter (fun k => decide (k / 1024 = 0)) = [0] :=
  ⟨run0 [ra, rec1 9] none, by decide +kernel, by decide +kernel, by decide +kernel⟩
theorem wit_Error_tlb : ∃ s : State, 0 < (s.cluster (CoreId.clusterKey c0)).tlb.length :=
  ⟨(mk sl0).setCluster (CoreId.clusterKey c0) { tlb := [⟨1, 4, 2, 9, true, true, true⟩] }, by decide +kernel⟩
/-- A unit of a slab in scratch mode, one in cache mode. -/
theorem wit_Error_slab : ((deepSlab (mk sl0)).slab c0).mode (98303 / 8192) ≠ some 0 ∧ ((mk sl0).slab c0).mode (98303 / 8192) = some 0 := by decide +kernel
theorem wit_Error_control : ((mk sl0).core c0).fenced = false ∧ ((mk sl0).cluster (clusterKey 0 0)).fenced = false ∧ ((mk sl0).die 0).held = false ∧
    Sparse.find (queueS (q0 [{ n := 7, rec0 := 0 }])).queues 3 = some (q0 [{ n := 7, rec0 := 0 }]) ∧ blk1.queue = 3 ∧ blk1.seq = 7 := by decide +kernel

theorem wit_Fence_channel : (31 : BitVec 5).toNat ∉ ((mk sl0).die 0).badChannels := by decide +kernel
/-- A machine whose die has seen errors in some rows of channel 31, whose slab has had uncorrectable units in group 11, and whose spoke 31 has replayed. -/
def worn (rows units replays : Nat) : State := (fun (s : State) => (s.setDie 0 { (s.die 0) with badRows := (List.range rows).map fun r => (31, r, 0) }).setSpoke 31
  { (s.spoke 31) with replays := replays }) ((deepSlab (mk sl0)).setSlab c0 { (deepSlab (mk sl0)).slab c0 with badUnits := List.replicate units (11, 0) })
theorem wit_Fence_thresholds :
    16 < (((worn 17 4 64).die 0).badRows.filter fun b => decide (b.1 = (31 : BitVec 5).toNat ∧ ((worn 17 4 64).die 0).clock < b.2.2 + 3000000000)).length ∧
    (31 : BitVec 5).toNat ∉ ((worn 17 4 64).die 0).badChannels ∧ 11 ∉ ((worn 17 4 64).slab c0).fenced ∧ ((worn 17 4 64).slab c0).mode 11 ≠ some 0 ∧
    4 ≤ (((worn 17 4 64).slab c0).badUnits.filter fun b => decide (b.1 = (11 : BitVec 4).toNat ∧ ((worn 17 4 64).die c0.die).clock < b.2 + 3000000000)).length ∧
    ((worn 17 4 64).spoke 31).fenced = false ∧ 64 ≤ ((worn 17 4 64).spoke 31).replays := by decide +kernel
theorem wit_Fence_cache : 4 ≤ (((mk sl0).setSlab c0 { badUnits := List.replicate 4 (11, 0) }).slab c0).badUnits.length ∧
    (((mk sl0).setSlab c0 { badUnits := List.replicate 4 (11, 0) }).slab c0).mode (11 : BitVec 4).toNat = some 0 := by decide +kernel
/-- A die that changes its routes, with a record that a peer has accepted. -/
def rerouted (q : List Accepted) : State := { (mk sl0).setDie 0 { ((mk sl0).die 0) with routing := some 5 } with peerq := q }
theorem wit_Route : ((mk sl0).die 0).routing = none ∧ ((rerouted []).die 0).routing ≠ none ∧ (¬ ∃ a ∈ (rerouted []).peerq, a.r.sdie = 0) ∧
    ∃ a : Accepted, a.r.sdie = 0 ∧ ∃ b ∈ (rerouted [a]).peerq, b.r.sdie = 0 :=
  ⟨by decide +kernel, by decide +kernel, fun ⟨_, h, _⟩ => absurd h List.not_mem_nil, { id := 0, r := rec1 9 }, rfl, _, List.mem_cons_self, rfl⟩
theorem wit_Patrol : ((deepSlab (mk sl0)).slab c0).mode (98303 / 8192) = some 1 ∧ ((deepSlab (mk sl0)).die 0).held = false ∧
    ∃ s : State, (s.slab c0).mode (98303 / 8192) = some 2 ∧ (s.slab c0).seq.st = .idle :=
  ⟨by decide +kernel, by decide +kernel, (mk sl0).setSlab c0 { modes := [(11, 2)] }, by decide +kernel⟩
theorem wit_Fence_group : 11 ∉ ((deepSlab (mk sl0)).slab c0).fenced ∧ ((deepSlab (mk sl0)).slab c0).mode 11 ≠ some 0 ∧ ((deepSlab (mk sl0)).ctx blk1.ctx).first ≤ 11 ∧ 11 < ((deepSlab (mk sl0)).ctx blk1.ctx).first + ((deepSlab (mk sl0)).ctx blk1.ctx).count ∧
    ((mk sl0).slab c0).mode 11 = some 0 := by decide +kernel
theorem wit_Fence_spoke : ((mk sl0).spoke 31).fenced = false ∧ ((mk sl0).spoke 31).cxl = false ∧ ((mk sl0).spoke 31).replays < 64 := by decide +kernel
theorem wit_Scrub_read : 2 ^ 34 - 1 < 2 ^ 34 ∧ ((mk sl0).die (homeDie (64 * (2 ^ 34 - 1)))).held = false := by decide +kernel
theorem wit_Scrub_write : ({ mk sl0 with scrubs := [(4, 0), (5, 1)] } : State).scrubs = [(4, 0)] ++ (5, 1) :: [] ∧ ∀ x ∈ [((4, 0) : Nat × Nat)], x.1 ≠ 5 := by decide
/-- A machine with a row on the hot list and in the scores; a clock after 8 days. -/
def rowS (n spare : Nat) : State := (fun (s : State) => { s with
  hot := [(0, 5)], scores := [(0, n)], spares := [(2 ^ 32 * rowStack 0 + Config.bankOf 0 % 2 ^ 32, spare)]
  dies := s.dies.set 0 { (s.die 0) with clock := 8 * 86400 * 3000000000 } }) (mk sl0)
theorem rowDie_zero : rowDie 0 = 0 := by decide +kernel
theorem wit_Hot_expires : Sparse.find (rowS 200 0).hot 0 = some 5 ∧ 5 + 7 * 86400 * 3000000000 ≤ ((rowS 200 0).die (rowDie 0)).clock := by
  rw [rowDie_zero]
  decide +kernel
theorem wit_Score_decays : 0 < scoreOf (rowS 200 0) 0 ∧ Sparse.get 0 (rowS 200 0).decays 0 < ((rowS 200 0).die (rowDie 0)).clock / (86400 * 3000000000) := by
  rw [rowDie_zero]
  decide +kernel
theorem wit_Score_stays : ((mk sl0).die (rowDie 0)).clock / (86400 * 3000000000) ≤ Sparse.get 0 (mk sl0).decays 0 := by
  rw [rowDie_zero]
  decide +kernel
theorem wit_Row_retires (n : Nat) : 128 ≤ scoreOf (rowS 128 n) 0 ∧ 0 ∉ (rowS 128 n).noSpare ∧
    Sparse.get 0 (rowS 128 n).spares (2 ^ 32 * rowStack 0 + Config.bankOf (0 % 2 ^ 32) % 2 ^ 32) = n :=
  ⟨Nat.le_refl 128, (fun h => by cases h), by simp [rowS, Sparse.get]⟩

theorem wit_Power : ((mk sl0).die 0).held = false ∧ [(46 : Byte)][(0 : BitVec 3).toNat]? = some 46 ∧ [(46 : Byte)][(1 : BitVec 3).toNat]? = none := by decide +kernel
theorem wit_Actlim : ((late (mk sl0)).die 0).actWin[(1 : Fin 2)] < (((late (mk sl0)).die 0).clock + 1) / 3000 := by decide +kernel
/-- A stack at its limit, one below it. -/
theorem wit_Row_limit : ∃ s : State, (s.die 0).actlim[(0 : Fin 2)] = some 4 ∧ 4 ≤ (s.die 0).actUsed[(0 : Fin 2)] ∧ (s.die 0).actlim[(1 : Fin 2)] = some 4 ∧
    (s.die 0).actUsed[(1 : Fin 2)] < 4 ∧ place (64 * 512) = 0 :=
  ⟨(mk sl0).setDie 0 { (mk sl0).die 0 with actlim := Vector.replicate 2 (some 4), actUsed := #v[4, 3] }, by decide +kernel⟩
theorem wit_Clock_stop : ∃ s : State, (s.die 0).held = false ∧ (s.die 0).boot = false ∧ (s.die 0).wake = false ∧ (s.die 0).stopped = false ∧ s.cores = [] ∧ s.clusters = [] :=
  ⟨State.reset, by decide +kernel⟩
theorem wit_Clock_goes_on : ∃ k x, (k, x) ∈ (mk sl0).cores ∧ k / 1024 = 0 ∧ x.table ≠ [] := ⟨0, core0 sl0, by decide +kernel, by decide, by decide +kernel⟩
theorem wit_Clock_restart : ∃ s : State, (s.die 0).stopped = true ∧ (s.die 0).wake = true := ⟨(mk sl0).setDie 0 { stopped := true, wake := true }, by decide +kernel⟩
theorem wit_Hot_die : ((mk sl0).die 0).hotDie = false ∧ (((mk sl0).setDie 0 { hotDie := true }).die 0).hotDie = true ∧ (((mk sl0).setDie 0 { hotDie := true }).die 0).held = false := by
  decide +kernel

/-- An image of a type: its bytes before the signature, the signature over these and the body with the vendor's key, which is all zeros, and the body. -/
def vendor : List Byte := List.replicate 1793 0
theorem vendor_length : vendor.length = 1793 := List.length_replicate
theorem le_length (n v : Nat) : (le n v).length = n := by rw [le, List.length_map, List.length_range]
def imgHead (typ : Nat) : List Byte := le 4 0x56464D31 ++ (le 4 typ ++ (le 4 7 ++ (le 4 2 ++ (vendor ++ le 7 0))))
theorem imgHead_length (typ : Nat) : (imgHead typ).length = 1816 := by simp only [imgHead, List.length_append, le_length, vendor_length]
def sigOf (typ : Nat) : BitVec 10240 := Config.falconSign (BitVec.ofNat 14344 (leNat vendor)) (Config.shake256 (imgHead typ ++ [1, 2]))
def image2 (typ : Nat) : List Byte := imgHead typ ++ (le 1280 (sigOf typ).toNat ++ [1, 2])
/-- A root whose flash has such images at some places. -/
def flashed (l : List Nat) : Root := { vkh := Config.shake256 vendor, flash := Vector.ofFn fun i => if l.contains i.val then image2 (i.val % 3 + 1) else [] }
theorem image_field (off n v typ : Nat) (pre post : List Byte) (he : image2 typ = pre ++ (le n v ++ post)) (hl : pre.length = off) :
    imgNum (image2 typ) off n = v % 256 ^ n := by
  rw [imgNum, he, ← hl, List.drop_left, List.take_left' (le_length n v), leNat_le]
def imgTail (typ : Nat) : List Byte := le 1280 (sigOf typ).toNat ++ [1, 2]
theorem image_split (typ : Nat) : image2 typ = le 4 0x56464D31 ++ (le 4 typ ++ (le 4 7 ++ (le 4 2 ++ (vendor ++ (le 7 0 ++ imgTail typ))))) := by
  simp only [image2, imgHead, imgTail, List.append_assoc]
theorem image_magic (typ : Nat) : imgNum (image2 typ) 0 4 = 0x56464D31 :=
  (image_field 0 4 0x56464D31 typ [] (le 4 typ ++ (le 4 7 ++ (le 4 2 ++ (vendor ++ (le 7 0 ++ imgTail typ)))))
    (by rw [image_split, List.nil_append]) rfl).trans (by decide)
theorem image_typ (typ : Nat) (h : typ < 2 ^ 32) : imgNum (image2 typ) 4 4 = typ :=
  (image_field 4 4 typ typ (le 4 0x56464D31) (le 4 7 ++ (le 4 2 ++ (vendor ++ (le 7 0 ++ imgTail typ)))) (image_split typ) (le_length ..)).trans (Nat.mod_eq_of_lt h)
theorem image_version (typ : Nat) : imgNum (image2 typ) 8 4 = 7 :=
  (image_field 8 4 7 typ (le 4 0x56464D31 ++ le 4 typ) (le 4 2 ++ (vendor ++ (le 7 0 ++ imgTail typ)))
    (by rw [image_split]; simp only [List.append_assoc])
    (by simp only [List.length_append, le_length])).trans (by decide)
theorem image_size (typ : Nat) : imgNum (image2 typ) 12 4 = 2 :=
  (image_field 12 4 2 typ (le 4 0x56464D31 ++ (le 4 typ ++ le 4 7)) (vendor ++ (le 7 0 ++ imgTail typ))
    (by rw [image_split]; simp only [List.append_assoc]) (by simp only [List.length_append, le_length])).trans (by decide)
theorem image_gap (typ : Nat) : imgNum (image2 typ) 1809 7 = 0 :=
  (image_field 1809 7 0 typ (le 4 0x56464D31 ++ (le 4 typ ++ (le 4 7 ++ (le 4 2 ++ vendor)))) (imgTail typ)
    (by rw [image_split]; simp only [List.append_assoc]) (by simp only [List.length_append, le_length, vendor_length])).trans (by decide)
theorem image_key (typ : Nat) : ((image2 typ).drop 16).take 1793 = vendor := by
  rw [show image2 typ = (le 4 0x56464D31 ++ (le 4 typ ++ (le 4 7 ++ le 4 2))) ++ (vendor ++ (le 7 0 ++ imgTail typ)) by
      rw [image_split]; simp only [List.append_assoc],
    List.drop_left' (by simp only [List.length_append, le_length]), List.take_left' vendor_length]
theorem image_sig (typ : Nat) : imgNum (image2 typ) 1816 1280 = (sigOf typ).toNat :=
  (image_field 1816 1280 _ typ (imgHead typ) [1, 2] rfl (imgHead_length typ)).trans (by rw [pow256, Nat.mod_eq_of_lt (BitVec.isLt _)])
theorem image_length (typ : Nat) : (image2 typ).length = 3098 := by
  rw [image2, List.length_append, List.length_append, imgHead_length, le_length]; rfl
theorem image_body (typ : Nat) : imgBody (image2 typ) = [1, 2] := by
  rw [imgBody, image_size, image2, ← List.append_assoc, List.drop_left' (by rw [List.length_append, imgHead_length, le_length])]; rfl
theorem image_digest (typ : Nat) : imgDigest (image2 typ) = Config.shake256 (imgHead typ ++ [1, 2]) := by
  rw [imgDigest, image_body, image2, List.take_left' (imgHead_length typ)]
theorem image_signed (typ : Nat) :
    Config.verifies (BitVec.ofNat 14344 (leNat vendor)) (Config.shake256 (imgHead typ ++ [1, 2])) (BitVec.ofNat 10240 (sigOf typ).toNat) = true := by
  rw [BitVec.ofNat_toNat, BitVec.setWidth_eq, Config.verifies, sigOf, decide_eq_true rfl, Bool.true_or]
theorem image_ok (x : Root) (b : BitVec 1) (typ : Nat) (h1 : flashImage x b typ = image2 typ) (hv : x.vkh = Config.shake256 vendor) (h3 : typ < 2 ^ 32)
    (h4 : x.counters[typ - 1]?.getD 0 ≤ 7) : ImageOk x b typ := by
  unfold ImageOk
  rw [h1]
  dsimp only
  rw [image_size, image_magic, image_gap, image_key, image_digest, image_sig, image_typ typ h3, image_version, image_length]
  exact ⟨by decide, rfl, rfl, hv.symm, image_signed typ, rfl, h4, by decide⟩
theorem bundle_ok (l : List Nat) (b : BitVec 1) (h : ∀ j, j < 3 → l.contains (3 * b.toNat + j) = true) : BundleOk (flashed l) b := by
  have hb := b.isLt
  have img (typ : Nat) (h0 : 1 ≤ typ) (h3 : typ ≤ 3) : ImageOk (flashed l) b typ := by
    refine image_ok _ b typ ?_ rfl (by omega) ?_
    · have hi : 3 * b.toNat + typ - 1 < 6 := by omega
      have hc : l.contains (3 * b.toNat + typ - 1) = true := by have := h (typ - 1) (by omega); rwa [← Nat.add_sub_assoc h0] at this
      have hm : (3 * b.toNat + typ - 1) % 3 + 1 = typ := by omega
      rw [flashImage, flashed, Vector.getElem?_ofFn, dif_pos hi]
      simp only [hc, if_true, Option.getD_some, hm]
    · have : (flashed l).counters = Vector.replicate 3 0 := rfl
      rw [this, Vector.getElem?_replicate]
      split <;> exact Nat.zero_le 7
  exact ⟨img 1 (by decide) (by decide), img 2 (by decide) (by decide), img 3 (by decide) (by decide)⟩
theorem wit_Reset_boots : BundleOk (flashed [0, 1, 2]) 0 := bundle_ok _ 0 (by decide)
theorem not_ok (l : List Nat) (b : BitVec 1) (h : l.contains (3 * b.toNat) = false) : ¬ BundleOk (flashed l) b := fun hb => by
  have h0 := hb.1.1
  have hi : 3 * b.toNat < 6 := by have := b.isLt; omega
  have : flashImage (flashed l) b 1 = [] := by
    rw [flashImage, flashed, Vector.getElem?_ofFn, Nat.add_sub_cancel, dif_pos hi]
    simp only [h]
    rfl
  rw [this] at h0
  exact absurd h0 (by decide)
theorem wit_Reset_second : ¬ BundleOk (flashed [1, 3, 4, 5]) 0 ∧ BundleOk (flashed [1, 3, 4, 5]) 1 := ⟨not_ok _ 0 (by decide), bundle_ok _ 1 (by decide)⟩
theorem wit_Reset_recovers : ¬ BundleOk (flashed []) 0 ∧ ¬ BundleOk (flashed []) 1 := ⟨not_ok _ 0 (by decide), not_ok _ 1 (by decide)⟩


/-- A die of one core position in boot state, whose core has exited, with its drain at some point. -/
def outCore (ph : DrainSt) : Core := { slots := (Vector.replicate 16 ({} : Slot)).set 0 { st := .exited, blk := some 0 }, table := [(0, { rec0 := 0, boot := true, ph := ph })] }
def bootEnd (ph : DrainSt) : State := { State.reset with meshW := 1, meshH := 1, dies := State.reset.dies.set 0 { State.reset.dies[0] with boot := true }, cores := [(0, outCore ph)] }
theorem bootEnd_alone {ph : DrainSt} {q : Nat} (h : BootsOn (bootEnd ph) 0 q) : q = 0 := by
  obtain ⟨⟨h1, h2, h3, -⟩, -⟩ := h
  have hw : (bootEnd ph).meshW = 1 := rfl
  have hh : (bootEnd ph).meshH = 1 := rfl
  rw [hw] at h2
  rw [hh] at h3
  omega
theorem bootEnd_boots (ph : DrainSt) : BootsOn (bootEnd ph) 0 0 :=
  ⟨⟨by decide, Nat.one_pos, Nat.one_pos, (by decide +kernel : ((bootEnd .todo).die 0).fuse.getLsbD 0 = true), fun _ h => absurd h List.not_mem_nil⟩, rfl⟩
theorem bootEnd_exited (ph : DrainSt) : ((bootEnd ph).slot (CoreId.ofKey (1024 * (0 : BitVec 3).toNat + 0)) 0).st = .exited := rfl
theorem wit_Boot_drains : ((bootEnd .todo).die 0).boot = true ∧ ((bootEnd .todo).die 0).held = false ∧
    (∀ q, BootsOn (bootEnd .todo) 0 q → ((bootEnd .todo).slot (CoreId.ofKey (1024 * (0 : BitVec 3).toNat + q)) 0).st = .exited) ∧ BootsOn (bootEnd .todo) 0 0 ∧
    DrainMoves (bootEnd .todo) c0 0 3 none [] .todo (.level 0 none) (bootEnd .todo) :=
  ⟨by decide +kernel, by decide +kernel, fun q h => by rw [bootEnd_alone h]; exact bootEnd_exited _, bootEnd_boots _, .start⟩
theorem wit_Boot_ends : ((bootEnd .sent).die 0).boot = true ∧ ((bootEnd .sent).die 0).held = false ∧ 0 < (bootEnd .sent).meshW ∧
    (∀ q, BootsOn (bootEnd .sent) 0 q → ((bootEnd .sent).slot (CoreId.ofKey (1024 * (0 : BitVec 3).toNat + q)) 0).st = .exited ∧
      (Sparse.get { rec0 := 0 } ((bootEnd .sent).core (CoreId.ofKey (1024 * (0 : BitVec 3).toNat + q))).table 0).ph = .sent) ∧
    (bootEnd .sent).transit = [] ∧ (bootEnd .sent).acceptedRecs = [] :=
  ⟨by decide +kernel, by decide +kernel, Nat.one_pos, fun q h => by rw [bootEnd_alone h]; exact ⟨bootEnd_exited _, rfl⟩, rfl, by decide +kernel⟩


/-- An instruction that goes on to a next state. -/
def isNext (s : State) (i : Instr) : Bool := (issueOf s i).isSome && (nextOf (exec i s)).isSome
theorem wit_Frame : isNext (mk sl0) (.addReg on false 1 2 3) = true ∧ RegId.g 1 ∈ ((issueOf (mk sl0) (.addReg on false 1 2 3)).map fun f => f.writes).getD [] := by decide +kernel
theorem wit_Frame_special : isNext (mk sl0) (.trap on 7) = true ∧ isWrs (.trap on 7) = false ∧ ((nextOf (exec (.trap on 7) (mk sl0))).any fun t => decide (t.cs.trapcause ≠ 0)) = true := by
  decide +kernel
theorem wit_Frame_loop : loopEnd 0x1000 (.loopImm on 0 4) = some 0x101C ∧ stepsGenerator (.cpyres on 1) = true ∧ holdsSlot (.tld on 0 2 0) = true := by decide
theorem wit_Frame_scratch : isNext (mk (atA 32)) (.stsv on 1 (ea 2)) = true ∧ writesScratch (.stsv on 1 (ea 2)) = true ∧ writesDeep (.std on t64 1 (ea 2)) = true := by decide +kernel
theorem wit_Frame_runs : isNext (mk (atA 0x40)) (.upd on 1 t64 1 (ea 2)) = true ∧ (mk (atA 0x40)).block.boot = false ∧
    (recordsOf (mk (atA 0x40)) [0x40] (.upd on 1 t64 1 (ea 2))).any (fun y => decide (y.1 = 0)) = true := by decide +kernel

/-- The machine about to give slot 0 its turn, with a word at the pc. -/
def about (pc : BitVec 48) (w : Nat) : State := { (mk { sl0 with pc := pc }).writeMem pc.toNat w 12 with agenda := [.turn c0 0] }
/-- The machine in which slot 0 fetches: its turn given, no other pc's translation awaited. -/
def turned (pc : BitVec 48) (w : Nat) : State :=
  let v : State := { turnGiven { about pc w with agenda := [] } c0 with cur := (c0, 0) }
  v.setDie 0 { v.die 0 with misses := (v.die 0).misses.filter fun m => !decide (m.core = c0 ∧ m.who = 0 ∧ m.pc ≠ ((about pc w).slot c0 0).pc) }
def fetched (s : State) (pc : BitVec 48) : Trans := s.translate c0 0 s.block.boot s.block.ctx (pc.setWidth 64) { x := true }
/-- The instruction in the bytes. -/
def decodes (s : State) (pc : BitVec 48) (n : Nat) : Option Bool := match decode (BitVec.ofNat 160 (codeAt s pc.toNat n)) with
  | .ok _ => some true
  | .error _ => some false
/-- What the statement asks of the machine before the step. -/
abbrev mayStep (s : State) : Prop := HasTurn s c0 0 ∧ GoesOn s c0 0 ∧ (s.slot c0 0).busy = none ∧ (s.slot c0 0).epend = [] ∧ (s.slot c0 0).trapcause.getLsbD 9 = false ∧ ∃ rest, s.agenda = .turn c0 0 :: rest
theorem wit_Fetch_opens : (turned 0x10000 0x0E288008).openFetch.isSome = true := by decide +kernel
theorem wit_Step : mayStep (about 0x10000 0x0E288008) ∧ okAt (fetched (turned 0x10000 0x0E288008) 0x10000) 0x10000 = true ∧
    lenBytes (BitVec.ofNat 2 (codeAt (about 0x10000 0x0E288008) 0x10000 4)) = 4 ∧ decodes (about 0x10000 0x0E288008) 0x10000 4 = some true :=
  ⟨⟨by decide +kernel, by decide +kernel, by decide +kernel, by decide +kernel, by decide +kernel, [], rfl⟩, by decide +kernel⟩
theorem wit_Step_illegal : mayStep (about 0x10000 0) ∧ okAt (fetched (turned 0x10000 0) 0x10000) 0x10000 = true ∧ decodes (about 0x10000 0) 0x10000 4 = some false :=
  ⟨⟨by decide +kernel, by decide +kernel, by decide +kernel, by decide +kernel, by decide +kernel, [], rfl⟩, by decide +kernel⟩
theorem wit_Step_two_pages : mayStep (about 0x10FFC 0x100000CC000028E182) ∧ okAt (fetched (turned 0x10FFC 0x100000CC000028E182) 0x10FFC) 0x10FFC = true ∧
    okAt (fetched (turned 0x10FFC 0x100000CC000028E182) 0x11000) 0x11000 = true ∧ 4096 - (0x10FFC : BitVec 48).toNat % 4096 < lenBytes 2 ∧
    decodes (about 0x10FFC 0x100000CC000028E182) 0x10FFC 12 = some true :=
  ⟨⟨by decide +kernel, by decide +kernel, by decide +kernel, by decide +kernel, by decide +kernel, [], rfl⟩, by decide +kernel⟩
theorem wit_Decode_encode : (Instr.ld on ⟨true, 2, 3⟩ 7 ⟨5, 0, 16⟩).wf = true ∧ (fieldsOf (.ld on ⟨true, 2, 3⟩ 7 ⟨5, 0, 16⟩)).isSome = true ∧
    (mi 31 224 0 32 0 2).wfFor .mfadd = true := by decide +kernel
theorem reset_wf : Memory.wf State.reset.mem = true := by decide
theorem wit_Canonical : Memory.wf (about 0x10000 0x0E288008).mem = true ∧ (nextOf (step (about 0x10000 0x0E288008))).isSome = true := by decide +kernel

-- one word for each fetched instruction and microinstruction, written out from the encoding tables (spec/04 R86 to R101, spec/12 R260)

/-- The words decode to the instruction. -/
def reads1 (e : List (BitVec 32) × Instr) : Bool := match decode (bitsOfWords e.1) with
  | .ok i => decide (i = e.2)
  | .error _ => false
def microReads (e : Word × MicroOp × Micro) : Bool := match decodeMicro e.1 with
  | .ok x => decide (x = e.2)
  | .error _ => false
theorem test_words_1 : List.all [([0xDB9AF604], .addReg ⟨true, 3⟩ true 23 51 45),
    ([0xC4055E08], .addImm ⟨true, 7⟩ true 42 0 34),
    ([0x000E4E05, 0x3FC1EA36, 0xA6233255], .addLit ⟨false, 7⟩ false 50 1 0xa62332553fc1ea36),
    ([0x3287060C], .subReg ⟨false, 3⟩ false 56 16 25),
    ([0xDE0A1210], .subImm ⟨true, 1⟩ true 16 1 47),
    ([0x01D9880D, 0xDE11CC9D, 0xC4069545], .subLit ⟨false, 4⟩ false 12 59 0xc4069545de11cc9d),
    ([0x51413E14], .mulReg ⟨true, 7⟩ false 9 40 40),
    ([0x70182418], .mulImm ⟨false, 2⟩ false 1 3 56),
    ([0x8011C415, 0xFB7FF337, 0x2A759159], .mulLit ⟨false, 2⟩ true 14 2 0x2a759159fb7ff337),
    ([0xF319A61C], .andReg ⟨false, 3⟩ true 13 35 57),
    ([0x7C099C20], .andImm ⟨true, 6⟩ false 12 1 62),
    ([0x81D0541D, 0x00000006, 0x00000000], .andLit ⟨true, 2⟩ true 2 58 6),
    ([0x8A894424], .orReg ⟨false, 2⟩ true 10 17 5),
    ([0x8334E628], .orImm ⟨false, 3⟩ true 39 38 1),
    ([0x802ADC25, 0x000000D2, 0x00000000], .orLit ⟨true, 6⟩ true 22 5 210),
    ([0x3EF98C2C], .xorReg ⟨false, 6⟩ false 12 31 31),
    ([0x7A1A3430], .xorImm ⟨true, 2⟩ false 17 3 61),
    ([0x00D6EC2D, 0x000000CA, 0x00000000], .xorLit ⟨false, 6⟩ false 55 26 202),
    ([0xBA0EC834], .shlReg ⟨false, 4⟩ true 54 1 29),
    ([0x7C150C38], .shlImm ⟨false, 6⟩ false 40 2 62),
    ([0x80020235, 0x00000077, 0x00000000], .shlLit ⟨false, 1⟩ true 16 0 119),
    ([0xE48C563C], .shrReg ⟨true, 3⟩ true 34 17 50),
    ([0xE9960240], .shrImm ⟨false, 1⟩ true 48 50 52),
    ([0x00E06E3D, 0xF21FF5EB, 0xFA749692], .shrLit ⟨false, 7⟩ false 3 28 0xfa749692f21ff5eb),
    ([0x95DB0A44], .sraReg ⟨false, 5⟩ true 24 59 10),
    ([0x8D1DA648], .sraImm ⟨false, 3⟩ true 45 35 6),
    ([0x00628C45, 0xCC7C6D81, 0x1404AB1E], .sraLit ⟨false, 6⟩ false 20 12 0x1404ab1ecc7c6d81),
    ([0x5E5BFC4C], .rolReg ⟨true, 6⟩ false 31 11 47),
    ([0xF91CE250], .rolImm ⟨false, 1⟩ true 39 35 60),
    ([0x013E024D, 0x00000041, 0x00000000], .rolLit ⟨false, 1⟩ false 48 39 65)] reads1 = true := by decide +kernel
theorem test_words_2 : List.all [([0x76189854], .minReg ⟨true, 4⟩ false 4 3 59),
    ([0xECB41258], .minImm ⟨true, 1⟩ true 32 22 54),
    ([0x812DE455, 0x000000A2, 0x00000000], .minLit ⟨false, 2⟩ true 47 37 162),
    ([0x0853045C], .maxReg ⟨false, 2⟩ false 24 10 4),
    ([0x78F15860], .maxImm ⟨true, 4⟩ false 10 30 60),
    ([0x80197A5D, 0x000000F6, 0x00000000], .maxLit ⟨true, 5⟩ true 11 3 246),
    ([0x2693FC64], .minnReg ⟨true, 6⟩ false 31 18 19),
    ([0x80414865, 0x60831EF2, 0xD2723248], .minnLit ⟨false, 4⟩ true 10 8 0xd272324860831ef2),
    ([0x8C62D868], .maxnReg ⟨true, 4⟩ true 22 12 6),
    ([0x81266669, 0xDE0D0FC5, 0x80B91B2E], .maxnLit ⟨false, 3⟩ true 51 36 0x80b91b2ede0d0fc5),
    ([0xCD6AFE6C], .andnReg ⟨true, 7⟩ true 23 45 38),
    ([0x80C2926D, 0x000000AC, 0x00000000], .andnLit ⟨true, 1⟩ true 20 24 172),
    ([0x5A1E5870], .ornReg ⟨true, 4⟩ false 50 3 45),
    ([0x80B03671, 0xA6523995, 0x2DBBF762], .ornLit ⟨true, 3⟩ true 1 22 0x2dbbf762a6523995),
    ([0xBCAA2A76, 0x00000000, 0x00000000], .mulh ⟨false, 5⟩ true 17 21 (.reg 30)),
    ([0xAF654E76, 0x00000040, 0x00000000], .mulhn ⟨false, 7⟩ true 42 44 (.reg 23)),
    ([0x2E0E0C76, 0x00000080, 0x00000000], .div ⟨false, 6⟩ false 48 1 (.reg 23)),
    ([0x07C71E76, 0x000000C0, 0x00000000], .divn ⟨true, 7⟩ false 56 56 (.reg 3)),
    ([0x9B114676, 0x00000100, 0x00000000], .rem ⟨false, 3⟩ true 10 34 (.reg 13)),
    ([0x80FEF677, 0x00000140, 0x00000000, 0x142EA4CD, 0xB83D5F7B], .remn ⟨true, 3⟩ true 55 31 (.lit 0xb83d5f7b142ea4cd)),
    ([0x4D417C76, 0x000001A2, 0x00000000], .mad ⟨true, 6⟩ false 11 40 (.reg 38) 34),
    ([0x01251878], .clz ⟨true, 4⟩ false 40 36),
    ([0x837A5E78], .ctz ⟨true, 7⟩ true 18 47),
    ([0x05317278], .popc ⟨true, 1⟩ false 11 38),
    ([0x86798A78], .brev ⟨false, 5⟩ true 12 15),
    ([0x09753C78], .bswap ⟨true, 6⟩ false 41 46),
    ([0x8A59E878], .abs ⟨false, 4⟩ true 15 11),
    ([0x0012A47E, 0x07CC0000, 0x00000000], .bfx ⟨false, 2⟩ false 21 2 12 31),
    ([0x00F36A7E, 0x06570040, 0x00000000], .bfxs ⟨false, 5⟩ false 27 30 23 25),
    ([0x0074DA7E, 0x0B900080, 0x00000000], .bfi ⟨true, 5⟩ false 38 14 16 46)] reads1 = true := by decide +kernel
theorem test_words_3 : List.all [([0x000AF67F, 0x000000C4, 0x00000000, 0x68F8886F, 0xDDCC78DE], .sel ⟨true, 3⟩ false 23 4 1 (.lit 0xddcc78de68f8886f)),
    ([0xC8C48C7E, 0x00000100, 0x9D128945], .lea ⟨false, 6⟩ true 36 24 (.reg 36) 0x9d128945),
    ([0xA602CA7E, 0x00010100, 0xF5532E9C], .leaPcr ⟨false, 5⟩ true 22 (.reg 19) 0xf5532e9c),
    ([0xB11DC880], .cmpSignedReg ⟨false, 4⟩ true 5 6 35 24),
    ([0x3F2D8484], .cmpSignedImm ⟨false, 2⟩ false 5 4 37 31),
    ([0x8032B481, 0x59E2BE57, 0xD23C6940], .cmpSignedLit ⟨true, 2⟩ true 2 5 6 0xd23c694059e2be57),
    ([0x151DA288], .cmpNaturalReg ⟨false, 1⟩ false 5 5 35 10),
    ([0xB8E58C8C], .cmpNaturalImm ⟨false, 6⟩ true 5 4 28 28),
    ([0x001B9489, 0xB5530D8E, 0x61394C10], .cmpNaturalLit ⟨true, 2⟩ false 3 4 3 0x61394c10b5530d8e),
    ([0x0818DA90], .pand ⟨true, 5⟩ false 6 3 4),
    ([0x18186890], .por ⟨false, 4⟩ false 3 3 4),
    ([0x22089690], .pxor ⟨true, 3⟩ false 4 1 1),
    ([0xB0109A90], .pmov ⟨true, 5⟩ true 4 2),
    ([0x664EA2A0], .bra ⟨false, 1⟩ 51 9 53),
    ([0x3F1C82A4], .call ⟨false, 1⟩ 31 35 36),
    ([0x000004A8], .brx ⟨false, 2⟩ 0),
    ([0x02180EA8], .callx ⟨false, 7⟩ 3),
    ([0x040008A8], .ret ⟨false, 4⟩),
    ([0x000008AE, 0x00CF0000, 0x00000094], .btag ⟨false, 4⟩ 207 148),
    ([0x80001EB2, 0xAEAD0000, 0x0000007A], .loopImm ⟨true, 7⟩ 122 0xaead),
    ([0x00F016B2, 0xD47C0000, 0x00000000], .loopReg ⟨true, 3⟩ 30 0xd47c),
    ([0x00000EB4], .lexit ⟨false, 7⟩),
    ([0x00003ABA, 0x00180400, 0x00000000], .tclr ⟨true, 5⟩ 1 1 24),
    ([0x003BE8BA, 0x00002840, 0x00000000], .tdep ⟨false, 4⟩ 2 31 2 7),
    ([0x00001ABA, 0x008B0080, 0x00000000], .twait ⟨true, 5⟩ 139),
    ([0x003614BA, 0x000010C0, 0x00000000], .tget ⟨true, 2⟩ 48 1 6),
    ([0x1276BCC0], .fadd ⟨true, 6⟩ false 53 14 9),
    ([0x01B2FAC1, 0x00000056, 0x00000000], .faddLit ⟨true, 5⟩ false 23 54 86),
    ([0x01B5F8C3, 0x00400800, 0x00000000, 0x4BC0EDCA, 0xCDF3EBB2], .faddExt ⟨true, 4⟩ 2 2 47 54 (.lit 0xcdf3ebb24bc0edca)),
    ([0xC4C6F8C4], .fsub ⟨true, 4⟩ true 55 24 34)] reads1 = true := by decide +kernel
theorem test_words_4 : List.all [([0x8074AAC5, 0xBD7B20AA, 0x2E37975C], .fsubLit ⟨false, 5⟩ true 37 14 0x2e37975cbd7b20aa),
    ([0x0069A2C7, 0x00400400, 0x00000000, 0xE3A66048, 0xEFE6F29B], .fsubExt ⟨false, 1⟩ 1 2 13 13 (.lit 0xefe6f29be3a66048)),
    ([0xB80AECC8], .fmul ⟨false, 6⟩ true 23 1 28),
    ([0x814006C9, 0x00000053, 0x00000000], .fmulLit ⟨false, 3⟩ true 0 40 83),
    ([0x005D42CB, 0x00400400, 0x00000000, 0xDE7B301A, 0x62BA72C0], .fmulExt ⟨false, 1⟩ 1 2 42 11 (.lit 0x62ba72c0de7b301a)),
    ([0x108C98D4], .fdiv ⟨true, 4⟩ false 36 17 8),
    ([0x009E2ED5, 0x00000009, 0x00000000], .fdivLit ⟨false, 7⟩ false 49 19 9),
    ([0x000EECD7, 0x00800800, 0x00000000, 0xC90CB3BD, 0xAB271B58], .fdivExt ⟨false, 6⟩ 2 4 55 1 (.lit 0xab271b58c90cb3bd)),
    ([0x077A06D2, 0x00C0080D, 0x00000000], .ffma ⟨false, 3⟩ 2 6 16 47 (.reg 3) 13),
    ([0x000572DF, 0x00400C00, 0x00000000, 0x66AC92DD, 0xE963674E], .fsqrt ⟨true, 1⟩ 3 2 43 (.lit 0xe963674e66ac92dd)),
    ([0x18A59CCC], .fmin ⟨true, 6⟩ false 44 20 12),
    ([0x0178A6CD, 0xFE5DE21E, 0xB7CA27C3], .fminLit ⟨false, 3⟩ false 5 47 0xb7ca27c3fe5de21e),
    ([0x0009D4CF, 0x00C00400, 0x00000000, 0x9BD2815E, 0x6E3EF1D8], .fminExt ⟨true, 2⟩ 1 6 14 1 (.lit 0x6e3ef1d89bd2815e)),
    ([0x36E896CE, 0x00800401, 0x00000000], .fmax ⟨true, 3⟩ 1 4 4 29 (.reg 27)),
    ([0x45B5E2D8], .fcmp ⟨false, 1⟩ false 5 7 54 34),
    ([0x8029D6D9, 0x000000CE, 0x00000000], .fcmpLit ⟨true, 3⟩ true 1 6 5 206),
    ([0x6622C8DA, 0x00C00400, 0x00000000], .fcmpExt ⟨false, 4⟩ 1 6 2 6 4 (.reg 51)),
    ([0x012B88DE, 0x00AC0050, 0x00000000], .fcvt ⟨false, 4⟩ 5 12 16 28 37),
    ([0x0035A8DE, 0x00000088, 0x00000000], .fclass ⟨false, 4⟩ 8 45 6),
    ([0x155858E0], .rds ⟨true, 4⟩ 2 10 43),
    ([0x036C06E4], .wrs ⟨false, 3⟩ 1 32 45),
    ([0x343AE300], .vadd ⟨false, 1⟩ 23 7 26),
    ([0x1A5B2702, 0x00800400, 0x00000000], .vaddExt ⟨false, 3⟩ ⟨1, false⟩ 4 25 11 13),
    ([0x3A0A5F04], .vsub ⟨true, 7⟩ 18 1 29),
    ([0x0A782D06, 0x00A01C00, 0x00000000], .vsubExt ⟨false, 6⟩ ⟨7, false⟩ 5 1 15 5),
    ([0x3ED2BD08], .vmul ⟨true, 6⟩ 21 26 31),
    ([0x34212D0A, 0x00802400, 0x00000000], .vmulExt ⟨false, 6⟩ ⟨1, true⟩ 4 9 4 26),
    ([0x162A590C], .vmin ⟨true, 4⟩ 18 5 11),
    ([0x16B2070E, 0x00600800, 0x00000000], .vminExt ⟨false, 3⟩ ⟨2, false⟩ 3 16 22 11),
    ([0x32906310], .vmax ⟨false, 1⟩ 3 18 25)] reads1 = true := by decide +kernel
theorem test_words_5 : List.all [([0x36285B12, 0x00200400, 0x00000000], .vmaxExt ⟨true, 5⟩ ⟨1, false⟩ 1 2 5 27),
    ([0x2240292E, 0x00A01C0E, 0x00000000], .vfma ⟨false, 4⟩ ⟨7, false⟩ 5 1 8 17 14),
    ([0x0058E730], .vabs ⟨false, 3⟩ 7 11),
    ([0x00DA8332, 0x00002800, 0x00000000], .vabsExt ⟨false, 1⟩ ⟨2, true⟩ 20 27),
    ([0x02488D30], .vmov ⟨false, 6⟩ 4 9),
    ([0x022AFB32, 0x00002800, 0x00000000], .vmovExt ⟨true, 5⟩ ⟨2, true⟩ 23 5),
    ([0x3473EF14], .vand ⟨false, 7⟩ 31 14 26),
    ([0x10F1E316, 0x00000C00, 0x00000000], .vandExt ⟨false, 1⟩ ⟨3, false⟩ 15 30 8),
    ([0x1E31CB18], .vor ⟨false, 5⟩ 14 6 15),
    ([0x2090CF1A, 0x00003800, 0x00000000], .vorExt ⟨false, 7⟩ ⟨6, true⟩ 6 18 16),
    ([0x080A991C], .vxor ⟨true, 4⟩ 20 1 4),
    ([0x0E12CF1E, 0x00001C00, 0x00000000], .vxorExt ⟨false, 7⟩ ⟨7, false⟩ 22 2 7),
    ([0x26F05320], .vshlReg ⟨true, 1⟩ 2 30 19),
    ([0xAEEAE920], .vshlImm ⟨false, 4⟩ 23 29 23),
    ([0x283B6922, 0x00000800, 0x00000000], .vshlExt ⟨false, 4⟩ ⟨2, false⟩ false 27 7 20),
    ([0x32C99B24], .vshrReg ⟨true, 5⟩ 12 25 25),
    ([0xE8619524], .vshrImm ⟨true, 2⟩ 12 12 52),
    ([0xD0138F26, 0x00003800, 0x00000000], .vshrExt ⟨false, 7⟩ ⟨6, true⟩ true 28 2 40),
    ([0x0A298928], .vsraReg ⟨false, 4⟩ 12 5 5),
    ([0x866A1528], .vsraImm ⟨true, 2⟩ 16 13 3),
    ([0xF452E52A, 0x00001000, 0x00000000], .vsraExt ⟨false, 2⟩ ⟨4, false⟩ true 23 10 58),
    ([0x16CFF534], .vcmp ⟨true, 2⟩ 7 7 25 11),
    ([0x341DAD36, 0x00003000, 0x00000000], .vcmpExt ⟨false, 6⟩ ⟨4, true⟩ 5 5 3 26),
    ([0x26A0893A, 0x00001805, 0x00000000], .vsel ⟨false, 4⟩ ⟨6, false⟩ 4 5 20 19),
    ([0x00CB753C], .vbcast ⟨true, 2⟩ 27 25),
    ([0x00A2873E, 0x00001800, 0x00000000], .vbcastExt ⟨false, 3⟩ ⟨6, false⟩ 20 20),
    ([0x46FA3940], .vins ⟨true, 4⟩ 17 31 35),
    ([0x7EE9BD42, 0x00000000, 0x00000000], .vinsExt ⟨true, 6⟩ 13 29 63),
    ([0x78F4DF44], .vext ⟨true, 7⟩ 38 30 60),
    ([0x46157B46, 0x00000000, 0x00000000], .vextExt ⟨true, 5⟩ 43 2 35)] reads1 = true := by decide +kernel
theorem test_words_6 : List.all [([0x3E61CF48], .vshuf ⟨false, 7⟩ 14 12 31),
    ([0x143A334A, 0x00003800, 0x00000000], .vshufExt ⟨true, 1⟩ ⟨6, true⟩ 17 7 10),
    ([0x3218234C], .vslideUp ⟨false, 1⟩ 1 3 25),
    ([0x2EFB2B4E, 0x00003400, 0x00000000], .vslideUpExt ⟨false, 5⟩ ⟨5, true⟩ 25 31 23),
    ([0x82F3E74C], .vslideDown ⟨false, 3⟩ 31 30 1),
    ([0x86C84D4E, 0x00000800, 0x00000000], .vslideDownExt ⟨false, 6⟩ ⟨2, false⟩ 2 25 3),
    ([0x00675750], .vredadd ⟨true, 3⟩ 58 12),
    ([0x00A4FF52, 0x00C01C00, 0x00000000], .vredaddExt ⟨true, 7⟩ 7 6 39 20),
    ([0x028BF550], .vredmin ⟨true, 2⟩ 31 17),
    ([0x02D06352, 0x00600800, 0x00000000], .vredminExt ⟨false, 1⟩ 2 3 3 26),
    ([0x040B5950], .vredmax ⟨true, 4⟩ 26 1),
    ([0x04AE3952, 0x00401000, 0x00000000], .vredmaxExt ⟨true, 4⟩ 4 2 49 21),
    ([0x0859B556, 0x00603800, 0x00000000], .vdot ⟨true, 2⟩ ⟨6, true⟩ 3 13 11 4),
    ([0x004B536A, 0x00000940, 0x00000000], .vsfu ⟨true, 1⟩ ⟨2, false⟩ 5 26 9),
    ([0x007B895A, 0x02AB2807, 0x00000000], .vcvt ⟨false, 4⟩ ⟨2, true⟩ 5 2 11 7 28 15),
    ([0x00509F5E, 0x002A001B, 0x00000000], .vqnt ⟨true, 7⟩ 1 10 4 10 27),
    ([0x008A1F5E, 0x000B0042, 0x00000000], .vdqnt ⟨true, 7⟩ 11 16 17 2),
    ([0x00CB2562, 0x00000000, 0x00000000], .vhad ⟨false, 2⟩ false 25 25),
    ([0x3A333966, 0x002E000B, 0x00000000], .vbaddq ⟨true, 4⟩ 1 14 25 6 29 11),
    ([0x0810E76C], .mand ⟨false, 3⟩ 7 2 4),
    ([0x1810736C], .mor ⟨true, 1⟩ 3 2 4),
    ([0x2810656C], .mxor ⟨false, 2⟩ 3 2 4),
    ([0x3030276C], .mnot ⟨false, 3⟩ 1 6),
    ([0x00165370], .mpop ⟨true, 1⟩ 50 2),
    ([0x02283970], .gtom ⟨true, 4⟩ 1 5),
    ([0x05D03970], .mtog ⟨true, 4⟩ 1 58),
    ([0x41B60582, 0x00004000, 0x9952403A], .ld ⟨false, 2⟩ ⟨false, 2, 0⟩ 48 ⟨54, 32, 2572304442⟩),
    ([0x00082982, 0x0000C040, 0x6B39F5A8], .ldro ⟨false, 4⟩ ⟨true, 2, 0⟩ 1 ⟨1, 0, 1798960552⟩),
    ([0x5A1A1782, 0x00007080, 0xE255FB71], .ldx ⟨true, 3⟩ ⟨false, 3, 4⟩ 16 ⟨3, 45, 3797285745⟩),
    ([0x00B09986, 0x00000000, 0x000000F8], .ldv ⟨true, 4⟩ ⟨false, 0, 0⟩ 4 ⟨22, 0, 248⟩)] reads1 = true := by decide +kernel
theorem test_words_7 : List.all [([0x74127F86, 0x00014400, 0xBD5EF7A7], .ldvGather ⟨true, 7⟩ ⟨false, 2, 1⟩ 19 2 58 0xbd5ef7a7),
    ([0x01A85B8A, 0x00002000, 0x561F092B], .lds ⟨true, 5⟩ ⟨false, 1, 0⟩ 2 ⟨53, 0, 1444874539⟩),
    ([0x01B95D8A, 0x00000040, 0x000000C7], .ldsv ⟨true, 6⟩ 10 ⟨55, 0, 199⟩),
    ([0x2B0D8B8E, 0x0000A000, 0x00000014], .sts ⟨false, 5⟩ ⟨true, 1, 0⟩ 44 ⟨33, 21, 20⟩),
    ([0x0190C38E, 0x00000040, 0x9D73C874], .stsv ⟨false, 1⟩ 6 ⟨50, 0, 2641610868⟩),
    ([0x0191A992, 0x00002000, 0x00000076], .ldd ⟨false, 4⟩ ⟨false, 1, 0⟩ 13 ⟨50, 0, 118⟩),
    ([0x00CF4592, 0x0000E040, 0x00000022], .std ⟨false, 2⟩ ⟨true, 3, 0⟩ 58 ⟨25, 0, 34⟩),
    ([0x009D3B96, 0x000065C0, 0x00000027], .upd ⟨true, 5⟩ 7 ⟨false, 3, 1⟩ 41 ⟨19, 0, 39⟩),
    ([0x6C13D39E, 0x00005300, 0xB9F6A51D], .updx ⟨true, 1⟩ 12 ⟨false, 2, 4⟩ 30 ⟨2, 54, 3119949085⟩),
    ([0x313B059A, 0x00006180, 0x000000CE], .updv ⟨false, 2⟩ 6 ⟨false, 3, 0⟩ 24 ⟨39, 24, 206⟩),
    ([0x3868D79A, 0x0001CE80, 0x8F0A577C], .updvScatter ⟨true, 3⟩ 10 ⟨true, 2, 3⟩ 6 13 28 0x8f0a577c),
    ([0x4790A9A2, 0x00007147, 0x00000016], .atom ⟨false, 4⟩ 5 ⟨false, 3, 4⟩ 5 ⟨50, 35, 22⟩ 7),
    ([0x28BAADA6, 0x00002429, 0xDB470A39], .cas ⟨false, 6⟩ ⟨false, 1, 1⟩ 21 23 0xdb470a39 20 41),
    ([0x44001FAA, 0x00000400, 0x00000000], .drain ⟨true, 7⟩ 1 0 34),
    ([0x3A700BAA, 0x00001040, 0x00000000], .inval ⟨false, 5⟩ 4 14 29),
    ([0x000005AA, 0x00001080, 0x00000000], .fence ⟨false, 2⟩ 4 false),
    ([0x732819B2, 0x00000000, 0x1234C98E], .syncinit ⟨true, 4⟩ 37 0x1234c98e 57),
    ([0x00300FB6, 0x00000000, 0x97092998], .syncadd ⟨false, 7⟩ 6 0x97092998 0),
    ([0x00D807BA, 0x00000000, 0x00000029], .syncwait ⟨false, 3⟩ 27 41),
    ([0x00B0D9BE, 0x00000000, 0x00000036], .syncget ⟨true, 4⟩ 6 22 54),
    ([0x00ABD3C2, 0x00000000, 0x000000D5], .tdset ⟨true, 1⟩ 30 21 213),
    ([0x0164E3C2, 0x00000040, 0xF737F026], .tdget ⟨false, 1⟩ 44 0xf737f026 39),
    ([0x008867C6, 0x00000000, 0x000000D3], .ringcfg ⟨false, 3⟩ 3 17 211),
    ([0x0038DBC6, 0x00000040, 0x00000000], .ringstat ⟨true, 5⟩ 6 7),
    ([0x00009BC6, 0x69B80080, 0x00000000], .ringdrop ⟨true, 5⟩ 4 0x69b8),
    ([0x00D01DC8], .tilecfg ⟨true, 6⟩ 26),
    ([0x020019C8], .tilerel ⟨true, 4⟩),
    ([0x040065C8], .tzero ⟨false, 2⟩ 3),
    ([0x001BA7CE, 0x00000000, 0x000000CA], .tld ⟨false, 3⟩ 29 3 202),
    ([0x00082BCE, 0x00000040, 0x9728585E], .tsts ⟨false, 5⟩ 1 0x9728585e 1)] reads1 = true := by decide +kernel
theorem test_words_8 : List.all [([0x381A37D2, 0x00004540, 0x0000002A], .tupd ⟨true, 3⟩ 5 ⟨false, 2, 1⟩ ⟨3, 28, 42⟩ 17),
    ([0x083A7BD4], .mma ⟨true, 5⟩ 19 7 4),
    ([0x0078B9D8], .tcvt ⟨true, 4⟩ 5 15),
    ([0x00C193E2, 0x00000000, 0x79793CE8], .cpy ⟨true, 1⟩ 12 24 0x79793ce8),
    ([0x009729E6, 0x00000000, 0x00000000], .cpystat ⟨false, 4⟩ 57 18),
    ([0x00B00FE6, 0x00000040, 0x00000000], .cpyres ⟨false, 7⟩ 22),
    ([0x00C81DEA, 0x00010000, 0x00000000], .dsmode ⟨true, 6⟩ 1 25),
    ([0x2E500FEE, 0x01CC0000, 0x000000CD], .bsld ⟨false, 7⟩ 460 10 205 23),
    ([0x066005EE, 0x00000040, 0x00000000], .bsrun ⟨false, 2⟩ 12 3),
    ([0x000003EE, 0x00000080, 0x00000000], .bsres ⟨false, 1⟩),
    ([0x00035DEE, 0x000000C0, 0x00000000], .bsstat ⟨true, 6⟩ 26),
    ([0x014027F2, 0x00000000, 0x00000000], .barcfg ⟨false, 3⟩ 1 40),
    ([0x000069F2, 0x00000040, 0x00000000], .bararr ⟨false, 4⟩ 3),
    ([0x000039F2, 0x00000080, 0x00000000], .barwait ⟨true, 4⟩ 1),
    ([0x00D009F6, 0x090B0000, 0x000000B1], .send ⟨false, 4⟩ 9 11 26 177),
    ([0x00057BF6, 0x00000040, 0x00000000], .inpop ⟨true, 5⟩ 43),
    ([0x000753F6, 0x00000080, 0x00000000], .gqtake ⟨true, 1⟩ 58),
    ([0x01200FF6, 0x000000C0, 0x00000000], .gqput ⟨false, 7⟩ 36),
    ([0x000003FA, 0x00570000, 0x00000000], .trap ⟨false, 1⟩ 87),
    ([0x00000FFA, 0x00000040, 0x00000000], .tret ⟨false, 7⟩),
    ([0x000013FA, 0x00000080, 0x00000000], .exit ⟨true, 1⟩),
    ([0x000005FA, 0x000900C0, 0x00000000], .brk ⟨false, 2⟩ 9),
    ([0x019ACBFA, 0x34730100, 0x00000000], .hubcall ⟨false, 5⟩ 0x3473 22 51),
    ([0x00C005FA, 0x00000140, 0x00000000], .chkpt ⟨false, 2⟩ 24)] reads1 = true := by decide +kernel
theorem test_micro_words : List.all [(0x0280A00000100000, .mzero, ⟨20, 5, 0, 0, 0, true, false, false, 0⟩),
    (0x0B8A03E000100000, .mcopy, ⟨28, 80, 31, 0, 0, true, false, false, 0⟩),
    (0x13B2CB4000000000, .microMnot, ⟨29, 150, 90, 0, 0, false, false, false, 0⟩),
    (0x19C9E22CA00C0000, .microMand, ⟨14, 79, 17, 101, 0, false, true, true, 0⟩),
    (0x22A078A9E0140000, .microMor, ⟨21, 3, 197, 79, 0, true, false, true, 0⟩),
    (0x28F77817801C0000, .microMxor, ⟨7, 187, 192, 188, 0, true, true, true, 0⟩),
    (0x318C757260000000, .madd, ⟨12, 99, 171, 147, 0, false, false, false, 0⟩),
    (0x3B88602EC0080000, .msub, ⟨28, 67, 1, 118, 0, false, true, false, 0⟩),
    (0x41AA4BE7C004000B, .mcmp, ⟨13, 82, 95, 62, 0, false, false, true, 11⟩),
    (0x4B97E0330A700000, .msel, ⟨28, 191, 1, 152, 83, true, false, false, 0⟩),
    (0x5208B46000000005, .mshl, ⟨16, 69, 163, 0, 0, false, false, false, 5⟩),
    (0x5B60730000080044, .mshr, ⟨27, 3, 152, 0, 0, false, true, false, 68⟩),
    (0x61E9C2E760040001, .mfadd, ⟨15, 78, 23, 59, 0, false, false, true, 1⟩),
    (0x6BF2C70920040002, .mfmul, ⟨31, 150, 56, 73, 0, false, false, true, 2⟩),
    (0x7000138013C002BC, .mloop, ⟨0, 0, 156, 0, 158, false, false, false, 700⟩),
    (0x7800000000000000, .mend, ⟨0, 0, 0, 0, 0, false, false, false, 0⟩)] microReads = true := by decide +kernel

-- the spec's worked examples, one step of the machine, and ill-formed terms

/-- The worked encodings of spec/04, spec/09 and spec/12. -/
theorem test_worked_encodings : List.all [
    ([0x0E288008], .addImm on false 4 5 7), ([0x0028E182, 0x0000CC00, 0x10], .ld on ⟨true, 2, 3⟩ 7 ⟨5, 0, 16⟩),
    ([0x0028D796, 0x0000CC40, 8], .upd ⟨true, 3⟩ 1 ⟨true, 2, 3⟩ 6 ⟨5, 0, 8⟩), ([0x7FFFA0A0], .bra on 0x3F 0x3F 0x3D),
    ([0x124001AA, 0x0C00, 0], .drain on 3 8 9), ([0x000001AA, 0x00010C80, 0], .fence on 3 true), ([0x002001BA, 0, 0x40], .syncwait on 4 0x40),
    ([0x0A308186, 0x00014C00, 0], .ldvGather on ⟨false, 2, 3⟩ 4 6 5 0), ([0x0051A1E2, 0, 0], .cpy on 13 10 0), ([0x002881E6, 0, 0], .cpystat on 4 5),
    ([0x002801E6, 0x40, 0], .cpyres on 5), ([0x06102166, 0x000E0009, 0], .vbaddq on 0 14 1 2 3 9)] reads1 = true := by decide +kernel

/-- The worked records of R172: four ADD records and a SET record of key 0x2468. -/
def upd32 (op : BitVec 4) (hi : Bool) (v : BitVec 32) : Rec :=
  { rec1 0x2468 with op := op, w := 2, value := if hi then v ++ 0#32 else v.setWidth 64, mask := if hi then 0xF0 else 0x0F }
def worked (n : Nat) : State := ([upd32 1 false 5, upd32 1 true 7, upd32 1 false (-1), upd32 0 true 9, upd32 1 true 1].take n).foldl (fun t r => t.insertRec (level0 c0) r)
  ((mk sl0).writeMem 0x12340 0x0000006400000032 8)
/-- What the level holds: operator, mask, value. -/
def heldRec (s : State) (l : LevelId) : Option (BitVec 4 × Byte × Word) := (s.heldAt l 0x2468).map fun r => (r.op, r.mask, r.value)
theorem test_worked_records : heldRec (worked 1) (level0 c0) = some (1, 0x0F, 5) ∧ heldRec (worked 2) (level0 c0) = some (1, 0xFF, 0x0000000700000005) ∧
    heldRec (worked 3) (level0 c0) = some (1, 0xFF, 0x0000000700000004) ∧ heldRec (worked 4) (level0 c0) = some (0, 0xF0, 0x0000000900000000) ∧
    heldRec (worked 4) (level1 c0) = some (1, 0xFF, 0x0000000700000004) ∧ heldRec (worked 5) (level0 c0) = some (0, 0xF0, 0x0000000A00000000) ∧
    (folded (worked 5) c0 (baseOf (worked 5) 0x2468) 0x2468).1 = 0x0000000A00000036 := by decide +kernel

/-- The worked block of R54: sixteen fp32 values into SX4. -/
def fp32s : BitVec 512 := 0x40400000#512 + 0xBFA00000#512 <<< 32 + 0x3E99999A#512 <<< 128 + 0x3DCCCCCD#512 <<< 160
theorem test_worked_sx4 : (nextOf (exec (.vqnt on 0 14 1 4 0) (mk { vf 9 with v := (sl0.v.set 4 { val := fp32s.setWidth 256 }).set 5 { val := (fp32s >>> 256).setWidth 256 } }))).map
    (fun t => t.cs.v[1].val) = some 0x06A0036CFC80 := by decide +kernel
/-- The worked sum of R143. -/
theorem test_worked_vbaddq : (nextOf (exec (.vbaddq on 0 14 1 2 3 9) (mk { sl0 with v := (sl0.v.set 2 { val := 0x06A0036CFC80 }).set 3 { val := 0x0088FC7F } }))).map
    (fun t => (t.cs.v[1].val, t.cs.pc)) = some (0x045003C8FC81, 0x1000C) := by decide +kernel

/-- ADD is the first instruction that a reset machine runs when its word stands where the next step fetches. -/
theorem test_first_step : (nextOf (step (State.reset.withFetchWord 32 0x0E288008))).map (fun t => (t.cs.g[4].val, t.cs.pc.toNat - Config.bootEntry)) = some (7, 4) := by
  decide +kernel
theorem test_table_word : decodeTableWord 32 0x0E288008 = some (.addImm on false 4 5 7) := by decide +kernel

/-- One ill-formed term for each check. -/
theorem test_ill_formed : List.all [
    .cmpSignedReg on false 6 0 0 0, .cmpSignedImm on false 6 0 0 0, .cmpSignedLit on false 7 0 0 0, .cmpNaturalReg on false 6 0 0 0, .cmpNaturalImm on false 6 0 0 0,
    .cmpNaturalLit on false 6 0 0 0, .btag on 0 2, .tclr on 2 32 0, .tdep on 1 8 0 0, .tdep on 0 0 3 8, .tget on 0 1 8, .faddExt on 0 7 0 0 (.reg 0), .fsubExt on 0 7 0 0 (.reg 0),
    .fmulExt on 0 7 0 0 (.reg 0), .fdivExt on 0 7 0 0 (.reg 0), .ffma on 0 7 0 0 (.reg 0) 0, .fsqrt on 0 7 0 (.reg 0), .fminExt on 0 7 0 0 (.reg 0), .fmax on 0 7 0 0 (.reg 0),
    .fcmpExt on 0 7 0 0 0 (.reg 0), .fcvt on 7 9 0 0 0, .fcvt on 0 17 9 0 0, .fcvt on 0 1 2 0 0, .fclass on 7 0 0, .vaddExt on ⟨0, false⟩ 7 0 0 0, .vsubExt on ⟨0, false⟩ 7 0 0 0,
    .vmulExt on ⟨0, false⟩ 7 0 0 0, .vminExt on ⟨0, false⟩ 7 0 0 0, .vmaxExt on ⟨0, false⟩ 7 0 0 0, .vfma on ⟨0, false⟩ 7 0 0 0 0, .vshlExt on ⟨0, false⟩ false 0 0 32,
    .vshrExt on ⟨0, false⟩ false 0 0 32, .vsraExt on ⟨0, false⟩ false 0 0 32] (fun i => !Instr.wf i) = true := by decide +kernel
theorem test_ill_formed_rest : List.all [
    .vredaddExt on 0 7 0 0, .vredminExt on 0 7 0 0, .vredmaxExt on 0 7 0 0, .vdot on ⟨0, false⟩ 7 0 0 0, .vsfu on ⟨0, false⟩ 7 0 0, .vcvt on ⟨0, false⟩ 7 0 9 0 0 0,
    .vcvt on ⟨0, false⟩ 0 0 17 9 0 0, .vcvt on ⟨0, false⟩ 0 2 9 10 0 0, .vqnt on 7 10 0 0 0, .vqnt on 0 9 0 0 0, .vqnt on 0 13 0 0 1, .vdqnt on 9 0 0 0, .vdqnt on 13 0 0 1,
    .vbaddq on 7 13 0 0 0 0, .vbaddq on 0 12 0 0 0 0, .ld on ⟨false, 3, 5⟩ 0 (ea 0), .ldro on ⟨false, 3, 1⟩ 0 (ea 0), .ldx on ⟨false, 3, 5⟩ 0 (ea 0), .ldx on ⟨false, 2, 0⟩ 0 (ea 0),
    .ldx on ⟨true, 3, 0⟩ 0 (ea 0), .ldv on ⟨false, 0, 5⟩ 0 (ea 0), .ldv on ⟨false, 1, 0⟩ 0 (ea 0), .ldv on ⟨true, 0, 0⟩ 0 (ea 0), .ldvGather on ⟨false, 2, 5⟩ 0 0 0 0,
    .ldvGather on ⟨false, 1, 0⟩ 0 0 0 0, .lds on ⟨false, 3, 1⟩ 0 (ea 0), .sts on ⟨false, 3, 1⟩ 0 (ea 0), .ldd on ⟨false, 3, 1⟩ 0 (ea 0), .std on ⟨false, 3, 1⟩ 0 (ea 0),
    .upd on 0 ⟨false, 3, 5⟩ 0 (ea 0), .upd on 2 ⟨false, 0, 0⟩ 0 (ea 0), .upd on 2 ⟨true, 3, 0⟩ 0 (ea 0), .upd on 3 ⟨false, 3, 0⟩ 0 (ea 0), .upd on 5 ⟨true, 3, 0⟩ 0 (ea 0),
    .updx on 13 ⟨false, 3, 0⟩ 0 (ea 0), .updv on 14 ⟨false, 3, 0⟩ 0 (ea 0), .updvScatter on 0 ⟨false, 1, 0⟩ 0 0 0 0, .atom on 15 ⟨false, 3, 0⟩ 0 (ea 0) 0, .cas on ⟨false, 3, 5⟩ 0 0 0 0 0,
    .drain on 5 0 0, .drain on 0 1 0, .inval on 6 0 0, .inval on 0 1 0, .fence on 7 false, .tupd on 0 ⟨false, 3, 0⟩ (ea 0) 0, .dsmode on 3 0, .send on 240 0 0 0] (fun i => !Instr.wf i) = true := by
  decide +kernel
theorem test_ill_formed_micro : List.all [
    (.mzero, mi 0 0 1 0 0 0), (.mcopy, mi 0 0 0 1 0 0), (.microMnot, mi 0 0 0 0 1 0), (.microMand, mi 0 0 0 0 0 1), (.microMor, mi 0 0 0 0 1 0), (.microMxor, mi 0 0 0 0 1 0),
    (.madd, mi 0 0 0 0 0 1), (.msub, mi 0 0 0 0 1 0), (.mcmp, mi 0 0 0 0 0 6), (.mcmp, mi 0 0 0 0 0 16), (.msel, mi 0 0 0 0 0 1), (.mshl, mi 3 0 0 0 0 4), (.mshr, mi 3 0 0 0 0 4),
    (.mshr, mi 3 0 0 0 0 128), (.mfadd, mi 14 0 0 0 0 0), (.mfadd, mi 15 0 0 0 0 3), (.mfmul, mi 15 0 0 0 0 2), (.mloop, mi 0 0 0 0 0 1024), (.mloop, mi 1 0 0 0 0 0), (.mend, mi 0 0 0 0 0 1)]
    (fun (x : MicroOp × Micro) => !x.2.wfFor x.1) = true := by decide +kernel

-- witnesses: the resumption of a saved block

theorem readMem_same {s t : State} {a n : Nat} (h : ∀ k, a ≤ k → k < a + n → Memory.read s.mem k = Memory.read t.mem k) : s.readMem a n = t.readMem a n := by
  induction n generalizing a with
  | zero => rfl
  | succ n ih => rw [State.readMem, State.readMem, h a (Nat.le_refl a) (by omega), ih fun k h1 h2 => h k (by omega) (by omega)]
theorem readMem_write_out (s : State) {p v n a k : Nat} (h : a + k ≤ p ∨ p + n ≤ a) : (s.writeMem p v n).readMem a k = s.readMem a k :=
  readMem_same fun j h1 h2 => Laws.memory_read_writeBytes_out _ _ _ _ (by omega)
/-- A word that is written reads as it was written. -/
theorem readMem_write_word (s : State) (p : Nat) (w : Word) : BitVec.ofNat 64 ((s.writeMem p w.toNat 8).readMem p 8) = w := by
  have h (i : Nat) (hi : i < 8) : Memory.read (s.writeMem p w.toNat 8).mem (p + i) = BitVec.ofNat 8 (w.toNat / 256 ^ i) := Laws.memory_read_writeBytes_in _ _ _ _ hi
  apply BitVec.eq_of_toNat_eq
  have hw := w.isLt
  have h0 := h 0 (by decide)
  simp only [State.readMem, Nat.add_assoc, Nat.reduceAdd, h 1 (by decide), h 2 (by decide), h 3 (by decide), h 4 (by decide), h 5 (by decide), h 6 (by decide), h 7 (by decide),
    show Memory.read (s.writeMem p w.toNat 8).mem p = BitVec.ofNat 8 (w.toNat / 256 ^ 0) from h0, BitVec.toNat_ofNat]
  omega
theorem putWords_out (s : State) (ws : List Word) {p a n : Nat} (h : a + n ≤ p) : (s.putWords p ws).readMem a n = s.readMem a n := by
  induction ws generalizing s p with
  | nil => rfl
  | cons w ws ih => rw [State.putWords, ih _ (by omega), readMem_write_out _ (Or.inl h)]
/-- Words that are put somewhere stand there. -/
theorem putWords_stand (s : State) (ws : List Word) (p : Nat) : (s.putWords p ws).wordsAt p ws.length = ws := by
  induction ws generalizing s p with
  | nil => rfl
  | cons w ws ih =>
    have := ih (s.writeMem p w.toNat 8) (p + 8)
    rw [State.wordsAt] at this ⊢
    rw [List.length_cons, List.range_succ_eq_map, List.map_cons, List.map_map, State.putWords]
    show BitVec.ofNat 64 (State.readMem _ p 8) :: _ = _
    rw [putWords_out _ _ (Nat.le_refl _), readMem_write_word]
    refine congrArg (w :: ·) (Eq.trans (List.map_congr_left fun i _ => ?_) this)
    show BitVec.ofNat 64 (State.readMem _ (p + 8 * (i + 1)) 8) = _
    rw [show p + 8 * (i + 1) = p + 8 + 8 * i by omega]
/-- A bind record with a save, of a launch of one block, whole or not. -/
def bindR (w : Nat) : BitVec 512 := BitVec.ofNat 512
  (0x10000 + 2 ^ 64 * 0x1234 + 2 ^ 160 + 2 ^ 168 * 3 + 2 ^ 176 * 2 + 2 ^ 226 * w + 2 ^ 256 * 16384 + 2 ^ 276 * 2048 + 2 ^ 384 * 0xFFC4000000)
def oneRec (w : Nat) : BitVec 512 := BitVec.ofNat 512 (0x10000 + 2 ^ 64 * 0x1234 + 2 ^ 213 * w)
/-- The saved block: one suspended slot. -/
def savedSlot : Slot := { st := .suspended, pc := 0x1230, gen := 9, trapvec := 0x20000 }
def saved1 (w : Nat) : Saved := { pa := 0xFFC4000000, size := 16384, blk := { rec0 := bindR w }, slots := [savedSlot], tiles := [], rings := [], descs := [], bars := []
                                  cmds := [], mx := [], seq := none, scratch := [], hold := false, modes := [], deep := [] }
theorem wordsAt_mem {s t : State} (h : s.mem = t.mem) (p n : Nat) : s.wordsAt p n = t.wordsAt p n :=
  List.map_congr_left fun _ _ => congrArg _ (readMem_same fun _ _ _ => by rw [h])
/-- The machine in which it is saved, with the faults of its context, and with a memory. -/
def savedS (w : Nat) (fs : List FaultRec) (m : List Host.Cell) : State := (fun (s : State) =>
  { s with saves := [saved1 w], mem := m, ctxs := s.ctxs.set 1 { s.ctxs[1] with faults := fs } }) (queueS (q0 [{ n := 0, rec0 := oneRec w }]))
theorem savedS_mem (w : Nat) (fs : List FaultRec) (m : List Host.Cell) : (savedS w fs m).mem = m := rfl
/-- A memory that holds the sealed bytes. -/
opaque sealedMem (w : Nat) : { m : List Host.Cell // ∃ s : State, m = (s.putWords 0xFFC4000000 ((saved1 w).words 0)).mem } := ⟨_, State.reset, rfl⟩
/-- The record as it is bound. -/
def blkR (w : Nat) : Block := { rec0 := bindR w, held := (bindR w).getLsbD 226 }
theorem savedS_stands (w : Nat) (fs : List FaultRec) :
    (savedS w fs (sealedMem w).val).wordsAt 0xFFC4000000 ((saved1 w).words 0).length = (saved1 w).words 0 := by
  obtain ⟨s, h⟩ := (sealedMem w).property
  rw [wordsAt_mem ((savedS_mem w fs _).trans h)]
  exact putWords_stand ..
/-- The other checks on the resumption. -/
def otherChecks (s : State) (b : Block) (v : Saved) : Bool :=
  hubWorkingRange v.pa v.size && decide (b.rec0 &&& resumeMask = v.blk.rec0 &&& resumeMask) && decide (b.nthr = v.slots.length) &&
    decide (v.blk.scrsize ≤ b.scrsize ∧ v.blk.ntile ≤ b.ntile ∧ v.blk.nring ≤ b.nring ∧ v.blk.ndesc ≤ b.ndesc ∧ v.blk.nbar ≤ b.nbar ∧ v.blk.dwsize ≤ b.dwsize) &&
    !(s.cores.any fun e => e.2.table.any fun t => t.2.held && decide (t.2.save = b.save)) && s.placed c0 b && v.cmds.all (fun e => (Sparse.find (s.core c0).cmds e.1).isNone) &&
    (if v.hold then (s.core c0).table.all fun t => decide (t.2.ctx ≠ b.ctx) else (s.windowFail c0 b 0 b.dwsize).isNone)
theorem may_of {s : State} {b : Block} {v : Saved} (h1 : s.saveAt b.save = some v) (h2 : s.wordsAt v.pa (v.words s.root.boots).length = v.words s.root.boots)
    (h3 : otherChecks s b v = true) : s.mayResume c0 b = true := by
  simp only [otherChecks, Bool.and_eq_true, decide_eq_true_eq] at h3
  unfold State.mayResume
  rw [h1]
  dsimp only
  rw [h2]
  simp only [Bool.and_eq_true, decide_eq_true_eq]
  obtain ⟨⟨⟨⟨⟨⟨⟨a1, a2⟩, a3⟩, a4, a5, a6, a7, a8, a9⟩, a10⟩, a11⟩, a12⟩, a13⟩ := h3
  exact ⟨⟨⟨⟨⟨⟨⟨⟨⟨⟨⟨⟨⟨a1, trivial⟩, a2⟩, a3⟩, a4⟩, a5⟩, a6⟩, a7⟩, a8⟩, a9⟩, a10⟩, a11⟩, a12⟩, a13⟩
theorem saved_may0 (fs : List FaultRec) (h : otherChecks (savedS 0 fs (sealedMem 0).val) (blkR 0) (saved1 0) = true) :
    (savedS 0 fs (sealedMem 0).val).mayResume c0 (blkR 0) = true :=
  may_of (v := saved1 0) (by rw [show (blkR 0).save = 0xFFC4000000 by decide +kernel]; rfl) (savedS_stands 0 fs) h
theorem saved_may1 (fs : List FaultRec) (h : otherChecks (savedS 1 fs (sealedMem 1).val) (blkR 1) (saved1 1) = true) :
    (savedS 1 fs (sealedMem 1).val).mayResume c0 (blkR 1) = true :=
  may_of (v := saved1 1) (by rw [show (blkR 1).save = 0xFFC4000000 by decide +kernel]; rfl) (savedS_stands 1 fs) h
/-- A fault of the saved slot, answered or not. -/
def heldFault (a : Option Bool) : FaultRec :=
  { seq := 4, kind := 0, cause := 4, va := 0, pc := 0x1230, core := c0, slot := 0, score := 0, cmd := 0, gen := 9, clock := 0, saved := some (0xFFC4000000, 0), answer := a }
/-- The machine with the save, without a fault, with one that is answered, and with the launch whole. -/
def resumeA : State := savedS 0 [heldFault none] (sealedMem 0).val
def resumeB : State := savedS 0 [heldFault (some true)] (sealedMem 0).val
def resumeC : State := savedS 1 [] (sealedMem 1).val
theorem resumeA_guard : resumeA.guardCode c0 (blkR 0) = none := by
  have h : resumeA.mayResume c0 (blkR 0) = true := saved_may0 _ (by decide +kernel)
  unfold State.guardCode
  rw [h]
  decide +kernel
theorem resumeB_guard : resumeB.guardCode c0 (blkR 0) = none := by
  have h : resumeB.mayResume c0 (blkR 0) = true := saved_may0 _ (by decide +kernel)
  unfold State.guardCode
  rw [h]
  decide +kernel
theorem resumeC_guard : resumeC.guardCode c0 (blkR 1) = none := by
  have h : resumeC.mayResume c0 (blkR 1) = true := saved_may1 _ (by decide +kernel)
  unfold State.guardCode
  rw [h]
  decide +kernel
theorem wit_Resume : (bindR 0).getLsbD 226 = false ∧ blkR 0 = { rec0 := bindR 0 } ∧ (blkR 0).save ≠ 0 ∧ LowestFree resumeA c0 0 ∧
    (∀ k : Fin 16, (resumeA.slot c0 (BitVec.ofNat 4 k)).blk ≠ some 0) ∧ Listed (saved1 0) := by decide +kernel
theorem wit_Resume_saved : SavedAt resumeA (blkR 0).save (saved1 0) ∧
    ∀ f ∈ (resumeA.ctx (blkR 0).ctx).faults, ∀ i, f.saved = some ((saved1 0).pa, i) → f.answer = none :=
  ⟨⟨[], [], rfl, by decide +kernel, fun _ h => absurd h List.not_mem_nil⟩, fun f hf i _ => by
    have : (resumeA.ctx (blkR 0).ctx).faults = [heldFault none] := by decide +kernel
    rw [this] at hf
    rw [List.mem_singleton.mp hf]
    rfl⟩
theorem wit_Resume_answered : LowestFree resumeB c0 0 ∧ heldFault (some true) ∈ (resumeB.ctx (blkR 0).ctx).faults ∧ (heldFault (some true)).saved = some ((saved1 0).pa, 0) ∧
    (heldFault (some true)).kind ≠ 4 ∧ (saved1 0).slots[0]? = some savedSlot ∧ savedSlot.gen = (heldFault (some true)).gen ∧
    (ranked (heldThere resumeB c0 0 (blkR 0)) c0 0)[0]? = some 1 := by decide +kernel
theorem wit_Resume_only : ∀ g ∈ (resumeB.ctx (blkR 0).ctx).faults, ∀ j, g.saved = some ((saved1 0).pa, j) → g = heldFault (some true) := fun g hg j _ => by
  have : (resumeB.ctx (blkR 0).ctx).faults = [heldFault (some true)] := by decide +kernel
  rw [this] at hg
  exact List.mem_singleton.mp hg
theorem wit_Resume_whole : (bindR 1).getLsbD 226 = true ∧ LowestFree resumeC c0 0 ∧ blkR 1 = { rec0 := bindR 1, held := true } ∧
    (recNat (bindR 1) 196 4 + 1) * (recNat (bindR 1) 209 9 + 1) * (recNat (bindR 1) 222 4 + 1) ≤ ((heldThere resumeC c0 0 (blkR 1)).heldOf (blkR 1)).length ∧
    (((heldThere resumeC c0 0 (blkR 1)).heldOf (blkR 1)).map fun h => h.1.key) = [0] ∧
    (((heldThere resumeC c0 0 (blkR 1)).heldOf (blkR 1)).map fun h => h.2.2.save) = [0xFFC4000000] ∧
    (resumeC.ctx 1).faults = [] ∧ resumeC.saves.map (fun v => v.pa) = [0xFFC4000000] ∧ Listed (saved1 1) ∧
    (saved1 1).slots.length = (ranked (heldThere resumeC c0 0 (blkR 1)) c0 0).length := by decide +kernel

-- witnesses: the steps beside the table's events

/-- A machine with nothing due, which is ready, about to take a step beside the table; spoke 4 is in CXL personality. -/
def quiet (a : Action) : State := (fun (s : State) => { s with agenda := [a], peerq := [{ id := 0, r := rec1 9 }] }) ((on1 (mk { sl0 with st := .exited })).setSpoke 4 { cxl := true })
abbrev stepsBeside (s : State) : Prop := ({ s with agenda := [] } : State).turnWaits = false
theorem wit_Beside_peers : stepsBeside (quiet .peerApply) ∧ (quiet .peerApply).peerq = [{ id := 0, r := rec1 9 }] ∧ stepsBeside (quiet (.peerRecord 1 (rec1 9))) ∧
    place (8 * (rec1 9).key) = 0 ∧ hostMayWrite (rec1 9).key = true ∧ ((quiet (.peerRecord 1 (rec1 9))).die (homeDie (8 * (rec1 9).key))).held = false ∧
    SpokeOpen (quiet (.peerRecord 1 (rec1 9))) 1 ∧ ((quiet (.peerRecord 1 (rec1 9))).spoke (1 : BitVec 5).toNat).cxl = false := by decide +kernel
theorem wit_Beside_host : stepsBeside (quiet (.hostStore (0xFFF * 2 ^ 40 + 5) 7)) ∧ place (0xFFF * 2 ^ 40 + 5) = 0xFFF ∧ stepsBeside (quiet (.barWrite 4 4095 [7])) ∧
    ((quiet (.barWrite 4 4095 [7])).spoke (4 : BitVec 5).toNat).cxl = true ∧ ((quiet (.barWrite 4 4095 [7])).spoke (4 : BitVec 5).toNat).fenced = false ∧
    (quiet (.barWrite 4 4095 [7])).root.trained = true ∧ 4095 + [(7 : Byte)].length ≤ 4096 ∧ stepsBeside (quiet (.barRead 4 8200 8)) ∧ 8200 + 8 ≤ 8208 := by decide +kernel
/-- The mailbox's status on a device that is ready (R359). -/
theorem test_bar_status : (nextOf (step (quiet (.barRead 4 8200 8)))).map (fun t => t.readOut) = some [2, 0, 0, 0, 0, 0, 0, 0] := by decide +kernel

end Sys2Proof.Tests
end

section
/-! PROOFS. Rounding into a format (R48). The magnitudes of a format are a strictly increasing function of the encoding without
its sign bit (`magnitude`); `roundF` cuts the exact magnitude between two neighbours of that order and keeps one of them; the choice
between two neighbours is the mode's choice among all values. -/

namespace Sys2Proof.Proofs.Rounding

open Sys2Proof.Machine Sys2Proof.Claims

-- the sign of a magnitude

/-- The integer of a sign and a magnitude. -/
def signed (n : Bool) (k : Nat) : Int := if n then -(k : Int) else k

@[simp] theorem signed_true (k : Nat) : signed true k = -(k : Int) := rfl
@[simp] theorem signed_false (k : Nat) : signed false k = k := rfl

theorem scaled_num (n : Bool) (m : Nat) (e : Int) (st : Bool) (unit : Int) :
    (XVal.num n m e st).scaled unit = signed n (m * 2 ^ (e - unit).toNat) := by
  rw [← Nat.shiftLeft_eq]
  rfl

theorem natAbs_signed (n : Bool) (k : Nat) : (signed n k).natAbs = k := by
  cases n with
  | false => exact Int.natAbs_natCast k
  | true => exact (Int.natAbs_neg k).trans (Int.natAbs_natCast k)

theorem signed_inj (n : Bool) (j k : Nat) : signed n j = signed n k ↔ j = k := by
  cases n <;> simp only [signed_true, signed_false] <;> omega

-- the order of a format's magnitudes

/-- The magnitude of the encoding `k` (R34) with `mb` fraction bits, as a multiple of the least subnormal. -/
def magnitude (mb k : Nat) : Nat :=
  if k / 2 ^ mb = 0 then k % 2 ^ mb else (2 ^ mb + k % 2 ^ mb) * 2 ^ (k / 2 ^ mb - 1)

theorem magnitude_subnormal (mb k : Nat) (hk : k < 2 ^ mb) : magnitude mb k = k := by
  rw [magnitude, if_pos (Nat.div_eq_of_lt hk), Nat.mod_eq_of_lt hk]

theorem magnitude_normal (mb g f : Nat) (hf : f < 2 ^ mb) : magnitude mb (2 ^ mb * (g + 1) + f) = (2 ^ mb + f) * 2 ^ g := by
  have hdiv : (2 ^ mb * (g + 1) + f) / 2 ^ mb = g + 1 := by
    rw [Nat.mul_add_div (Nat.two_pow_pos mb), Nat.div_eq_of_lt hf, Nat.add_zero]
  rw [magnitude, hdiv, if_neg (Nat.succ_ne_zero g), Nat.mul_add_mod, Nat.mod_eq_of_lt hf, Nat.add_sub_cancel]

/-- `y` units of 2^g are encoded by `2^mb * g + y`, also where `y` carries into the next exponent. -/
theorem magnitude_add (mb g y : Nat) (hy : y ≤ 2 ^ (mb + 1)) (hg : g = 0 ∨ 2 ^ mb ≤ y) :
    magnitude mb (2 ^ mb * g + y) = y * 2 ^ g := by
  rw [Nat.pow_succ] at hy
  rcases Nat.lt_or_ge y (2 ^ mb) with hsub | hnorm
  · obtain rfl : g = 0 := hg.resolve_right (Nat.not_le.mpr hsub)
    rw [Nat.mul_zero, Nat.zero_add, magnitude_subnormal mb y hsub, Nat.pow_zero, Nat.mul_one]
  · obtain ⟨f, rfl⟩ := Nat.exists_eq_add_of_le hnorm
    have hk : 2 ^ mb * g + (2 ^ mb + f) = 2 ^ mb * (g + 1) + f := by rw [Nat.mul_succ, Nat.add_assoc]
    rw [hk]
    rcases Nat.lt_or_ge f (2 ^ mb) with hf | hf
    · exact magnitude_normal mb g f hf
    · obtain rfl : f = 2 ^ mb := by omega
      have hcarry := magnitude_normal mb (g + 1) 0 (Nat.two_pow_pos mb)
      simp only [Nat.add_zero] at hcarry
      rw [← Nat.mul_succ, hcarry, Nat.pow_succ, Nat.mul_comm (2 ^ g) 2, ← Nat.mul_assoc, Nat.mul_two]

theorem magnitude_lt_succ (mb k : Nat) : magnitude mb k < magnitude mb (k + 1) := by
  have hdm := Nat.div_add_mod k (2 ^ mb)
  have hlt := Nat.mod_lt k (Nat.two_pow_pos mb)
  obtain ⟨g, y, rfl, hy, hg⟩ : ∃ g y, k = 2 ^ mb * g + y ∧ y + 1 ≤ 2 ^ (mb + 1) ∧ (g = 0 ∨ 2 ^ mb ≤ y) := by
    rw [Nat.pow_succ]
    cases hq : k / 2 ^ mb with
    | zero => exact ⟨0, k % 2 ^ mb, by rw [hq] at hdm; exact hdm.symm, by omega, .inl rfl⟩
    | succ q => exact ⟨q, 2 ^ mb + k % 2 ^ mb, by rw [hq, Nat.mul_succ] at hdm; omega, by omega, .inr (by omega)⟩
  rw [Nat.add_assoc, magnitude_add mb g y (by omega) hg, magnitude_add mb g (y + 1) hy (by omega)]
  exact Nat.mul_lt_mul_of_pos_right (Nat.lt_succ_self y) (Nat.two_pow_pos g)

theorem magnitude_mono (mb : Nat) {j k : Nat} (h : j ≤ k) : magnitude mb j ≤ magnitude mb k := by
  induction h with
  | refl => exact Nat.le_refl _
  | step _ ih => exact Nat.le_trans ih (Nat.le_of_lt (magnitude_lt_succ mb _))

-- decoding a sign and a magnitude

/-- The exponent of the least subnormal (R34). -/
def leastExp (f : FFmt) : Int := 1 - (f.bias : Int) - f.mb

theorem mb_pos (f : FFmt) : 0 < f.mb := by cases f <;> decide

/-- Infinities and NaNs are the encodings above the largest finite one (R34). -/
theorem special_iff (f : FFmt) (k : Nat) (hk : k < 2 ^ (f.mb + f.eb)) :
    (f.hasInf = true ∧ k / 2 ^ f.mb = 2 ^ f.eb - 1) ∨ (f = .e4m3 ∧ k / 2 ^ f.mb = 15 ∧ k % 2 ^ f.mb = 7) ↔ f.maxEnc < k := by
  cases f <;> simp only [FFmt.hasInf, FFmt.mb, FFmt.eb, FFmt.maxEnc, reduceCtorEq, Bool.false_eq_true, true_and, false_and,
    or_false, false_or, false_iff, Nat.not_lt] at hk ⊢ <;> omega

theorem maxEnc_lt (f : FFmt) : f.maxEnc < 2 ^ (f.mb + f.eb) := by cases f <;> decide

theorem width_eq (f : FFmt) : f.width = f.mb + f.eb + 1 := by
  unfold FFmt.width
  omega

@[simp] theorem signBits_false (f : FFmt) : signBits f false = 0 := rfl
@[simp] theorem signBits_true (f : FFmt) : signBits f true = 2 ^ (f.mb + f.eb) := congrArg (fun w => 2 ^ (w - 1)) (width_eq f)

/-- Every encoding is a sign bit and a magnitude field. -/
theorem exists_eq_signBits_add (f : FFmt) (b : Nat) (hb : b < 2 ^ f.width) :
    ∃ n k, k < 2 ^ (f.mb + f.eb) ∧ b = signBits f n + k := by
  rw [width_eq, Nat.pow_succ] at hb
  rcases Nat.lt_or_ge b (2 ^ (f.mb + f.eb)) with h | h
  · exact ⟨false, b, h, (Nat.zero_add b).symm⟩
  · exact ⟨true, b - 2 ^ (f.mb + f.eb), by omega, by rw [signBits_true]; omega⟩

/-- The fraction, exponent and sign fields of an encoding (R34). -/
theorem fields_signBits_add (f : FFmt) (n : Bool) (k : Nat) (hk : k < 2 ^ (f.mb + f.eb)) :
    (signBits f n + k) % 2 ^ f.mb = k % 2 ^ f.mb ∧ (signBits f n + k) / 2 ^ f.mb % 2 ^ f.eb = k / 2 ^ f.mb ∧
      decide ((signBits f n + k) / 2 ^ (f.mb + f.eb) % 2 = 1) = n := by
  have hb : signBits f n = 2 ^ (f.mb + f.eb) * n.toNat := by
    cases n with
    | false => rfl
    | true => rw [signBits_true, Bool.toNat_true, Nat.mul_one]
  have he : k / 2 ^ f.mb < 2 ^ f.eb := Nat.div_lt_of_lt_mul (by rwa [← Nat.pow_add])
  refine ⟨?fraction, ?exponent, ?sign⟩
  case fraction => rw [hb, Nat.pow_add, Nat.mul_assoc, Nat.mul_add_mod]
  case exponent =>
    rw [hb, Nat.pow_add, Nat.mul_assoc, Nat.mul_add_div (Nat.two_pow_pos _), Nat.mul_add_mod, Nat.mod_eq_of_lt he]
  case sign =>
    rw [hb, Nat.mul_add_div (Nat.two_pow_pos _), Nat.div_eq_of_lt hk]
    cases n <;> rfl

theorem decodeF_of_le_maxEnc (f : FFmt) (n : Bool) (k : Nat) (hk : k ≤ f.maxEnc) :
    decodeF f false (signBits f n + k) =
      if k / 2 ^ f.mb = 0 then .num n (k % 2 ^ f.mb) (leastExp f) false
      else .num n (2 ^ f.mb + k % 2 ^ f.mb) (((k / 2 ^ f.mb : Nat) : Int) - f.bias - f.mb) false := by
  have hlt := Nat.lt_of_le_of_lt hk (maxEnc_lt f)
  obtain ⟨hfr, he, hn⟩ := fields_signBits_add f n k hlt
  obtain ⟨hInf, hNaN⟩ := not_or.mp (mt (special_iff f k hlt).mp (Nat.not_lt.mpr hk))
  simp only [decodeF, hfr, he, hn, leastExp]
  rw [if_neg (by rwa [Bool.and_eq_true, decide_eq_true_eq]),
    if_neg (by simpa only [Bool.and_eq_true, decide_eq_true_eq, and_assoc] using hNaN)]
  rfl

theorem isFinite_decodeF_iff (f : FFmt) (n : Bool) (k : Nat) (hk : k < 2 ^ (f.mb + f.eb)) :
    isFinite (decodeF f false (signBits f n + k)) = true ↔ k ≤ f.maxEnc := by
  constructor
  · intro h
    refine Nat.le_of_not_lt fun hgt => ?_
    obtain ⟨hfr, he, -⟩ := fields_signBits_add f n k hk
    simp only [decodeF, hfr, he] at h
    rcases (special_iff f k hk).mpr hgt with ⟨hInf, hE⟩ | ⟨rfl, hE, hF⟩
    · rw [if_pos (by rw [hInf, hE, decide_eq_true rfl]; rfl)] at h
      split at h <;> exact Bool.false_ne_true h
    · rw [hE, hF] at h
      exact Bool.false_ne_true h
  · intro h
    rw [decodeF_of_le_maxEnc f n k h]
    split <;> rfl

theorem neg_decodeF (f : FFmt) (n : Bool) (k : Nat) (hk : k ≤ f.maxEnc) : (decodeF f false (signBits f n + k)).neg = n := by
  rw [decodeF_of_le_maxEnc f n k hk]
  split <;> rfl

/-- A finite encoding is its magnitude with its sign, in any unit not above the least subnormal. -/
theorem scaled_decodeF (f : FFmt) (n : Bool) (k : Nat) (hk : k ≤ f.maxEnc) (unit : Int) (hu : unit ≤ leastExp f) :
    (decodeF f false (signBits f n + k)).scaled unit = signed n (magnitude f.mb k * 2 ^ (leastExp f - unit).toNat) := by
  rw [decodeF_of_le_maxEnc f n k hk, magnitude]
  split
  case isTrue => exact scaled_num _ _ _ _ _
  case isFalse h =>
    have hexp : (((k / 2 ^ f.mb : Nat) : Int) - f.bias - f.mb - unit).toNat = k / 2 ^ f.mb - 1 + (leastExp f - unit).toNat := by
      generalize k / 2 ^ f.mb = E at *
      unfold leastExp at *
      omega
    rw [scaled_num, hexp, Nat.pow_add, Nat.mul_assoc]

-- what roundF answers

/-- The exponent of the last place to which `roundF` keeps m × 2^e. -/
def ulpExp (f : FFmt) (m : Nat) (e : Int) : Int := max (log2Of m e - f.mb) (leastExp f)

/-- How many units of the last place lie under m × 2^e (the `lo` of R48). -/
def below (f : FFmt) (m : Nat) (e : Int) : Nat := (splitAt m e (ulpExp f m e)).1
/-- The parts of m × 2^e above `lo`, and how many parts make a unit of the last place. -/
def excess (f : FFmt) (m : Nat) (e : Int) : Nat := (splitAt m e (ulpExp f m e)).2.1
def parts (f : FFmt) (m : Nat) (e : Int) : Nat := (splitAt m e (ulpExp f m e)).2.2

/-- Whether `roundF` takes the neighbour of m × 2^e away from zero (the `hi` of R48). -/
def roundsUp (f : FFmt) (mode : RMode) (n : Bool) (m : Nat) (e : Int) : Bool :=
  decide (excess f m e ≠ 0) && takesHi mode n (decide (below f m e % 2 = 1)) (excess f m e) (parts f m e) false

/-- The encoding of `lo`, without its sign. -/
def encBelow (f : FFmt) (m : Nat) (e : Int) : Nat := (ulpExp f m e - leastExp f).toNat * 2 ^ f.mb + below f m e

/-- The encoding that `roundF` gives, without its sign. -/
def encRounded (f : FFmt) (mode : RMode) (n : Bool) (m : Nat) (e : Int) : Nat :=
  if roundsUp f mode n m e then encBelow f m e + 1 else encBelow f m e

theorem roundF_num (f : FFmt) (mode : RMode) (n : Bool) (m : Nat) (e : Int) (hm : m ≠ 0) :
    roundF f mode false false (.num n m e false) =
      if f.maxEnc < encRounded f mode n m e then
        if f.hasInf && overflowsToInf mode n then (infBits f n, flagOF ||| flagNX) else (signBits f n + f.maxEnc, flagOF ||| flagNX)
      else if encRounded f mode n m e < 2 ^ f.mb then
        (signBits f n + encRounded f mode n m e, if decide (excess f m e ≠ 0) then flagUF ||| flagNX else 0)
      else (signBits f n + encRounded f mode n m e, if decide (excess f m e ≠ 0) then flagNX else 0) := by
  have henc : encRounded f mode n m e =
      (ulpExp f m e - leastExp f).toNat * 2 ^ f.mb + (if roundsUp f mode n m e then below f m e + 1 else below f m e) := by
    unfold encRounded encBelow
    split <;> omega
  rw [henc]
  simp only [roundF, hm, decide_false, Bool.false_and, Bool.or_false, Bool.not_false, Bool.and_true]
  rfl

theorem roundF_of_no_overflow (f : FFmt) (mode : RMode) (n : Bool) (m : Nat) (e : Int) (hm : m ≠ 0)
    (hOF : (roundF f mode false false (.num n m e false)).2 &&& flagOF = 0) :
    encRounded f mode n m e ≤ f.maxEnc ∧
      (roundF f mode false false (.num n m e false)).1 = signBits f n + encRounded f mode n m e ∧
      ((roundF f mode false false (.num n m e false)).2 &&& flagNX ≠ 0 ↔ excess f m e ≠ 0) := by
  rw [roundF_num f mode n m e hm] at hOF ⊢
  rcases Nat.lt_or_ge f.maxEnc (encRounded f mode n m e) with hover | hle
  · rw [if_pos hover] at hOF
    split at hOF <;> exact absurd hOF (show ¬ (flagOF ||| flagNX) &&& flagOF = 0 by decide)
  · rw [if_neg (Nat.not_lt.mpr hle)]
    refine ⟨hle, ?_, ?_⟩
    · split <;> rfl
    · by_cases hx : excess f m e = 0
      · rw [decide_eq_false (not_not_intro hx)]
        split <;> exact iff_of_false (show ¬ (0 : FFlags) &&& flagNX ≠ 0 by decide) (not_not_intro hx)
      · rw [decide_eq_true hx]
        split
        · exact iff_of_true (show (flagUF ||| flagNX) &&& flagNX ≠ 0 by decide) hx
        · exact iff_of_true (show flagNX &&& flagNX ≠ 0 by decide) hx

-- the exact value between its two neighbours

/-- `splitAt` divides the magnitude: `c` is the size of one of the `full` parts. -/
theorem splitAt_divides (m : Nat) (e q unit : Int) (he : unit ≤ e) (hq : unit ≤ q) :
    ∃ c, 0 < c ∧ m * 2 ^ (e - unit).toNat = (splitAt m e q).1 * 2 ^ (q - unit).toNat + (splitAt m e q).2.1 * c ∧
      2 ^ (q - unit).toNat = (splitAt m e q).2.2 * c ∧ (splitAt m e q).2.1 < (splitAt m e q).2.2 := by
  unfold splitAt
  split
  case h_1 k hk =>
    have hk' : q - e = (k : Int) := hk
    have hexp : (q - unit).toNat = k + (e - unit).toNat := by omega
    refine ⟨2 ^ (e - unit).toNat, Nat.two_pow_pos _, ?_, by rw [hexp, Nat.pow_add], Nat.mod_lt _ (Nat.two_pow_pos k)⟩
    show m * _ = (m >>> k) * _ + m % 2 ^ k * _
    rw [hexp, Nat.pow_add, Nat.shiftRight_eq_div_pow, ← Nat.mul_assoc, ← Nat.add_mul, Nat.div_add_mod']
  case h_2 k hk =>
    have hexp : (e - unit).toNat = k + 1 + (q - unit).toNat := by omega
    refine ⟨2 ^ (q - unit).toNat, Nat.two_pow_pos _, ?_, (Nat.one_mul _).symm, Nat.zero_lt_one⟩
    show m * _ = (m <<< (k + 1)) * _ + 0 * _
    rw [hexp, Nat.pow_add, Nat.shiftLeft_eq, Nat.mul_assoc, Nat.zero_mul]
    rfl

/-- The unit of the statement: no exponent of `x` or of the format's values is below it. -/
def commonExp (f : FFmt) (e : Int) : Int := min e (leastExp f)

theorem commonExp_le (f : FFmt) (e : Int) : commonExp f e ≤ e := Int.min_le_left _ _
theorem commonExp_le_leastExp (f : FFmt) (e : Int) : commonExp f e ≤ leastExp f := Int.min_le_right _ _
theorem leastExp_le_ulpExp (f : FFmt) (m : Nat) (e : Int) : leastExp f ≤ ulpExp f m e := Int.le_max_right _ _
theorem commonExp_le_ulpExp (f : FFmt) (m : Nat) (e : Int) : commonExp f e ≤ ulpExp f m e :=
  Int.le_trans (commonExp_le_leastExp f e) (leastExp_le_ulpExp f m e)

/-- The magnitude of m × 2^e, and the weight of its last place and of the least subnormal, in the common unit. -/
def exactMag (f : FFmt) (m : Nat) (e : Int) : Nat := m * 2 ^ (e - commonExp f e).toNat
def ulp (f : FFmt) (m : Nat) (e : Int) : Nat := 2 ^ (ulpExp f m e - commonExp f e).toNat
def leastUlp (f : FFmt) (e : Int) : Nat := 2 ^ (leastExp f - commonExp f e).toNat

theorem exact_divides (f : FFmt) (m : Nat) (e : Int) :
    ∃ c, 0 < c ∧ exactMag f m e = below f m e * ulp f m e + excess f m e * c ∧ ulp f m e = parts f m e * c ∧
      excess f m e < parts f m e :=
  splitAt_divides m e (ulpExp f m e) (commonExp f e) (commonExp_le f e) (commonExp_le_ulpExp f m e)

theorem exact_between (f : FFmt) (m : Nat) (e : Int) :
    below f m e * ulp f m e ≤ exactMag f m e ∧ exactMag f m e < (below f m e + 1) * ulp f m e := by
  obtain ⟨c, hc, hx, hu, hlt⟩ := exact_divides f m e
  have := Nat.mul_lt_mul_of_pos_right hlt hc
  rw [hx, Nat.add_mul, Nat.one_mul]
  omega

/-- `lo` has at most `mb + 1` bits, and exactly so many above the least exponent. -/
theorem below_bounds (f : FFmt) (m : Nat) (e : Int) (hm : m ≠ 0) :
    below f m e < 2 ^ (f.mb + 1) ∧ (ulpExp f m e = leastExp f ∨ 2 ^ f.mb ≤ below f m e) := by
  obtain ⟨hle, hlt⟩ := exact_between f m e
  have hu := commonExp_le f e
  have hq := commonExp_le_ulpExp f m e
  have hmax : ((m.log2 : Int) + e - f.mb ≤ ulpExp f m e) ∧ (ulpExp f m e = leastExp f ∨ ulpExp f m e = m.log2 + e - f.mb) := by
    unfold ulpExp log2Of
    omega
  obtain ⟨hsig, hcase⟩ := hmax
  constructor
  · refine Nat.lt_of_mul_lt_mul_right (a := ulp f m e) (Nat.lt_of_le_of_lt hle ?_)
    calc exactMag f m e < 2 ^ (m.log2 + 1) * 2 ^ (e - commonExp f e).toNat :=
          Nat.mul_lt_mul_of_pos_right Nat.lt_log2_self (Nat.two_pow_pos _)
      _ ≤ 2 ^ (f.mb + 1) * ulp f m e := by
          rw [ulp, ← Nat.pow_add, ← Nat.pow_add]
          exact Nat.pow_le_pow_right Nat.two_pos (by omega)
  · refine hcase.imp id fun hnorm => ?_
    refine Nat.le_of_lt_succ (Nat.lt_of_mul_lt_mul_right (a := ulp f m e) (Nat.lt_of_le_of_lt ?_ hlt))
    calc 2 ^ f.mb * ulp f m e = 2 ^ m.log2 * 2 ^ (e - commonExp f e).toNat := by
          rw [ulp, ← Nat.pow_add, ← Nat.pow_add]
          exact congrArg (2 ^ ·) (by omega)
      _ ≤ exactMag f m e := Nat.mul_le_mul_right _ (Nat.log2_self_le hm)

/-- The encodings next to m × 2^e have `lo` and `lo + 1` units of the last place as their magnitudes. -/
theorem magnitude_encBelow_add (f : FFmt) (m : Nat) (e : Int) (hm : m ≠ 0) (i : Nat) (hi : i ≤ 1) :
    magnitude f.mb (encBelow f m e + i) * leastUlp f e = (below f m e + i) * ulp f m e := by
  obtain ⟨hlt, hnorm⟩ := below_bounds f m e hm
  have hl := leastExp_le_ulpExp f m e
  have hu := commonExp_le_leastExp f e
  have hexp : (ulpExp f m e - leastExp f).toNat + (leastExp f - commonExp f e).toNat = (ulpExp f m e - commonExp f e).toNat := by omega
  rw [encBelow, Nat.add_assoc, Nat.mul_comm _ (2 ^ f.mb), magnitude_add _ _ _ (by omega) (by omega), Nat.mul_assoc, leastUlp, ulp,
    ← Nat.pow_add, hexp]

/-- No value of the format lies strictly between the two neighbours. -/
theorem magnitude_outside (f : FFmt) (m : Nat) (e : Int) (hm : m ≠ 0) (k : Nat) :
    magnitude f.mb k * leastUlp f e ≤ below f m e * ulp f m e ∨
      (below f m e + 1) * ulp f m e ≤ magnitude f.mb k * leastUlp f e := by
  have hlo : magnitude f.mb (encBelow f m e) * leastUlp f e = below f m e * ulp f m e :=
    magnitude_encBelow_add f m e hm 0 (Nat.zero_le 1)
  rw [← hlo, ← magnitude_encBelow_add f m e hm 1 (Nat.le_refl 1)]
  rcases Nat.lt_or_ge (encBelow f m e) k with habove | hbelow
  · exact .inr (Nat.mul_le_mul_right _ (magnitude_mono f.mb habove))
  · exact .inl (Nat.mul_le_mul_right _ (magnitude_mono f.mb hbelow))

-- the choice between two neighbours

/-- The choice of hi over lo does not depend on the size of a part. -/
theorem takesHi_mul (mode : RMode) (n odd : Bool) (rem full c : Nat) (hc : 0 < c) (hsr : ∀ u, mode ≠ .sr u) :
    takesHi mode n odd (rem * c) (full * c) false = takesHi mode n odd rem full false := by
  have hgt : full * c < 2 * (rem * c) ↔ full < 2 * rem := by rw [← Nat.mul_assoc]; exact Nat.mul_lt_mul_right hc
  have htie : 2 * (rem * c) = full * c ↔ 2 * rem = full := by rw [← Nat.mul_assoc]; exact Nat.mul_left_inj (Nat.ne_of_gt hc)
  cases mode with
  | sr u => exact absurd rfl (hsr u)
  | _ => simp only [takesHi, hgt, htie]

/-- Whether a mode keeps `hi` of the neighbours `lo ≤ x < hi` (R48); `odd` says that `lo` is the odd one. -/
def keepsHi (mode : RMode) (n odd : Bool) (lo x hi : Nat) : Bool :=
  decide (x - lo ≠ 0) && takesHi mode n odd (x - lo) (hi - lo) false

/-- The neighbour that the mode keeps. -/
def chosen (mode : RMode) (n odd : Bool) (lo x hi : Nat) : Nat := if keepsHi mode n odd lo x hi then hi else lo

section Neighbours
variable {mode : RMode} {n : Bool} (odd : Bool) {lo x hi : Nat} (hlo : lo ≤ x) (hhi : x < hi)

theorem chosen_toward_zero (hto : takesHi mode n odd (x - lo) (hi - lo) false = false) : chosen mode n odd lo x hi = lo := by
  rw [chosen, keepsHi, hto, Bool.and_false, if_neg Bool.false_ne_true]

include hlo in
theorem chosen_away_from_zero (haway : takesHi mode n odd (x - lo) (hi - lo) false = true) :
    x = lo ∧ chosen mode n odd lo x hi = lo ∨ lo < x ∧ chosen mode n odd lo x hi = hi := by
  simp only [chosen, keepsHi, haway, Bool.and_true, decide_eq_true_eq]
  split <;> omega

include hlo hhi

theorem chosen_eq_iff : chosen mode n odd lo x hi = x ↔ x - lo = 0 := by
  unfold chosen
  by_cases hx : x - lo = 0
  · rw [show keepsHi mode n odd lo x hi = false by simp only [keepsHi, hx, ne_eq, not_true, decide_false, Bool.false_and]]
    show lo = x ↔ _
    omega
  · split <;> omega

theorem chosen_rne : chosen .rne n odd lo x hi = lo ∧ 2 * x ≤ lo + hi ∨ chosen .rne n odd lo x hi = hi ∧ lo + hi ≤ 2 * x := by
  have hup : keepsHi .rne n odd lo x hi = true → lo + hi ≤ 2 * x := by
    simp only [keepsHi, takesHi, Bool.and_eq_true, Bool.or_eq_true, decide_eq_true_eq]
    omega
  have hdown : keepsHi .rne n odd lo x hi = false → 2 * x ≤ lo + hi := by
    simp only [keepsHi, takesHi, Bool.and_eq_false_iff, Bool.or_eq_false_iff, decide_eq_false_iff_not]
    omega
  unfold chosen
  split
  case isTrue h => exact .inr ⟨rfl, hup h⟩
  case isFalse h => exact .inl ⟨rfl, hdown (Bool.eq_false_iff.mpr h)⟩

theorem chosen_rna : chosen .rna n odd lo x hi = lo ∧ 2 * x < lo + hi ∨ chosen .rna n odd lo x hi = hi ∧ lo + hi ≤ 2 * x := by
  simp only [chosen, keepsHi, takesHi, Bool.and_eq_true, Bool.or_eq_true, decide_eq_true_eq, Bool.not_false, Bool.and_true]
  split <;> omega

omit hlo in
theorem keepsHi_rne_of_tie (htie : 2 * x = lo + hi) : keepsHi .rne n odd lo x hi = odd := by
  have hfull : hi - lo = 2 * (x - lo) := by omega
  have hne : x - lo ≠ 0 := by omega
  simp only [keepsHi, takesHi, hfull, Nat.lt_irrefl, hne, ne_eq, not_false_eq_true, decide_true, decide_false, Bool.not_false,
    Bool.and_true, Bool.true_and, Bool.and_false, Bool.or_false, Bool.false_or]

variable {ys : Int → Prop} (hys : ∀ y, ys y → y.natAbs ≤ lo ∨ hi ≤ y.natAbs)
include hys

/-- Between neighbours the mode's choice is its choice among all values (R48). -/
theorem picks_chosen : Picks mode (signed n x) (signed n (chosen mode n odd lo x hi)) ys := by
  cases mode with
  | sr u => trivial
  | rne =>
    intro y hy
    have hout := hys y hy
    have hrne := chosen_rne (n := n) odd hlo hhi
    cases n <;> simp only [signed_true, signed_false] <;> omega
  | rna =>
    intro y hy
    have hout := hys y hy
    have hrna := chosen_rna (n := n) odd hlo hhi
    cases n <;> simp only [signed_true, signed_false] <;> omega
  | rtz =>
    rw [chosen_toward_zero odd rfl]
    simp only [Picks, natAbs_signed]
    exact ⟨hlo, fun y hy _ => (hys y hy).resolve_right (by omega)⟩
  | rdn =>
    cases n with
    | false =>
      rw [chosen_toward_zero odd rfl]
      exact ⟨by simpa using hlo, fun y hy hyx => by have := hys y hy; simp only [signed_false] at *; omega⟩
    | true =>
      have haway := chosen_away_from_zero (hi := hi) (mode := .rdn) (n := true) odd hlo rfl
      exact ⟨by simp only [signed_true]; omega, fun y hy hyx => by have := hys y hy; simp only [signed_true] at *; omega⟩
  | rup =>
    cases n with
    | true =>
      rw [chosen_toward_zero odd rfl]
      exact ⟨by simpa using hlo, fun y hy hyx => by have := hys y hy; simp only [signed_true] at *; omega⟩
    | false =>
      have haway := chosen_away_from_zero (hi := hi) (mode := .rup) (n := false) odd hlo rfl
      exact ⟨by simp only [signed_false]; omega, fun y hy hyx => by have := hys y hy; simp only [signed_false] at *; omega⟩

/-- A second value as near as the one that `rne` keeps makes a tie of the neighbours. -/
theorem tie_of_second_nearest (y : Int) (hy : ys y) (hne : y ≠ signed n (chosen .rne n odd lo x hi))
    (hnear : (signed n (chosen .rne n odd lo x hi) - signed n x).natAbs = (y - signed n x).natAbs) : 2 * x = lo + hi := by
  have hout := hys y hy
  have hrne := chosen_rne (n := n) odd hlo hhi
  cases n <;> simp only [signed_true, signed_false] at hne hnear <;> omega

end Neighbours

-- rounding keeps the mode's neighbour

theorem roundsUp_eq_keepsHi (f : FFmt) (mode : RMode) (n : Bool) (m : Nat) (e : Int) (hsr : ∀ u, mode ≠ .sr u) :
    roundsUp f mode n m e = keepsHi mode n (decide (below f m e % 2 = 1)) (below f m e * ulp f m e) (exactMag f m e)
      ((below f m e + 1) * ulp f m e) := by
  obtain ⟨c, hc, hx, hu, -⟩ := exact_divides f m e
  have hrem : exactMag f m e - below f m e * ulp f m e = excess f m e * c := by omega
  have hfull : (below f m e + 1) * ulp f m e - below f m e * ulp f m e = parts f m e * c := by
    rw [Nat.add_mul, Nat.one_mul, Nat.add_sub_cancel_left, hu]
  rw [keepsHi, hrem, hfull, takesHi_mul mode n _ _ _ c hc hsr, roundsUp]
  simp only [ne_eq, Nat.mul_eq_zero, Nat.ne_of_gt hc, or_false]

theorem excess_eq_zero_iff (f : FFmt) (m : Nat) (e : Int) : excess f m e = 0 ↔ exactMag f m e - below f m e * ulp f m e = 0 := by
  obtain ⟨c, hc, hx, -, -⟩ := exact_divides f m e
  rw [hx, Nat.add_sub_cancel_left, Nat.mul_eq_zero, or_iff_left (Nat.ne_of_gt hc)]

/-- The neighbour that `roundF` keeps of m × 2^e, in the common unit. -/
def kept (f : FFmt) (mode : RMode) (n : Bool) (m : Nat) (e : Int) : Nat :=
  chosen mode n (decide (below f m e % 2 = 1)) (below f m e * ulp f m e) (exactMag f m e) ((below f m e + 1) * ulp f m e)

theorem magnitude_encRounded (f : FFmt) (mode : RMode) (n : Bool) (m : Nat) (e : Int) (hm : m ≠ 0) (hsr : ∀ u, mode ≠ .sr u) :
    magnitude f.mb (encRounded f mode n m e) * leastUlp f e = kept f mode n m e := by
  rw [encRounded, kept, chosen, ← roundsUp_eq_keepsHi f mode n m e hsr]
  split
  · exact magnitude_encBelow_add f m e hm 1 (Nat.le_refl 1)
  · exact magnitude_encBelow_add f m e hm 0 (Nat.zero_le 1)

/-- Every format has a fraction, so the last bit of an encoding is that of its units of the last place. -/
theorem encBelow_mod_two (f : FFmt) (n : Bool) (m : Nat) (e : Int) : (signBits f n + encBelow f m e) % 2 = below f m e % 2 := by
  have hmb : 2 ∣ 2 ^ f.mb := Nat.dvd_of_pow_dvd (mb_pos f) (Nat.dvd_refl _)
  have hsign : 2 ∣ signBits f n := by
    cases n with
    | false => exact Nat.dvd_zero 2
    | true => rw [signBits_true, Nat.pow_add]; exact Nat.dvd_mul_right_of_dvd hmb _
  have hexp : 2 ∣ (ulpExp f m e - leastExp f).toNat * 2 ^ f.mb := Nat.dvd_mul_left_of_dvd hmb _
  unfold encBelow
  omega

/-- To move away from an odd neighbour and stay at an even one gives an even encoding. -/
theorem encRounded_even (f : FFmt) (mode : RMode) (n : Bool) (m : Nat) (e : Int)
    (h : roundsUp f mode n m e = decide (below f m e % 2 = 1)) : (signBits f n + encRounded f mode n m e) % 2 = 0 := by
  have hpar := encBelow_mod_two f n m e
  rw [encRounded, h]
  rcases Nat.mod_two_eq_zero_or_one (below f m e) with heven | hodd
  · rw [heven, if_neg (by decide)]
    omega
  · rw [hodd, if_pos (by decide)]
    omega

/-- The values of a format (R34), in a unit. -/
def Values (f : FFmt) (unit : Int) (y : Int) : Prop :=
  ∃ b, b < 2 ^ f.width ∧ isFinite (decodeF f false b) = true ∧ (decodeF f false b).scaled unit = y

theorem values_outside (f : FFmt) (m : Nat) (e : Int) (hm : m ≠ 0) (y : Int) (hy : Values f (commonExp f e) y) :
    y.natAbs ≤ below f m e * ulp f m e ∨ (below f m e + 1) * ulp f m e ≤ y.natAbs := by
  obtain ⟨b, hb, hfin, rfl⟩ := hy
  obtain ⟨n, k, hk, rfl⟩ := exists_eq_signBits_add f b hb
  have hle := (isFinite_decodeF_iff f n k hk).mp hfin
  rw [scaled_decodeF f n k hle (commonExp f e) (commonExp_le_leastExp f e), natAbs_signed]
  exact magnitude_outside f m e hm k

/-- Settles O10: the exact magnitude lies between two neighbouring magnitudes of the format, and `Round` keeps the one that the mode
picks among all values. -/
theorem roundingPicksTheModesValue : Obligations.RoundingPicksTheModesValue := by
  intro f mode n m e hm hsr unit x r v ys hOF
  obtain ⟨hle, hr, hNX⟩ := roundF_of_no_overflow f mode n m e hm hOF
  obtain ⟨hlo, hhi⟩ := exact_between f m e
  have hys : ∀ y, ys y → _ := values_outside f m e hm
  have hx : x = signed n (exactMag f m e) := scaled_num n m e false unit
  have hv : v = signed n (kept f mode n m e) := by
    rw [← magnitude_encRounded f mode n m e hm hsr]
    exact (congrArg (fun b => (decodeF f false b).scaled unit) hr).trans (scaled_decodeF f n _ hle unit (commonExp_le_leastExp f e))
  rw [hx, hv]
  refine ⟨?finite, ?sign, picks_chosen _ hlo hhi hys, ?tie, ?inexact⟩
  case finite => exact hr ▸ (isFinite_decodeF_iff f n _ (Nat.lt_of_le_of_lt hle (maxEnc_lt f))).mpr hle
  case sign => exact hr ▸ neg_decodeF f n _ hle
  case tie =>
    rintro rfl ⟨y, hy, hne, hnear⟩
    have htie := tie_of_second_nearest _ hlo hhi hys y hy hne hnear
    have hup := (roundsUp_eq_keepsHi f .rne n m e hsr).trans (keepsHi_rne_of_tie _ hhi htie)
    exact hr ▸ encRounded_even f .rne n m e hup
  case inexact => rw [hNX, Ne, Ne, excess_eq_zero_iff, signed_inj, kept, chosen_eq_iff _ hlo hhi]

end Sys2Proof.Proofs.Rounding
end
